-- ==== Sys2Proof/Word.lean ====
section
/-! DEFINITION. The word types of the manual: a byte, a 32-bit register word, a 128-bit microword. -/

namespace Sys2Proof

/-- A byte of a structure, of the stage buffer or of a page (00_scope.md R18). -/
abbrev Byte := BitVec 8

/-- A control-port register (00_scope.md R13). -/
abbrev Word := BitVec 32

/-- A control-store word (06_microcode.md R238). -/
abbrev Microword := BitVec 128

end Sys2Proof
end

