-- ==== Sys2Proof/Syntax.lean ====
section
/-! DEFINITION. The commands of the block: one constructor for each row of the opcode table. An operand is what the
command itself carries (a ring, a value) or what the world outside the block brings with it (bytes a die returns,
the outcome of a flash write, a sensor reading). Log entries 1 and 6. -/

namespace Sys2Proof

namespace Machine

/-- Who sends a command that either kind of firmware may send (00_scope.md R10). -/
inductive Agent where
  | host | dome
  deriving DecidableEq, Repr

/-- 01_architecture.md R25: the clocks that are monitored. -/
inductive Clock where
  | hclk | cpclk | mclk | mref
  | pll (g : Nat)
  deriving DecidableEq, Repr

/-- The cause of a failed request (02_boundary.md R57), coded by 03_queues.md R138. -/
inductive Cause where
  | tgtErr | noTarget | timeout | tmo | outOfService | proto | drained
  deriving DecidableEq, Repr

/-- What a read or probe of one stripe member shows in a replay (10_stripes.md R405): whole (with the plain bytes of
its slots), erased, or anything else. -/
inductive ProbeRes where
  | whole (slots : List (Nat × List Byte))
  | erased
  | other
  deriving DecidableEq, Repr

/-- A statistics record with what Seeing needs beside it (08_codec.md R322). -/
structure Stat where
  result : Nat
  die    : Nat
  bg     : Nat
  bin    : Nat
  levels : List Nat                          -- the page's levels, ascending
  fell   : List Nat
  rose   : List Nat
  used   : List Int                          -- offsets the read used, by level
  deriving DecidableEq, Repr

/-- One read or probe of a replay, of `senses` senses of the page; its codewords' statistics go to Seeing as any read's
(01_architecture.md R32). -/
structure Probe where
  stripe : Nat
  pos    : Nat
  res    : ProbeRes
  senses : Nat := 1
  recs   : List Stat := []
  deriving DecidableEq, Repr

/-- The runs of one training of a rate set of a group (07_phy_calibration.md R279): two or three sets of 272 bytes
(R292), each with the drive codes and the trims and eyes of the four channels. -/
structure TrainRes where
  grp  : Nat
  set  : Nat
  runs : List (List Byte) := []
  deriving DecidableEq, Repr

/-- What a loop-back verify of a group, or a recalibration, finds (07_phy_calibration.md R282, R284): whether every pad receives
the pattern, the corrected set of 272 bytes (R292), none where nothing is corrected, and what a narrowed sweep gives where the
verify of an exit from P2 fails (R295). -/
structure PhyRes where
  ok    : Bool := true
  set   : List Byte := []
  sweep : List TrainRes := []
  deriving DecidableEq, Repr

/-- How a Fervon entry goes (07_phy_calibration.md R275 to R277): the dies whose FERVON kind fails, a number that names no die
standing for a step of the PHY itself, and what the verifies find at the standard rate of a fall-back and at the Fervon rate. -/
structure FvRes where
  fails : List Nat := []
  std   : PhyRes := {}
  fv    : PhyRes := {}
  deriving DecidableEq, Repr

/-- What a codec cluster's own checks find at the end of a lane's work (08_codec.md R315, R312, R325): nothing; a result or frame
that the checker refuses; or a parity error in one of the cluster's memories, before or after the write-back has begun. -/
inductive LaneFlt where
  | none
  | check
  | memory (begun : Bool)
  deriving DecidableEq, Repr

/-- A lane or encoder that ends its work. -/
structure LaneEnd where
  lane : Nat
  flt  : LaneFlt := .none
  deriving DecidableEq, Repr

/-- A drive code that short calibration gives, and the channel of the replica pad that gave it (07_phy_calibration.md R283,
R287). -/
structure ZqRes where
  code : Nat
  ch   : Nat := 0
  deriving DecidableEq, Repr

/-- What the dies, verifies and probes show to a warm start (15_startup_reset_power.md R542). -/
structure WarmEnv where
  unready : List Nat := []                   -- dies not ready by the end of step 5
  sets    : List TrainRes := []              -- sets whose verify failed, with the narrowed retrain's result (step 8)
  drift   : List (Nat × List Byte) := []     -- by group, the deskews that its verify corrects (07_phy_calibration.md R282)
  probes  : List Probe := []
  tests   : List (Nat × Bool) := []          -- self-tests of faulted clusters (step 6)
  deriving DecidableEq, Repr

/-- What DIE_INIT finds of one die (05_channel_engine.md R232, 07_phy_calibration.md R274). -/
structure DieFound where
  die  : Nat
  ident : Nat := 0                           -- first four ID bytes
  geom : Word := 0
  mode : Nat := 0
  cap  : Option (Nat × Nat) := none
  susp : Bool × Bool := (false, false)       -- it offers program suspend, and erase suspend (05_channel_engine.md R212)
  deriving DecidableEq, Repr

/-- A page-set of a Night Log block as a start reads it (14_dome_nightlog.md R525, R527, R528). -/
structure SegRead where
  copyB : Bool := false
  blk   : Nat := 0
  page  : Nat := 0
  bytes : List Byte := []
  deriving DecidableEq, Repr

/-- A page that the complex reads for itself: its senses count, and its codewords' statistics go to Seeing (01_architecture.md R32,
09_seeing.md R354). -/
structure SysRead where
  die    : Nat
  row    : Nat
  planes : Nat := 15
  recs   : List Stat := []
  deriving DecidableEq, Repr

/-- How a read of one fuse word is answered: with its value, with FUSE_ERR, or not in time (02_boundary.md R70, R71). -/
inductive FuseAns where
  | data (w : Word)
  | err
  | late
  deriving DecidableEq, Repr

/-- What a controller of the I3C bus sends to the target: a private write (14_dome_nightlog.md R497), a dynamic address, or
the clearing of every address (02_boundary.md R94). -/
inductive I3cMsg where
  | priv (words : List Word)
  | assign (a : Nat)
  | reset
  deriving DecidableEq, Repr

/-- A read on the control port (02_boundary.md R62): its byte offset and byte enables. -/
structure CpRead where
  addr : Nat
  be   : Nat := 15
  deriving DecidableEq, Repr

/-- What a cold start, or an exit from P3, finds outside the complex (15_startup_reset_power.md R536). -/
structure StartEnv where
  fuses : List FuseAns := []                 -- the answers for words 0 to 3; one not given is not in time
  dies  : List DieFound := []
  cfgA  : Option (List Byte) := none
  cfgB  : Option (List Byte) := none
  slotA : Option (List Byte) := none
  slotB : Option (List Byte) := none
  fwRuns : Bool := true                      -- the firmware on trial reports running within 1 s (R511)
  signs : List (Nat × Word) := []            -- published self-test signatures (R554)
  ephA  : Option (List Byte) := none
  ephB  : Option (List Byte) := none
  ephAt : Nat × Nat := (0, 0)                -- page-sets programmed in the block of each Ephemeris copy (07_phy_calibration.md R295)
  sets  : List TrainRes := []
  drift : List (Nat × List Byte) := []       -- by group, the deskews that its verify corrects (07_phy_calibration.md R282)
  fvFails : List Nat := []                   -- dies whose FERVON kind does not exit with Success (R276)
  segs  : List SegRead := []
  pages : List (List Byte) := []             -- journal page-sets, newest checkpoint first (10_stripes.md R404)
  jAt   : List (Nat × Bool × Nat) := []      -- block in use of each journal die, and page-sets programmed there (10_stripes.md R404)
  probes : List Probe := []
  reads : List SysRead := []                 -- the start's other reads of flash (09_seeing.md R354)
  initFails : List Nat := []                 -- groups whose GRP_INIT or long ZQ calibration of step 2 failed (R537)
  cfgAt : Nat × Nat := (0, 0)                -- page-sets programmed in the block of each copy of the configuration record
  seeA  : Option (List Byte) := none
  seeB  : Option (List Byte) := none
  deriving DecidableEq, Repr

/-- What the pins and the PHY bring at the end of a bus cycle (06_microcode.md R241). -/
structure CycIn where
  data  : List Byte := []                    -- DOUT, STAT (two values) and FIN bytes
  dqs   : Bool := true                       -- a DQS edge was seen (07_phy_calibration.md R283)
  eyes  : List Nat := []                     -- EYEQ of the eight bits as the monitor now reports it (R285)
  set   : List Byte := []                    -- what a calibration step found, laid out as a rate set (R292)
  deriving DecidableEq, Repr

/-- What an UPDATE meets (14_dome_nightlog.md R510). -/
structure UpdEnv where
  same  : Bool := true                       -- the read-back equals the reservation
  reads : List SysRead := []                 -- the reads of the read-back
  fuses : List FuseAns := []                 -- how a new try of the fuses is answered (R515)
  deriving DecidableEq, Repr

/-- What a restart of Dome meets (14_dome_nightlog.md R492, R511). -/
structure RestartEnv where
  runs  : Bool := true                       -- firmware on trial reports running within 1 s
  reads : List SysRead := []                 -- the reads of the slot, where the firmware is read from it again
  deriving DecidableEq, Repr

/-- An operand that says nothing: what the command needs to know the state holds. -/
inductive Told where
  | held
  deriving DecidableEq, Repr

end Machine

open Machine in
/-- The commands, in the order of the opcode table. -/
inductive Instr where
  -- pins, resets, clocks and power failure
  | vaonRise | porstAssert | porstRelease
  | wrstFall (env : WarmEnv) | wrstRelease
  | pfailFall | pfailRecovery | finalCheckpoint (bad : Told) | powerFailEnd
  | clkLoss (c : Clock) | mrefReturn
  -- Weron ports and control port
  | requestCredit (port : Nat) | writeCredit (port : Nat)
  | responseBeat (port : Nat) (kind : Bool) (tag stat : Nat) (data : BitVec 1024) (last : Bool)
  | hostRequestTmo (port tag : Nat) | drained (port : Nat) | hpDown (port : Nat)
  | controlPortWrite (agent : Agent) (addr be : Nat) (val : Word)
  | fuseAck (data : Word) (err : Bool) | fuseTmo
  | i3cWrite (words : I3cMsg) | i3cRead
  -- rings and notices
  | enable (agent : Agent) (ring : Nat) | shutdown (agent : Agent) (ring : Nat)
  | ringFreset (agent : Agent) (ring : Nat) | ringFresetDone (ring : Nat) | resume (agent : Agent) (ring : Nat)
  | ringConfigWrite (agent : Agent) (ring reg : Nat) (val : Word)
  | dbTail (agent : Agent) (ring : Nat) (val : Word) | dbHead (agent : Agent) (ring : Nat) (val : Word)
  | entryFetch (ring : Nat) | entryFetchDone (ring : Nat)
  | hold (ring slot : Nat) | release (ring : Nat)
  | completionWrite (ring idx : Nat) | writeOrdResponse (ring idx : Nat) | noticeWriteResponse (ring idx : Nat)
  | noticeEnable (agent : Agent) (grp : Nat) (val : Word) | noticeHeadWrite (agent : Agent) (grp : Nat) (val : Word)
  -- opcodes, at their entry's turn for dispatch
  | read (ring : Nat) | program (ring : Nat) | erase (ring : Nat) | copy (ring : Nat) | readRaw (ring : Nat)
  | programRaw (ring : Nat) | status (ring : Nat) | featureSet (ring : Nat) | featureGet (ring : Nat)
  | resetDie (ring : Nat) | stripeOpen (ring : Nat) | stripeClose (ring : Nat)
  | rebuild (ring : Nat) (map : Told) | call (ring : Nat) | nop (ring : Nat) | fence (ring : Nat)
  | scan (ring : Nat) | fill (ring : Nat)
  -- reservations and the data mover
  | reservationGrant (cls : Nat) (lines : List Nat)
  | dxTransferStart (eng : Nat) | transferDone (eng : Nat) | disable (eng : Nat)
  -- channel engines
  | entryPlace (ring idx : Nat) | workItemStart (ch ctx : Nat)
  | markSuspect (die : Nat) | markDead (die : Nat) | clearDead (die : Nat)
  | dieRecovery (die : Nat) (first second : Option Byte)
  | pollDue (ch ctx : Nat) | rbRise (ch : Nat) | busGrant (ch : Nat) | launchPrerequest (ch ctx : Nat)
  | freeze (ch : Nat) (on : Bool) | chStarve (ch ctx : Nat) | waitmaxClr (ch : Nat)
  | suspension (ch ctx : Nat) | operationResume (ch ctx : Nat) | readAheadExpiry (ch ctx : Nat)
  | acquire (agent : Agent) (ch ctx ring : Nat) | lockRelease (agent : Agent) (ch ctx ring : Nat)
  | lockBroken (ch ctx : Nat) | channelReset (ch : Nat)
  -- microcode
  | seq (ch ctx : Nat) | jmp (ch ctx : Nat) | br (ch ctx : Nat) | microCall (ch ctx : Nat) | ret (ch ctx : Nat)
  | wait (ch ctx : Nat) | waitSatisfied (ch ctx : Nat) | waitTimeout (ch ctx : Nat) | disp (ch ctx : Nat)
  | exit (ch ctx : Nat) | busCycleDone (ch ctx : Nat) (inp : CycIn)
  | groupReloadDone (grp : Nat) | controlStoreScrub (grp : Nat) (upsets : List (Nat × Microword))
  | poisonRewrite (grp addr : Nat) | idata0Read | groupIdle (grp : Nat)
  -- flash PHY
  | fervonEntry (grp : Nat) (fails : FvRes) | recalibrationDone (grp : Nat) (ok : PhyRes)
  | gradualApplication (grp : Nat) (centre : List Byte) (loopFail : BitVec 4)
  | shortZq (grp : Nat) (pu pd : ZqRes) | busIdleBoundary (grp : Nat) (ok : PhyRes)
  | thermalSample (grp : Nat) (temp : Int) | thermalReturn (grp : Nat)
  | frate (grp rate : Nat) | dfeForce (grp : Nat) (val : Word) | retrain (grp : Nat) (sets : List TrainRes)
  | ephemerisWrite (okA okB : Told)
  -- codec
  | encode (grp : Nat) | encodeWriteBack (grp : Nat) (lane : LaneEnd) | hardDecode (grp : Nat) | softDecode (grp : Nat)
  | decodeResult (grp : Nat) (soft : Bool) (lane : LaneEnd) | slotSolve (ring idx slot : Nat)
  | laneTmo (grp kind lane : Nat) | restore (grp : Nat) | restoreTestDone (grp : Nat) (pass : Bool)
  -- Seeing
  | learningUpdate | sgTdataWrite (val : Word) | sgTdataRead | save | savePeriod | saveEnd (okFirst okSecond : Told)
  | clrSpec | clrMoves
  -- stripes and the journal
  | memberPass (ring idx : Nat) | rebuildWalkStep (ring idx : Nat) (env : Told)
  | checkpointPeriod | chkpt | checkpointCopyDone (jdie : Nat) (ok : Told)
  -- Meridian and Transit
  | load | loadSync | msyncEdge | missedEdges | msyncOutPulse | slotBoundary | timedLaunch (ch ctx : Nat) | clrLate
  | trPdataWrite (val : Word) | trPdataRead
  -- stage buffer
  | leakDrain | clrBkt | clrTrk | scrubNow | clrCnt | scrubPass | scrubLate | retire (bank line : Nat)
  | apertureWrite (a : Nat) (val : Word) | apertureRead (a : Nat)
  -- interrupt controller
  | coalescingTimer (src : Nat) | enSet (ww : Nat) (val : Word) | enClr (ww : Nat) (val : Word)
  | pSet (ww : Nat) (val : Word) | pClr (ww : Nat) (val : Word) | claim (t : Nat) | eoi (t src : Nat) | stkRst (t : Nat)
  | tcfgWrite (t : Nat) (val : Word) | messageResponse (t : Nat)
  -- Dome
  | go | ident | sensor | doseGet | doseAdd | update (env : UpdEnv) | restart (fwRuns : RestartEnv) | rbkCommit
  | catalog (failed : Told) | domeWatchdog (fwRuns : RestartEnv) | voltageSample (mon : Nat) (mv : Int)
  | packageTemp (pkg : Nat) (temp : Option Int) | doseIntegration | trialBootTimeout (env : StartEnv)
  | hostPkg (pkg : Told) (env : StartEnv)
  -- Night Log
  | nightLogRecord | hctrlGo | rec0Read | rec7Read | persist | persistPeriod | alertPersist
  | segmentCopyDone (ok : Told) (status : Told)
  -- start-up, resets and power states
  | start (env : StartEnv) | bist | selfTestEnd (env : StartEnv)
  | cfgwr (rec : Told) (okFirst okSecond : Told) | warmReset (val : Word) (env : WarmEnv) | glLockClose
  | p1Request (autowake : Bool) | p2Request (autowake : Bool) | p3Request (autowake : Bool)
  | p0Request (autowake : Bool) (env : StartEnv) | quiescence
  -- reads with an effect of their own, and the rest
  | loRegisterRead (off : CpRead) | clockReturn (c : Clock) | unknownOpcode (ring : Nat)
  deriving DecidableEq, Repr

end Sys2Proof
end

