-- ==== Sys2Proof/Decode.lean ====
section
/-! DEFINITION. Words of the opcode table. No row of the table gives a command any bits, so no word spells one. -/

namespace Sys2Proof

/-- The command a word of the table spells: the table gives none a word. -/
def decodeTableWord (_nbits _w : Nat) : Option Instr := none

end Sys2Proof
end

