-- ==== Sys2Proof/Config.lean ====
section
/-! DEFINITION. Free values: what the manual leaves open. None has a body that a proof can see, so a
statement about one holds for every value (log entry 2). -/

namespace Sys2Proof.Config

/-- A fresh choice among several things the manual treats alike: a free tag of a port (02_boundary.md R48). -/
opaque pick : Nat → Nat

/-- A fresh 32-bit value where the manual calls a value undefined (04_commands.md R188). -/
opaque freeWord : Nat → Word

/-- The frame a hard lane's decoder proposes, and the iterations it ran, from the profile's parity block
count, HMAX and the frame as read: 08_codec.md R311 gives no algorithm. -/
opaque hardDecode : Nat → Nat → List Byte → List Byte × Nat

/-- The frame a soft lane's decoder proposes, and the iterations it ran, from the profile's parity block count, SMAX, the sign and
the weak mark of every bit of the frame, and the strong and the weak magnitude (08_codec.md R311, R318). -/
opaque softDecode : Nat → Nat → List Byte → List Byte → Nat → Nat → List Byte × Nat

/-- The Arrhenius factor of 14_dome_nightlog.md R501 that Dome computes, in units of 2^-64, from EA (0.01 eV) and the temperature in
0.25 degrees Celsius: the manual fixes it only to within 0.05 percent of its expression. -/
opaque arrhenius : Nat → Int → Nat

/-- 14_dome_nightlog.md R508 check 3: the two key digests in Dome's ROM. -/
opaque keyDigest : Bool → List Byte

/-- 15_startup_reset_power.md R553: the MISR signature that a self-test unit leaves, by run. -/
opaque misr : Nat → Nat → Word

/-- 14_dome_nightlog.md R561: the event number of a record outside the table of that chapter, by the model's number of the record
kind; the catalogue of the running package gives it. Where another code of the block has that number, the next that none has. -/
opaque eventNumber : Nat → BitVec 10

/-- 14_dome_nightlog.md R561: the severity (0 to 4) of such a record. -/
opaque eventSeverity : Nat → Fin 5

/-- 14_dome_nightlog.md R561: the FMT of such a record. -/
opaque eventFormat : Nat → Byte

end Sys2Proof.Config
end

