-- ==== Sys2Proof/Machine/Blocks.lean ====
section
/-! DEFINITION. The state of each block of the complex, as plain data. Every field's default is its value after
cold reset (16_register_index.md and the home chapters; log entry 4 where the manual gives none). -/

namespace Sys2Proof.Machine

/-- A table indexed by instance number: ascending pairs, an absent index holding the default its reader names. -/
abbrev Tab (α : Type) := List (Nat × α)

/-- A byte-addressed memory: strictly rising addresses, no entry equal to zero (log entry 5). -/
abbrev Mem := List Host.Cell

/-! ## Control port, global registers, pins (02_boundary.md, 15_startup_reset_power.md) -/

/-- 15_startup_reset_power.md R534: GL_STAT.PHASE. -/
inductive Phase where
  | waitStart | bist | boot | train | restore | ready | warm
  deriving DecidableEq, Repr

/-- 02_boundary.md R75, R77: the power-fail sequence is not running, runs, or has ended with launches still stopped; or
launches are held because PFAIL_N was low when the complex left cold reset or P3. -/
inductive PfPhase where
  | none | running | stopped | held
  deriving DecidableEq, Repr

/-- 15_startup_reset_power.md R542: where a warm start has come to. -/
inductive WarmAt where
  | draining      -- steps 1 to 5: waiting for every port
  | waitRelease   -- step 7: WRST_N still low
  deriving DecidableEq, Repr

/-! ## Requests to host memory (02_boundary.md R41–R60) -/

/-- HPn_AOP. -/
inductive ReqOp where
  | read | write | writeOrd
  deriving DecidableEq, Repr

/-- Why a request was made, so that its response finds its way back. -/
inductive Purpose where
  | fetch (ring : Nat)                       -- ring entries (03_queues.md R116)
  | cplBody (eid : Nat)                      -- bytes 0x02–0x1F (R133)
  | cplOrd (eid : Nat)                       -- bytes 0x00–0x01 (R133)
  | notice (eid : Nat)                       -- the notice of an entry (R142)
  | message (t : Nat)                        -- an interrupt message (13_interrupts.md R485)
  | xfer (ee : Nat) (piece : Nat)            -- a request of a data-mover engine (04_commands.md R184)
  | own (cfg : Bool) (no : Nat)              -- an access of Dome's, or of a configuration write (14_dome_nightlog.md R495, R510)
  deriving DecidableEq, Repr

/-- A request on a port: READ of `beats` lines, or a write of `bytes` (the set strobes of R47). -/
structure Req where
  op    : ReqOp
  addr  : Nat
  beats : Nat
  bytes : Mem := []
  why   : Purpose
  deriving DecidableEq, Repr

/-- An access to host memory that Dome makes, or a configuration write: its requests are made one after another. -/
structure OwnAcc where
  port  : Nat
  no    : Nat
  todo  : List Req := []                     -- requests still to be made
  data  : Mem := []                          -- the lines read
  ended : Option (Option Cause) := none      -- it has ended, with the cause of its failure
  deriving DecidableEq, Repr

/-- Control-port and global state (15_startup_reset_power.md R557; pins of 02_boundary.md). -/
structure Gl where
  vaon    : Bool := true
  porstN  : Bool := true
  wrstN   : Bool := true
  pfailN  : Bool := true
  lost    : List Clock := []
  phase   : Phase := .waitStart
  pstate  : Nat := 0
  req     : Nat := 0
  autowake : Bool := true
  waitQuiet : Bool := false
  pf      : PfPhase := .none
  lockClosed : Bool := false
  cperr   : Word := 0
  cfgSrc  : Nat := 0
  wrBusy  : Bool := false
  wrFail  : Bool := false
  cfgSeq  : Nat := 0
  island  : Option (List Byte) := none      -- the island configuration copy (R539)
  bistf   : Bool := false
  cfgdef  : Bool := false
  warms   : Nat := 0
  warm    : Option WarmAt := none
  warmEnv : WarmEnv := {}
  warmOwed : Bool := false                  -- a warm reset waits for the power-fail sequence or READY (R77, R555)
  warmByReg : Bool := false                 -- that reset was requested by GL_RESET (R77)
  fresh   : Bool := true                    -- the island has lost its contents since the last start
  cfgA    : Option Nat := none              -- SEQ of flash copy A of the configuration record, where it is valid (R541)
  cfgB    : Option Nat := none
  startOwed : Option StartEnv := none       -- a start held until launches resume, with what it finds (R555)
  p3exit  : Bool := false                   -- the start in progress is an exit from P3 (R548)
  thermLow : Bool := false                  -- THERM_N pulled low (R93)
  cfgAcc  : Option OwnAcc := none           -- the read of a new configuration record (R541)
  cfgNew  : List Byte := []                 -- the record being written
  cfgAtA  : Nat := 0                        -- page-sets programmed in each copy's block (R541)
  cfgAtB  : Nat := 0
  msyncOut : Nat := 0                       -- MREF periods for which MSYNC_OUT stays high (R92, R418)
  deriving DecidableEq, Repr

/-- What a control-port read last returned, and the captures of R14. -/
structure Cp where
  rdata : Word := 0
  err   : Bool := false
  loCap : Tab Word := []                    -- the captured high word, by the offset of its _LO register
  deriving DecidableEq, Repr

/-! ## Weron host data ports (02_boundary.md R41–R60) -/

/-- A request issued and not yet fully answered. -/
structure Out where
  tag   : Nat
  req   : Req
  got   : Nat := 0
  data  : Mem := []
  bad   : Option Cause := none
  deriving DecidableEq, Repr

/-- A tag that waits for the rest of a response which will be discarded (R51, R58). -/
structure Retired where
  tag  : Nat
  op   : ReqOp
  deriving DecidableEq, Repr

/-- A write-data beat of R41: its tag, its line, the bytes whose strobes are set, and WLAST. -/
structure Beat where
  tag   : Nat
  addr  : Nat
  bytes : Mem := []
  last  : Bool := false
  deriving DecidableEq, Repr

/-- One Weron port. -/
structure Port where
  reqCr   : Nat := 0
  wrCr    : Nat := 0
  waiting : List Req := []
  out     : List Out := []
  retired : List Retired := []
  owed    : List Beat := []                  -- beats of the writes issued and not yet sent, in the order of R46
  wire    : List Beat := []                  -- the beats sent when credits last allowed any, in order
  drain   : Bool := false
  down    : Bool := false
  deriving DecidableEq, Repr

/-! ## Rings, notices and entries (03_queues.md) -/

/-- 03_queues.md R106: QEnnn_STATE.STATE. -/
inductive RingState where
  | disabled | active | stopping | stoppedErr | resetting
  deriving DecidableEq, Repr

/-- A ring of 03_queues.md R97. Indices are k+1 bits wide. -/
structure Ring where
  state : RingState := .disabled
  head  : Nat := 0
  tail  : Nat := 0
  fetch : Nat := 0
  cpt   : Nat := 0
  err   : Word := 0
  errIdx : Nat := 0
  cache : List Nat := []                     -- indices fetched and not yet dispatched, in ring order
  live  : List Nat := []                     -- indices fetched and not yet completed
  orded : List Nat := []                     -- indices at or after CPT whose WRITE_ORD has been issued
  hold  : Option Nat := none                 -- index at which QE_INV holds dispatch (R120)
  reqAt : Option (Nat × Nat) := none         -- fetch in flight: first index and number of entries
  keep  : Nat := 0                           -- of those, how many a HOLD has left to be used (R117)
  ans   : Option (Option Cause × Mem) := none -- the fetch's answer, not yet taken
  fence : Option Nat := none                 -- a FENCE dispatched and not yet answered (R176)
  deriving DecidableEq, Repr

/-- A notice group of 03_queues.md R140. -/
structure Ntc where
  en   : Bool := false
  head : Nat := 0
  tail : Nat := 0
  ovf  : Bool := false
  drops : Nat := 0
  deriving DecidableEq, Repr

/-- What has become of one codeword of an entry. -/
inductive CwOut where
  | pending                                  -- not yet decoded
  | good (corr : Nat)                        -- decoded and checked
  | warn (corr : Nat)                        -- decoded above the warning line (08_codec.md)
  | erased
  | failDecode | failRebuild | failMeta      -- UNCORRECTABLE, by detail (03_queues.md R139)
  | lost                                     -- REBUILD: more erasures than parity
  deriving DecidableEq, Repr

/-- The stage an entry has reached (01_architecture.md R31, R36). -/
inductive Stage where
  | cached                                   -- fetched, not yet dispatched
  | waitRes                                  -- waits for its reservation
  | xferIn                                   -- data, or a member table, moves in from host memory
  | pass                                     -- waits for the stripe accumulator (PROGRAM, COPY)
  | encode                                   -- codewords with the encoders
  | toPlace                                  -- ready to go to its die context
  | placed                                   -- with its die context
  | decode                                   -- array work done, codewords with the codec or the ladder
  | rebuild                                  -- reconstruction from the stripe
  | xferOut                                  -- data moves out to host memory
  | xferMid                                  -- an internal move of COPY
  | stripeWork                               -- with the stripe engine (STRIPE_CLOSE, REBUILD)
  | fenced                                   -- a FENCE waiting for earlier entries
  | final                                    -- outcome known; completion to be written
  | written                                  -- WRITE_ORD issued
  | noticed                                  -- notice write issued
  deriving DecidableEq, Repr

/-- An entry the complex has fetched and not yet completed. -/
structure Ent where
  raw    : BitVec 512 := 0
  stage  : Stage := .cached
  /-- COPY: the destination half has begun; STRIPE_CLOSE: it has taken the accumulator. -/
  dst    : Bool := false
  stripe : Option (Nat × Nat) := none        -- bound stripe and position
  bind   : List (Nat × Nat) := []            -- STRIPE_CLOSE: parity members still to program
  cws    : List CwOut := []
  status : Nat := 0
  detail : Nat := 0
  partF  : Bool := false
  admitted : Bool := false                   -- Transit has admitted its array operation
  cut    : Option Nat := none                -- ABORTED detail to report once its work ends (R122)
  step   : Nat := 0
  cwfail : Nat := 0
  corrMax : Nat := 0
  corrSum : Nat := 0
  margin : Word := 0
  rebuilt : Bool := false
  softUsed : Bool := false
  up     : Bool := false                     -- side of the latest mode 1 sense: upward (09_seeing.md R350)
  retried : Bool := false
  specUsed : Bool := false
  tdone  : Nat := 0
  result : List Byte := []                   -- bytes to move out that are no codeword (STATUS, FEATURE_GET)
  ordAns : Option (Option Cause) := none     -- the WRITE_ORD's answer, not yet taken
  bodyBad : Option Cause := none             -- the failure of the WRITE of bytes 0x02–0x1F
  ntcAns : Option (Option Cause) := none     -- the notice write's answer, not yet taken
  base   : Option (List Int) := none         -- thresholds formed at the first GATE THR (09_seeing.md R345)
  bin    : Nat := 0                          -- age bin of that base (R343)
  used   : Tab (List Int) := []              -- offsets each codeword was last sensed at
  steps  : Tab Nat := []                     -- ladder step each codeword has reached
  synd   : Tab (Nat × Nat × List Int) := []  -- per codeword: least SYND0 of a hard step, that step, its offsets (R350)
  chain  : Tab (List Byte) := []             -- lines of scatter-gather descriptors read for it, by address (04_commands.md R182)
  moved  : Tab Nat := []                     -- bytes already moved to host memory, keyed as a transfer's `acked` (R185)
  redo   : List Nat := []                    -- codewords to sense again at the thresholds they had (R328, R452)
  uerr   : Tab Nat := []                     -- uncorrectable stage-buffer failures of each codeword (12_stage_buffer.md R452)
  stats  : Tab (List Byte) := []             -- last statistics record of each codeword, for SCAN (08_codec.md R321)
  marg   : Tab (Nat × Nat × Nat × Int) := [] -- per delivered codeword: CORR, WEAK, worst level, offset there (R359)
  sent   : Nat := 0                          -- codewords of the entry still with the codec
  arr    : Bool := false                     -- its array work, or a re-read, has not ended
  hard   : Nat := 0                          -- last hard ladder step taken
  seen   : List Nat := []                    -- codewords whose frames the first sense has delivered
  dieOut : Option (Nat × Nat) := none        -- STATUS and DETAIL of a die that failed a stripe member's sense (10_stripes.md R386)
  rbProf : Nat := 0                          -- REBUILD: the profile of the map entry read at dispatch (10_stripes.md R392)
  slots  : List Nat := []                    -- internal reads: the slot of each codeword (10_stripes.md R369)
  serves : Nat := 0                          -- member reads: the entry they serve
  deriving DecidableEq, Repr

/-- Queue-engine state beside the rings. -/
structure Qe where
  rings : Tab Ring := []
  ntcs  : Tab Ntc := []
  rot   : Nat := 0                           -- the ring at which the rotation looks first (R116)
  invBusy : Bool := false
  invRes : Nat := 0                          -- QE_INVSTAT.RESULT
  deriving DecidableEq, Repr

/-! ## Data mover (04_commands.md R184–R193) -/

/-- For whom a transfer runs. -/
inductive XOwner where
  | entryIn (eid : Nat)                      -- data, metadata or member table from host memory
  | entryOut (eid : Nat)                     -- results to host memory
  | copyMove (eid : Nat)                     -- COPY's re-layout within the stage buffer
  | fill (eid : Nat)
  | stMap (eid : Nat)                        -- a stripe map entry, for the stripe engine (10_stripes.md R384)
  | stTable (eid : Nat)                      -- a member table
  | stRec (eid : Nat)                        -- a REBUILD's record (10_stripes.md R394)
  deriving DecidableEq, Repr

/-- The host side of one part of a transfer. -/
inductive HostSide where
  | flat (addr : Nat)
  | chain (head : Nat)
  deriving DecidableEq, Repr

/-- A run of a transfer's stream: where it lies in the reservation, its length, whether its bytes are moved (R185),
and the codeword it belongs to. -/
structure Run where
  off  : Nat
  len  : Nat
  move : Bool := true
  cw   : Nat := 0
  deriving DecidableEq, Repr

/-- One part of a transfer: the data, or the metadata. -/
structure Part where
  isMeta : Bool := false
  side   : HostSide
  runs   : List Run
  deriving DecidableEq, Repr

/-- A request of a transfer that has been made: the part of the stream it carries, or a chain read. -/
structure Piece where
  id     : Nat
  addr   : Nat                               -- host byte address of its first byte
  runs   : List Run                          -- stream runs it carries, in order; none for a chain read
  desc   : Bool := false                     -- a scatter-gather read
  isMeta : Bool := false
  deriving DecidableEq, Repr

/-- Where a chain walk stands. -/
structure Walk where
  next  : Nat := 0                           -- address of the next descriptor
  hops  : Nat := 0
  limit : Nat := 256
  seg   : Nat × Nat := (0, 0)                -- address and bytes left of the segment in use
  asked : Bool := false                      -- a descriptor read is outstanding
  last  : Bool := false                      -- the descriptor in use had END
  begun : Bool := false                      -- the walk of the part in hand has begun
  deriving DecidableEq, Repr

/-- Why a transfer stopped: completion status and detail (R181, R192), or a disabled engine (R188), or a line (R452). -/
structure XStop where
  status : Nat
  detail : Nat
  deriving DecidableEq, Repr

/-- A transfer, waiting for an engine or held by one. -/
structure Xfer where
  owner  : XOwner
  port   : Nat
  ring   : Nat
  opc    : Nat
  toHost : Bool
  parts  : List Part := []
  pat    : Option Word := none               -- FILL's pattern (R177)
  inl    : List Byte := []                   -- bytes of the stripe engine's own that go to host memory
  walk   : Walk := {}
  pieces : List Piece := []
  bad    : List Nat := []                    -- codewords whose bytes were uncorrectable when read (R452)
  acked  : Tab Nat := []                     -- bytes answered OK: by twice the codeword, one more for metadata
  lines  : Tab (List Byte) := []             -- lines of descriptors read, by address (R182); what a read for the stripe engine brings
  left   : Nat := 0                          -- bytes not yet moved (RESID)
  stop   : Option XStop := none
  deriving DecidableEq, Repr

/-- An engine of the data mover. -/
structure Engine where
  cur   : Option Xfer := none
  resid : Nat := 0                           -- a free value after DISABLE, until a transfer begins (R188)
  deriving DecidableEq, Repr

/-- The data mover. -/
structure Dx where
  eng   : Tab Engine := []
  queue : List Xfer := []                    -- transfers ready, oldest first
  ids   : Nat := 0                           -- the next piece's number
  deriving DecidableEq, Repr

/-! ## Interrupt controller (13_interrupts.md) -/

/-- A target: its stack (top first) of source and pushed priority, and its fault record. -/
structure Target where
  stack  : List (Nat × Nat) := []
  frozen : Bool := false
  stkf   : Bool := false
  msgf   : Bool := false
  badSrc : Nat := 0
  mcause : Nat := 0
  faults : Nat := 0
  req    : Bool := false                     -- the request condition as last judged (R485)
  msgOut : Bool := false                     -- a message is outstanding (R486)
  msgOwed : Bool := false
  msgAns : Option (Option Cause) := none     -- the message's answer, not yet taken
  deriving DecidableEq, Repr

/-- The interrupt controller: enabled and pending sources, coalescing counts and timers. -/
structure Ic where
  en    : List Nat := []
  pend  : List Nat := []
  held  : Tab Nat := []
  timer : List Nat := []
  tgt   : Tab Target := []
  deriving DecidableEq, Repr

/-! ## Night Log (14_dome_nightlog.md R516–R528) -/

/-- A record waiting in the arrival queue (R518): time, CODE, severity, FMT and the three parameters. -/
structure Arrival where
  time : Nat
  code : BitVec 16
  sev  : Nat
  fmt  : Byte
  p0   : Word
  p1   : Word
  p2   : Word
  deriving DecidableEq, Repr

/-- A record held (R516), with the marks of its SEVF and of persistence. -/
structure NlRec where
  seq  : Nat
  arr  : Arrival
  carried : Bool := false
  restored : Bool := false
  rep  : Nat := 0
  persisted : Bool := false
  closed : Bool := false                     -- taken by a segment (R524)
  deriving DecidableEq, Repr

/-- A segment being persisted (R524–R526). -/
structure NlSeg where
  sseq : Nat
  seqs : List Nat
  copyB : Bool := false
  page  : Nat := 0                           -- its page-set
  image : List Byte := []                    -- header and records of copy A; zeros follow (R525)
  deriving DecidableEq, Repr

/-- The Night Log. -/
structure Nl where
  queue : List Arrival := []
  recs  : List NlRec := []                   -- ascending SEQ
  next  : Nat := 0
  cap   : List Byte := []                    -- the captured record
  capSeq : Option Nat := none
  cres  : Nat := 0                           -- NL_CSTAT.RESULT
  lostn : Nat := 0
  drops : Nat := 0
  dropsNew : Nat := 0                        -- dropped since the last LOG_DROPPED record
  dropSev : Nat := 0
  pfail : Bool := false
  seg   : Option NlSeg := none
  sseq  : Nat := 0
  carry : List NlRec := []                   -- ALERT records saved from an erased block, for the next segment (R527)
  alertDue : Bool := false
  due   : Bool := false                      -- a persistence asked for while another runs
  blk   : Nat := 0                           -- block in use and its next page-set (R527)
  page  : Nat := 0
  fresh : Bool × Bool := (false, false)      -- on copies A and B, the block is still to be erased and given its legend
  alerts : Tab (List NlRec) := []            -- ALERT records each block holds on flash
  island : List NlRec := []                  -- the island's copies, waiting to be restored (R523)
  kept  : Option (Nat × Nat) := none         -- NL_FIRST and UNPERS as the island holds them, until the log is restored (R533)
  deriving DecidableEq, Repr

/-! ## Stage buffer (12_stage_buffer.md) -/

/-- For whom lines are reserved (R448). -/
inductive ROwner where
  | entry (eid : Nat)
  | spec (die : Nat)                         -- a read-ahead
  | member (id : Nat)                        -- a reconstruction member read
  | sys (k : Nat)                            -- a journal or Night Log write
  | dome                                     -- the package fetch of an UPDATE (04_commands.md R190)
  deriving DecidableEq, Repr

/-- A reservation: its lines in the order of its own byte space. -/
structure Resv where
  owner : ROwner
  cls   : Nat
  lines : List Nat
  deriving DecidableEq, Repr

/-- A request waiting in its class. -/
structure RReq where
  owner : ROwner
  cls   : Nat
  n     : Nat
  deriving DecidableEq, Repr

/-- An entry of the repeat tracker (R457). -/
structure Track where
  line   : Nat
  count  : Nat := 0
  sticky : Bool := false
  ue     : Bool := false
  hit    : Bool := false                     -- a correction has been counted in this pass
  rewritten : Bool := false                  -- written since its UE was set (R453)
  age    : Nat := 0
  deriving DecidableEq, Repr

/-- The stage buffer, addressed by data-space byte and line. -/
structure Sb where
  data    : Mem := []
  chk     : Mem := []
  written : List Nat := []                   -- lines written since cold reset
  allWritten : Bool := false                 -- the self-test's zero-fill reached every line (R447)
  spare   : Tab Nat := []                    -- data-space line to its bank's spare index
  spareUse : Tab Nat := []                   -- spares used, by bank
  fenced  : List Nat := []
  resv    : List Resv := []
  wait    : List RReq := []
  failed  : List Nat := []                   -- classes whose oldest request failed its test and waits for a release (R450)
  count   : Nat := 0
  alarm   : Bool := false
  corr    : Nat := 0
  ue      : Nat := 0
  ueAddr  : Word := 0
  stickyAddr : Word := 0
  scrub   : Bool := false                    -- a pass is running
  scrubAt : Nat := 0                         -- Meridian time of its start
  scrubPos : Nat := 0
  passes  : Nat := 0
  late    : Bool := false
  trk     : Tab Track := []
  trkFull : Bool := false
  trkAge  : Nat := 0
  retRes  : Nat := 0
  deriving DecidableEq, Repr

/-! ## Channels, dies and frames (05_channel_engine.md, 06_microcode.md) -/

/-- An array operation a die may be busy with (05_channel_engine.md R201). -/
inductive Op where
  | sense | program | erase | reset
  deriving DecidableEq, Repr

/-- What the operation of an orphan was: a program or erase, whose failure is recorded (03_queues.md R124), a RESET (FFh), which
leaves the die in SDR timing mode 0 (02_boundary.md R90), or another. -/
inductive Orphaned where
  | write | fullReset | other
  deriving DecidableEq, Repr

/-- A work item of a die context. -/
inductive Item where
  | entry (eid : Nat)
  | group (eids : List Nat)                  -- a grouped multi-plane sense (R214)
  | recover                                  -- die recovery (R198)
  | restart (cause : Nat)                    -- 06_microcode.md R255
  | reread (eid : Nat) (cws : List Nat) (step : Nat) (soft : Nat) (offs : List Int)  -- a ladder sense (09_seeing.md R349, R350)
  | member (id : Nat)                        -- a reconstruction member read (10_stripes.md R387)
  | write (eid : Nat)                        -- a program or erase of the complex's own (R194)
  | spec                                     -- a read-ahead (R216)
  | suspend | resume                         -- R212
  | orphan (row : Nat) (what : Orphaned)     -- the operation of an entry that a function reset has ended (R124)
  | grpInit                                  -- the GRP_INIT kind of a thread (06_microcode.md R253, R261)
  | dieInit                                  -- the DIE_INIT kind after a live replacement (06_microcode.md R261)
  deriving DecidableEq, Repr

/-- A bus cycle in progress (06_microcode.md R241): bytes still to move, for DIN and DOUT. -/
structure Cyc where
  left  : Nat := 0
  deriving DecidableEq, Repr

/-- A frame of a microcode thread (06_microcode.md R234), with the conditions of R240 that belong to it. -/
structure Frame where
  active : Bool := false
  pc     : Nat := 0
  stack  : List Nat := []
  w      : Tab Word := []
  areg   : BitVec 40 := 0
  sptr   : BitVec 24 := 0
  z      : Bool := false
  n      : Bool := false
  c      : Bool := false
  status : Byte := 0
  feat   : Word := 0
  srdy   : Bool := false
  ssame  : Bool := false
  cyc    : Option Cyc := none
  cut    : Option (Nat × Nat) := none        -- bytes left of a DIN or DOUT cut by BURST_MAX, and the stack depth there (R247)
  regain : Bool := false                     -- its tenure was cut: it goes on at its next grant (R247; 07_phy_calibration.md R284)
  waiting : Bool := false                    -- the word at pc is a WAIT whose actions have been taken
  waitAt : Nat := 0                          -- Meridian time at which it was reached (R248)
  launchAt : Option Nat := none              -- held at a GATE LAUNCH word until this Meridian time (R432)
  admission : Bool := false
  thr    : Bool := false
  offs   : List Int := []                    -- thresholds delivered (09_seeing.md R345)
  due    : Bool := false
  rbr    : Bool := false
  cmds   : Bool := false                     -- a command cycle has been issued since the last confirm (R255)
  readmit : Bool := false                    -- its admission was withdrawn: no grant before it is admitted again (R435)
  launched : Bool := false                   -- a GATE LAUNCH word has been issued in this work item (R426)
  conf   : Bool := false                     -- its confirm command is out and the PHASE word has not yet come (03_queues.md R124)
  ahead  : Bool := false                     -- it runs the SPEC kind (05_channel_engine.md R216)
  asks   : Bool := false                     -- it waits for Transit's answer on a read-ahead (R434; 05_channel_engine.md R216)
  waited : Bool := false                     -- it has reached a WAIT on DUE (R249)
  found  : Bool := false                     -- its die has been found ready: GATE PHASE 5 has been reached (05_channel_engine.md R196)
  shown  : Bool := false                     -- a STAT cycle since its Busy phase began gave a valid status byte showing ready (R196)
  deriving DecidableEq, Repr

/-- How a busy die's readiness is being judged (05_channel_engine.md R202). -/
structure Busy where
  op    : Op
  since : Nat := 0                           -- Meridian time of the confirm command
  spent : Nat := 0                           -- time already counted before a suspension
  poll  : Bool := false                      -- judged by polling until it shows ready
  next  : Nat := 0                           -- Meridian time at which its next poll falls due
  deriving DecidableEq, Repr

/-- A read-ahead (R216–R218). -/
structure Ahead where
  row    : Nat
  planes : Nat
  arg0   : Nat
  arg1   : Nat
  profile : Nat
  ring   : Nat := 0
  base   : Option (List Int) := none         -- thresholds formed at its GATE THR, and the age bin
  bin    : Nat := 0
  at_    : Option Nat := none                -- Meridian time of its confirm command (R218)
  out    : Bool := false                     -- its data-out has begun: no adoption (R217)
  cancelled : Bool := false
  deriving DecidableEq, Repr

/-- The die lock of a context (R220). -/
inductive Lock where
  | none
  | pending (ring : Nat)
  | held (ring : Nat)
  deriving DecidableEq, Repr

/-- A die context with its frame. Its index is the die index of 00_scope.md R9. -/
structure Die where
  state  : Nat := 0                          -- 0 NORMAL, 1 SUSPECT, 2 DEAD (R197)
  absent : Bool := false
  queue  : List Item := []                   -- items holding places, in queue order; the running one among them
  wait   : List Nat := []                    -- entries in the wait list
  ahead  : List Item := []                   -- internal items that take no place
  cur    : Option Item := none
  frame  : Frame := {}
  mark   : Option Frame := none              -- the frame at the first command cycle of its phase (07_phy_calibration.md R284)
  held   : Option (Item × Frame) := none     -- a suspended operation and its frame
  heldBusy : Option Busy := none
  aside  : Option (Item × Frame) := none     -- the other of a READ and its read-ahead, while one of them runs (R216)
  recAgain : Bool := false                   -- die recovery has failed once (R198)
  offers : Bool × Bool := (false, false)     -- the die offers program suspend, and erase suspend (R212)
  suspN  : Nat := 0                          -- suspensions of the operation in progress
  suspLeft : List Nat := []                  -- reads still to be carried out in this suspension
  suspInt : List Item := []                  -- internal reads still to be carried out in it (10_stripes.md R387)
  busy   : Option Busy := none
  lock   : Lock := .none
  lockAt : Nat := 0                          -- Meridian time at which it became HELD (R220)
  broken : Option Nat := none                -- owner of the last lock, where that was broken (R222, R223)
  spec   : Option Ahead := none
  cancel : Bool := false
  adopt  : Bool := false
  holdx  : Bool := false
  mode   : Nat := 0                          -- FMODE reported
  ident  : Nat := 0                          -- first four ID bytes (06_microcode.md R258)
  cap    : Option (Nat × Nat) := none        -- reported rate and Fervon capability (07_phy_calibration.md R274)
  pfErase : Bool := false                    -- its erase is suspended, or runs unobserved, for the power-fail sequence (10_stripes.md R403)
  deriving DecidableEq, Repr

/-- A bus request: the context, when it was made, and whether CH_STARVE has been raised for it. -/
structure BusReq where
  ctx   : Nat
  since : Nat
  starved : Bool := false
  deriving DecidableEq, Repr

/-- What the flash balls of a channel last did (02_boundary.md R82): a bus cycle of 06_microcode.md R241 by its CYC code, the
bytes it drives on DQ in order, and the read termination of its word. -/
structure Drive where
  cyc   : Nat := 0
  bytes : List Byte := []
  odt   : Nat := 0
  deriving DecidableEq, Repr

/-- A channel engine (05_channel_engine.md R204–R210). -/
structure Chan where
  freeze : Bool := false
  owner  : Option Nat := none                -- context that holds a tenure or a park
  tenure : Bool := false
  bytes  : Nat := 0                          -- data bytes moved in the tenure
  since  : Nat := 0                          -- Meridian time of the grant (R207)
  pend   : List BusReq := []
  wait   : Nat := 0
  waitCtx : Nat := 0
  ce     : List Nat := []                    -- targets whose CE_N is asserted
  held   : Bool := false                     -- grants held by the PHY for this channel (07_phy_calibration.md R284)
  drive  : Drive := {}
  resetDue : Bool := false                   -- a function reset held until the group restarts (06_microcode.md R256)
  deriving DecidableEq, Repr

/-- A Decdon image (06_microcode.md R258). -/
structure Img where
  iver   : Word
  reinit : Bool := false
  entries : List Nat                         -- start addresses by kind, 32 of them
  feats  : BitVec 256 := 0                   -- reserved feature addresses
  dieMatch : Nat := 0                        -- ID bytes of the dies served
  dieMask : Nat := 0                         -- bits of them that are compared
  words  : List Microword := []
  exports : List (Nat × Nat) := []           -- routine number, start address
  deriving DecidableEq, Repr

/-- A sequencer cluster (06_microcode.md R233, R265). -/
structure Cluster where
  store  : Tab Microword := []
  poison : List Nat := []
  img    : Option Img := none
  next   : Option Img := none                -- the image a live replacement will load (R261)
  halted : Bool := false
  quiesce : Bool := false
  load   : Bool := false
  sdepth : Nat := 0
  mchk   : Word := 0
  mchks  : Nat := 0
  repairs : Nat := 0
  deriving DecidableEq, Repr

/-- The sequencers. -/
structure Mc where
  cl   : Tab Cluster := []
  cap  : Microword := 0                      -- capture of MC_IDATA0 (R264)
  halts : List Nat := []                     -- groups halted and not yet reloaded, in order of detection (R256)
  todo : List (Nat × Img) := []              -- replacements that an UPDATE has still to make, one group at a time (14_dome_nightlog.md R510)
  deriving DecidableEq, Repr

/-! ## Flash PHY (07_phy_calibration.md) -/

/-- The PHY of a group. -/
structure Phy where
  mode   : Nat := 0
  rate   : Nat := 0
  therm  : Nat := 0
  hold   : Bool := false
  hot    : Bool := false
  fvfail : Bool := false
  fail   : BitVec 4 := 0
  eyewarn : BitVec 4 := 0
  trained : BitVec 4 := 0
  sets   : Tab (List Byte) := []             -- the Ephemeris cache: rate sets of 272 bytes (R292)
  forceTaps : Bool := false                  -- the forced taps are in force (R291)
  temp   : Int := 0
  recals : Nat := 0
  ratechg : Nat := 0
  rdNow  : Tab Nat := []                     -- EYEQ by channel of the group
  rdTrain : Tab Nat := []
  wrTrain : Tab Nat := []
  worst  : Tab Nat := []
  want   : Option (Nat × Nat × Nat) := none  -- mode, rate and THERM to take at the next bus-idle boundary
  recal  : List Nat := []                    -- channels (0–3) under recalibration
  reached : Nat := 0                         -- Meridian time of the last rate change
  cool135 : Option Nat := none               -- first sample of the unbroken run at or below 135.0 degrees (R289)
  cool120 : Option Nat := none               -- likewise at or below 120.0 degrees
  ttrain : Nat := 0
  tempTrain : Int := 0
  retrain : Option (List TrainRes) := none   -- RETRAIN waits for a hold to end (R296)
  recd   : Tab (List Byte) := []             -- rate sets of the group's Ephemeris record on flash (R294)
  fresh  : List Nat := []                    -- channels recalibrated and with no data-out since (R284)
  resetDies : List Nat := []                 -- reset dies of a Fervon group that show ready (R277)
  later  : Bool := false                     -- a write of FRATE or FORCE waits for a boundary after the hold (R296)
  frate  : Option Nat := none                -- FRATE as it stood before a hold in which it has been written (R296)
  above  : Bool := false                     -- a sample above 140.0 degrees has been met in Fervon mode and no return made (R7)
  newRate : Bool := false                    -- a fault came during a rate change: the recalibration is at the new rate (R296)
  waking : Bool := false                     -- leaving P2: a set whose verify fails is retrained (R295)
  iver   : Nat := 0                          -- IVER of the image that trained (R292)
  stale  : Tab (Nat × Nat × List Byte) := [] -- by channel: context and grant of a tenure, and the trims it goes on using (R286, R287)
  deriving DecidableEq, Repr

/-- A copy kept on flash: valid and its sequence number. -/
structure Copy where
  valid : Bool := false
  seq   : Nat := 0
  page  : Nat := 0                           -- next page-set of its block
  deriving DecidableEq, Repr

/-- The PHYs and the Ephemeris copies. -/
structure Ph where
  grp  : Tab Phy := []
  ephA : Copy := {}
  ephB : Copy := {}
  ephAt : Option Nat := none                 -- time of the last in-service write
  due  : Bool := false                       -- training or RETRAIN calls for a write (R294)
  image : List Byte := []                    -- the records of all groups as last written (R293)
  deriving DecidableEq, Repr

/-! ## Codec (08_codec.md) -/

/-- A frame waiting for, or held by, a lane: a codeword of an entry or of an internal read. -/
structure CwRef where
  eid   : Nat
  cw    : Nat
  step  : Nat := 0
  mode  : Nat := 0                           -- 0 hard, 1 or 2 soft
  grp   : Nat := 0                           -- group it came from
  ord   : Nat := 0                           -- order of arrival
  at_   : Nat := 0                           -- Meridian time at which the lane took it (R325)
  bytes : List (List Byte) := []             -- the frame as the lane took it, with the extra frames of a soft decode
  lim   : Nat := 0                           -- HMAX or SMAX, and CX_LLR, as they stood when the lane took it (R330)
  llr   : Word := 0
  deriving DecidableEq, Repr

/-- A codec cluster. -/
structure Codec where
  faulted : Option Nat := none               -- the fault's cause, while it stands
  fault  : Word := 0
  test   : Bool := false
  served : Option Nat := none                -- cluster that serves this group, itself where none
  hq     : List CwRef := []
  sq     : List CwRef := []
  eq     : List CwRef := []
  hl     : Tab (Option CwRef) := []
  sl     : Tab (Option CwRef) := []
  el     : Tab (Option CwRef) := []
  ncw    : Nat := 0
  nfail  : Nat := 0
  nsoft  : Nat := 0
  neras  : Nat := 0
  deriving DecidableEq, Repr

/-- The codec. -/
structure Cx where
  cl  : Tab Codec := []
  ord : Nat := 0
  deriving DecidableEq, Repr

/-! ## Seeing (09_seeing.md) -/

/-- Seeing. -/
structure Sg where
  table : Mem := []
  recs  : List Stat := []
  diverge : Word := 0
  distev : Word := 0
  specrd : Nat := 0
  moves : Nat := 0
  dose  : Nat := 0                           -- last whole-hour dose delivered (R343)
  saving : Option Nat := none                -- SEQ of the save in progress
  image : List Byte := []                    -- what the copy of the save being written has been given so far (R361)
  savedAt : Nat := 0
  loaded : Bool := false
  loadsrc : Bool := false
  savefail : Bool := false
  copyA : Copy := {}
  copyB : Copy := {}
  deriving DecidableEq, Repr

/-! ## Stripe engine (10_stripes.md) -/

/-- A stripe (R369, R396). -/
structure Stripe where
  state  : Nat := 0                          -- 0 FREE, 1 OPEN, 2 CLOSING, 3 REBUILD
  restored : Bool := false
  ndata  : Nat := 0
  npar   : Nat := 0
  planes : Nat := 0
  profile : Nat := 0
  row    : Nat := 0
  topen  : Nat := 0
  table  : List Nat := []                    -- 64 member table entries
  passed : BitVec 64 := 0
  launched : BitVec 64 := 0
  done   : BitVec 64 := 0
  failed : BitVec 64 := 0
  torn   : BitVec 64 := 0
  bound  : List Nat := []                    -- positions bound and not yet passed
  pfail  : Bool := false                     -- RFLAGS.PFAIL
  deriving DecidableEq, Repr

/-- A reconstruction of an entry's failed codewords (R386–R389). -/
structure Job where
  cws   : List Nat                           -- the entry's codewords that failed, until the stripe is known
  pos   : Nat := 0
  profile : Nat := 0
  npar  : Nat := 0
  inOpen : Option Nat := none                -- the OPEN or CLOSING stripe that decides
  ready : Bool := false                      -- the stripe is known and its member reads are made
  slots : List (Nat × Nat) := []             -- slot still to solve, and the entry's codeword
  parts : List Nat := []                     -- data positions whose data the parity covers, this one left out
  members : Tab (Nat × Nat) := []            -- by member-read number: position and die
  erased : List (Nat × Nat) := []            -- (position, slot) counted as an erasure (R388)
  got   : Tab (List Byte) := []              -- plain bytes delivered, by position * 16 + slot
  deriving DecidableEq, Repr

/-- A journal checkpoint in progress (R401). -/
structure Ckpt where
  seq    : Nat
  final  : Bool := false
  copyB  : Bool := false
  todo   : List Nat                          -- journal dies still to be status-read in this half
  todoB  : List Nat := []
  failed : Bool := false
  skipped : Bool := false                    -- a die stayed busy with an erase and has no copy (R403)
  at_    : Nat := 0                          -- Meridian time at which the records were taken, and the records (R400)
  plates : Tab Stripe := []
  deriving DecidableEq, Repr

/-- Where a REBUILD stands (R392–R395). -/
inductive WalkAt where
  | first                                    -- the map entry of its dispatch is being read
  | idle                                     -- the next page-set may begin
  | entry | table                            -- the page-set's map entry, its member table
  | slots                                    -- member reads and solving
  | program                                  -- the destination program
  | record                                   -- the record's write
  deriving DecidableEq, Repr

/-- A REBUILD's walk: the page-set in hand, what its record will say, and the totals (R393–R395). -/
structure RbWalk where
  at_     : WalkAt := .first
  held    : Bool := false                    -- the workspace has been taken
  npar    : Nat := 0                         -- NPAR of the map entry read at dispatch
  n       : Nat := 0                         -- index of the page-set
  row     : Nat := 0
  planes  : Nat := 0
  outcome : Nat := 0
  neras   : Nat := 0
  step    : Nat := 0
  gone    : Nat := 0                         -- LOST
  second  : Nat := 0
  fin     : Option (Nat × Nat) := none       -- STATUS and DETAIL that end the walk after this record
  lost    : Nat := 0                         -- lost slots of the whole walk
  mask    : Nat := 0                         -- OR of every LOST
  deriving DecidableEq, Repr

/-- The stripe engine. -/
structure St where
  stripes : Tab Stripe := []
  plates : Tab Stripe := []                  -- Plate records in the retention island (R397)
  parP   : Tab Mem := []                     -- P by stripe: byte slot * 4128 + b
  parQ   : Tab Mem := []
  filled : List (Nat × Nat) := []            -- (stripe, slot) whose lines are not empty (R373)
  taken  : List (Nat × Nat × Nat) := []      -- (stripe, position, slot) the accumulator has taken (R328)
  openerr : Word := 0
  jseq   : Nat := 0
  jnext  : Nat := 0
  jfail  : Bool := false
  jblk   : Bool := false
  jpage  : Tab Nat := []                     -- next page-set by journal die, in the block jdblk names
  jdblk  : Tab Bool := []
  changed : Bool := false
  ckptAt : Nat := 0                          -- Meridian time of the last checkpoint's start (R401)
  ckpt   : Option Ckpt := none
  replay : Bool := false
  src    : Nat := 0
  recon  : Nat := 0
  lost   : Nat := 0
  jobs   : Tab Job := []                     -- by entry
  nextM  : Nat := 0                          -- next member-read number
  walk   : Tab RbWalk := []                  -- REBUILD by entry
  finalAsked : Bool := false                 -- the power-fail sequence has begun its FINAL checkpoint (R403)
  jerase : List Nat := []                    -- journal dies whose block in use is still to be erased (R401)
  deriving DecidableEq, Repr

/-! ## Meridian and Transit (11_meridian_transit.md) -/

/-- Meridian. -/
structure Md where
  time : Nat := 0
  frac : Nat := 0                            -- in units of 2^-32 ns
  freq : Int := 0
  slew : Int := 0
  slewLeft : Int := 0                        -- phase still to remove, in 2^-32 ns (R415)
  err  : Int := 0
  steps : Nat := 0
  reject : Nat := 0
  lock : Bool := false
  good : Nat := 0                            -- edges in a row accepted within 50 ns
  behind : List Nat := []                    -- amounts of the last rejected edges in a row that showed Meridian behind
  loaded : Bool := false
  hold : Bool := false
  loaderr : Bool := false
  armed : Bool := false                      -- LOADSYNC waits for an edge
  loadDue : Bool := false                    -- LOAD waits for the next MREF edge
  deriving DecidableEq, Repr

/-- A request for admission (R423–R429). -/
structure TrReq where
  die   : Nat
  kind  : Nat
  cls   : Nat
  rail  : Nat
  segs  : List (Nat × Nat)                   -- DUR and CUR
  made  : Nat                                -- slot of its ADMIT
  ord   : Nat := 0
  launch : Option Nat := none
  journal : Bool := false
  bad   : Option (Nat × Nat) := none         -- profile set and kind of a broken profile (R425)
  once  : Bool := false                      -- a read-ahead's, tried at one boundary only (R434)
  deriving DecidableEq, Repr

/-- An admitted request's reservation (R426). -/
structure TrHold where
  die   : Nat
  rail  : Nat
  segs  : List (Nat × Nat)
  anchor : Option Nat := none                -- slot of the anchor
  at_   : Option Nat := none                 -- Meridian time of a timed launch (R432, R433)
  req   : Option TrReq := none               -- the request it came from, which a withdrawal makes pending again (R435)
  ended : Bool := false                      -- the phase has ended; released at the next boundary
  deriving DecidableEq, Repr

/-- Transit. -/
structure Tr where
  table : Tab Word := []
  reqs  : List TrReq := []
  holds : List TrHold := []
  slot  : Nat := 0                           -- slot of the last boundary
  ord   : Nat := 0
  excess : BitVec 16 := 0
  lim   : Tab Nat := []                      -- budgets as they stood at the last boundary, 0xFFFFF where none is listed (R431)
  lateN : Nat := 0
  lateMax : Nat := 0
  named : List (Nat × Nat) := []             -- broken profiles already recorded (R425)
  deriving DecidableEq, Repr

/-! ## Dome (14_dome_nightlog.md R491–R515) and self-test -/

/-- A mailbox command in progress or waiting. -/
structure MbCmd where
  i3c   : Bool := false
  words : List Word := []
  deriving DecidableEq, Repr

/-- What the fuse interface is being used for. -/
structure FuseOp where
  wr    : Bool
  word  : Nat
  data  : Word := 0
  old   : Nat := 0                           -- counter before (RBK_COMMIT)
  goal  : Nat := 0                           -- counter wanted
  deriving DecidableEq, Repr

/-- A sensor (R498). -/
structure Sensor where
  cur   : Int := 0
  least : Int := 0
  most  : Int := 0
  seen  : Bool := false
  warned : Bool := false
  outs  : List Nat := []                     -- a monitor's groups (0 where it has one supply) outside their limits at their last sample
  warns : List Nat := []                     -- those of them that DO_VOLT has been raised for
  valid : Bool := false                      -- a package's latest read succeeded
  turn  : Nat := 0                           -- V5 to V12: which of its four groups is sampled next
  deriving DecidableEq, Repr

/-- How far an UPDATE has come (R510): its reservation is asked for; the package is being fetched, or written to its slot; or the
write has been cut, with word 15 of the reply. -/
inductive UpdAt where
  | asked
  | fetching
  | writing (slotB : Bool) (pkg : List Byte)
  | cut (seq detail : Nat)
  deriving DecidableEq, Repr

/-- Dome. -/
structure Dome where
  boot  : Nat := 0                           -- 0 ROM, 1 running, 2 WAIT
  gap   : Bool := false
  fuseok : Bool := false
  srcSlot : Nat := 0
  restarts : Nat := 0
  cmds  : List MbCmd := []                   -- oldest first; the head is being served
  mbDone : Bool := false
  rsp   : List Word := []
  i3cRsp : List Word := []
  ibi   : Bool := false
  i3cAddr : Option Nat := none               -- dynamic address on the I3C bus (02_boundary.md R94)
  fuse  : Option FuseOp := none
  fuses : BitVec 128 := 0
  dose  : Nat := 0                           -- whole hours
  doseF : Nat := 0                           -- 2^-32 hour
  doseAt : Nat := 0                          -- Meridian time of the last integration
  factor : Nat := 0                          -- Arrhenius factor of the interval that runs, in 2^-64 (R501)
  stepped : List Nat := []                   -- sizes of the forward steps reported while Dome did not run (R504)
  fellBack : Bool := false                   -- SRC 0 uses on-die sensors (R502)
  sensors : Tab Sensor := []
  pkg   : Option (List Byte) := none         -- the running package
  slotA : Option (List Byte) := none
  slotB : Option (List Byte) := none
  booted : List Nat := []                    -- package SEQs that have booted
  failed : List Nat := []                    -- SEQs marked failed in the island (R511)
  mclkLost : Bool := false
  trial : Option Nat := none                 -- SEQ on trial, not yet reported running
  updOwed : Option (List (Nat × Nat)) := none -- reply words of an UPDATE whose ACT still replaces images (R495)
  upd   : Option UpdAt := none               -- the UPDATE in progress
  acc   : Option OwnAcc := none              -- Dome's access to host memory
  accNo : Nat := 0                           -- accesses begun
  hostEnv : Option StartEnv := none          -- a host package is being fetched: what the start it belongs to finds (R512)
  restarting : Bool := false                 -- a restart waits for its firmware (R529)
  bootWas : Option Nat := none               -- DO_STAT.BOOT as the island holds it, until the boot ROM runs (R533)
  deriving DecidableEq, Repr

/-- Self-test results by unit (15_startup_reset_power.md R553, R554). -/
structure Bt where
  running : Bool := false
  done  : Bool := false
  runs  : Nat := 0
  sig   : Tab Word := []
  exp   : Tab Word := []
  res   : Tab Nat := []                      -- 0 not run, 1 PASS, 2 FAIL, 3 NOEXP
  deriving DecidableEq, Repr

/-- What a write of the complex's own does at a row: an erase, a program of bytes given (10_stripes.md R400, 14_dome_nightlog.md
R525, 07_phy_calibration.md R293), or of a page-set of the Seeing table as it stands when it is copied (09_seeing.md R361). -/
inductive SysOp where
  | erase
  | bytes (l : List Byte)
  | table (i : Nat)
  deriving DecidableEq, Repr

/-- Writes of the complex's own to one die: rows still to be erased or programmed, in order. Of two copies, `copyB` says which is
written, and `later` that the other has passed. -/
structure SysW where
  die   : Nat
  ops   : List (Nat × SysOp) := []
  copyB : Bool := false
  later : Bool := false
  ended : Option (Nat × Nat) := none         -- STATUS and DETAIL, once the last has been status-read or one has failed
  deriving DecidableEq, Repr

/-- The complex. -/
structure Mx where
  regs : Tab Word := []                      -- RW and RWL registers by control-port offset
  gl : Gl := {}
  cp : Cp := {}
  hp : Tab Port := []
  qe : Qe := {}
  ents : Tab (Option Ent) := []              -- by entry number: 131072 * ring + index
  dx : Dx := {}
  sb : Sb := {}
  ch : Tab Chan := []
  die : Tab Die := []
  mc : Mc := {}
  ph : Ph := {}
  cx : Cx := {}
  sg : Sg := {}
  st : St := {}
  md : Md := {}
  tr : Tr := {}
  ic : Ic := {}
  dm : Dome := {}
  nl : Nl := {}
  bt : Bt := {}
  wr : Tab SysW := []                        -- journal copies 0 to 7 and their erases 16 to 23, the Night Log 8, Seeing 9, Ephemeris 10,
                                             -- the configuration record 11, Dome's slot 12
  free : Nat := 0                            -- the model's own counter of free values drawn (log entry 2)
  deriving DecidableEq, Repr

end Sys2Proof.Machine
end

