-- ==== Sys2Proof/Machine/Regs.lean ====
section
/-! DEFINITION. Control-port offsets and cold-reset values of the registers that hold what firmware writes
(16_register_index.md), the tables and byte memories they and the blocks are kept in, and bit fields. -/

namespace Sys2Proof.Machine

/-! ## Bit fields -/

/-- Bits [hi:lo] of a register as a number. -/
def fld (w : Word) (hi lo : Nat) : Nat := (w.toNat >>> lo) % 2 ^ (hi + 1 - lo)

/-- Bit `i` of a register. -/
def bit (w : Word) (i : Nat) : Bool := w.getLsbD i

/-- A register word from a number. -/
def word (n : Nat) : Word := BitVec.ofNat 32 n

/-- A flag placed at bit `i`. -/
def bitAt (b : Bool) (i : Nat) : Nat := if b then 2 ^ i else 0

/-- Saturating addition of one. -/
def satInc (n lim : Nat) : Nat := if n < lim then n + 1 else lim

/-- Two's complement value of the low `k` bits of a number. -/
def signed (k n : Nat) : Int := if n % 2 ^ k < 2 ^ (k - 1) then (n % 2 ^ k : Nat) else (n % 2 ^ k : Nat) - (2 ^ k : Nat)

/-- The `k` bits that hold an integer. -/
def unsigned (k : Nat) (i : Int) : Nat := (i % (2 ^ k : Nat)).toNat

/-- Keep a value within bounds. -/
def clampI (lo hi i : Int) : Int := if i < lo then lo else if hi < i then hi else i

/-! ## Tables -/

/-- What a table holds at an index, `d` where it lists none. -/
def tabGet {α : Type} (d : α) : Tab α → Nat → α
  | [], _ => d
  | (k, v) :: t, i => if k = i then v else tabGet d t i

/-- A table with one index set, kept ascending. -/
def tabSet {α : Type} : Tab α → Nat → α → Tab α
  | [], i, v => [(i, v)]
  | (k, w) :: t, i, v =>
    if k = i then (i, v) :: t else if i < k then (i, v) :: (k, w) :: t else (k, w) :: tabSet t i v

/-! ## Byte memories -/

/-- The byte at an address; an unlisted address reads 0 (log entry 5). -/
def memGet : Mem → Nat → Byte
  | [], _ => 0
  | (k, b) :: t, a => if k = a then b else memGet t a

/-- Insert a non-zero byte in address order. -/
def memIns : Mem → Nat → Byte → Mem
  | [], a, b => [(a, b)]
  | (k, c) :: t, a, b =>
    if k = a then (a, b) :: t else if a < k then (a, b) :: (k, c) :: t else (k, c) :: memIns t a b

/-- Write one byte, keeping the canonical form: writing 0 removes the entry. -/
def memSet (m : Mem) (a : Nat) (b : Byte) : Mem :=
  if b = 0 then m.filter (fun c => c.1 != a) else memIns m a b

/-- Read `n` bytes from an address. -/
def memRead (m : Mem) (a n : Nat) : List Byte := (List.range n).map (fun i => memGet m (a + i))

/-- Write bytes from an address upward. -/
def memWrite : Mem → Nat → List Byte → Mem
  | m, _, [] => m
  | m, a, b :: bs => memWrite (memSet m a b) (a + 1) bs

/-- The canonical form: addresses strictly rising, no entry zero. -/
def Memory.wf : Mem → Bool
  | [] => true
  | [(_, b)] => b != 0
  | (k, b) :: (l, c) :: t => b != 0 && decide (k < l) && Memory.wf ((l, c) :: t)

/-- Little-endian number of bytes (00_scope.md R18). -/
def leNat : List Byte → Nat
  | [] => 0
  | b :: bs => b.toNat + 256 * leNat bs

/-- The `n` little-endian bytes of a number. -/
def leBytes : Nat → Nat → List Byte
  | 0, _ => []
  | n + 1, v => BitVec.ofNat 8 v :: leBytes n (v / 256)

/-- `n` bytes of a list from an offset, zeros beyond its end. -/
def slice (l : List Byte) (off n : Nat) : List Byte :=
  let s := (l.drop off).take n
  s ++ List.replicate (n - s.length) 0

/-- A little-endian field of a structure. -/
def leAt (l : List Byte) (off n : Nat) : Nat := leNat (slice l off n)

/-- A byte list with some bytes replaced from an offset. -/
def patch (l : List Byte) (off : Nat) (bs : List Byte) : List Byte :=
  slice l 0 off ++ bs ++ l.drop (off + bs.length)

/-- Insert a number into an ascending list without repeats. -/
def insN : List Nat → Nat → List Nat
  | [], a => [a]
  | k :: t, a => if k = a then k :: t else if a < k then a :: k :: t else k :: insN t a

/-- Remove a number from a list. -/
def delN (l : List Nat) (a : Nat) : List Nat := l.filter (fun k => k != a)

/-! ## Offsets (16_register_index.md) -/

def icSrcOff (s : Nat) : Nat := 0x10000 + 4 * s
def icTgtOff (t k : Nat) : Nat := 0x11000 + 0x40 * t + k
def qeRingOff (r k : Nat) : Nat := 0x20000 + 0x40 * r + k
def qeNtcOff (g k : Nat) : Nat := 0x28000 + 0x20 * g + k
def qeHopOff : Nat := 0x2900C
def dxTmoOff : Nat := 0x30000
def dxEngOff (e : Nat) : Nat := 0x30100 + 0x10 * e
def sbOff (k : Nat) : Nat := 0x40000 + k
def mdOff (k : Nat) : Nat := 0x80000 + k
def trOff (k : Nat) : Nat := 0x81000 + k
def stOff (k : Nat) : Nat := 0xC0000 + k
def sgOff (k : Nat) : Nat := 0xE0000 + k
def dbOff (r k : Nat) : Nat := 0x100000 + 8 * r + k
def chOff (c k : Nat) : Nat := 0x200000 + 0x1000 * c + k
def phOff (g k : Nat) : Nat := 0x280000 + 0x1000 * g + k
def phEphOff (k : Nat) : Nat := 0x2A0000 + k
def cxOff (g k : Nat) : Nat := 0x300000 + 0x1000 * g + k
def cxGlobOff (k : Nat) : Nat := 0x320000 + k
def doOff (k : Nat) : Nat := 0x500000 + k
def nlOff (k : Nat) : Nat := 0x540000 + k
def btOff (k : Nat) : Nat := 0x580000 + k
def mcOff (g k : Nat) : Nat := 0x601000 + 0x20 * g + k
def mcIaddrOff : Nat := 0x600000

/-- Cold-reset value of a register that holds what firmware writes; 0 for every other (R559). -/
def regReset (off : Nat) : Word :=
  if off < 0x10000 then (if 0x20 ≤ off ∧ off ≤ 0x2C then 0xFFFFFFFF else 0)
  else if off < 0x20000 then 0
  else if off < 0x24200 then
    (if (off - 0x20000) % 0x40 = 8 then word (0x00FF0004 + 0x01000000 * ((off - 0x20000) / 0x40 % 4)) else 0)
  else if off < 0x30000 then
    (if 0x28000 ≤ off ∧ off < 0x28420 ∧ (off - 0x28000) % 0x20 = 8 then 4 else if off = 0x2900C then 0x100 else 0)
  else if off < 0x40000 then (if off = 0x30000 then 0xF else 0)
  else if off < 0x50000 then
    (if off = 0x40008 then 0x3E8 else if off = 0x4000C then 0x40 else if off = 0x40020 then 0x7D0
     else if off = 0x40040 ∨ off = 0x40044 then 0x10000 else if off = 0x40048 then 0x4000
     else if off = 0x4004C then 0x8000 else if off = 0x40050 then 0x2000
     else if 0x40060 ≤ off ∧ off ≤ 0x40070 then 0x80000 else 0)
  else if off < 0x90000 then
    (if off = 0x80018 then 0x20644064 else if off = 0x8001C then 0xF4240 else if off = 0x81000 then 0x00640040
     else if 0x81040 ≤ off ∧ off < 0x81080 then 0xFFFFF else 0)
  else if off < 0xD0000 then (if off = 0xC0000 then 0x64 else 0)
  else if off < 0xF0000 then
    (if off = 0xE0000 then 0xC0000000 else if off = 0xE000C then 0x200804 else if off = 0xE0010 then 6
     else if off = 0xE0014 then 0x10000 else if off = 0xE0018 then 0x10 else if off = 0xE0020 then 0x40000
     else if off = 0xE0048 then 0x18 else 0)
  else if off < 0x200000 then 0
  else if off < 0x280000 then
    (let k := off % 0x1000
     if k = 0 then 0x40 else if k = 0x10 then 0x28321414 else if k = 0x14 then 0x138800C8
     else if k = 0x18 then 0x03E80BB8 else if k = 0x1C then 0x64 else if k = 0x20 then 0xC8
     else if k = 0x24 then 0x3E8 else 0)
  else if off < 0x2A0000 then
    (let k := off % 0x1000
     if k = 0 then 0x00280000 else if k = 0x10 then 0x00640064 else if k = 0x14 then 0x140C else 0)
  else if off < 0x400000 then
    (if off = 0x320000 then 0x00280014 else if off = 0x320004 then 0x2736 else if off = 0x320008 then 0x200
     else if off = 0x320010 then 0x50 else if off = 0x320014 then 0x64 else if off = 0x320018 then 0x91
     else if off = 0x32001C then 0xC3 else if off = 0x320020 then 0x127 else 0)
  else if off < 0x510000 then
    (if off = 0x50008C then 0x6E00000A else if off = 0x500090 then 0x18 else if off = 0x500094 then 0x64
     else if off = 0x500098 then 0x7D55 else if off = 0x50009C then 0x91 else 0)
  else if off < 0x550000 then
    (if off = 0x540000 then 0x3E8 else if off = 0x540048 then 0x10 else if off = 0x54004C then 0x3C else 0)
  else if 0x601000 ≤ off ∧ off < 0x601400 then
    (if off % 0x20 = 0x10 then 0x1F4 else if off % 0x20 = 0x18 then 0xA else 0)
  else 0

/-- The held value of an RW or RWL register. -/
def reg (m : Mx) (off : Nat) : Word := tabGet (regReset off) m.regs off

/-- Set the held value of an RW or RWL register. -/
def setReg (m : Mx) (off : Nat) (v : Word) : Mx := { m with regs := tabSet m.regs off v }

/-! ## Instances -/

def port (m : Mx) (p : Nat) : Port := tabGet {} m.hp p
def setPort (m : Mx) (p : Nat) (v : Port) : Mx := { m with hp := tabSet m.hp p v }
def ring (m : Mx) (r : Nat) : Ring := tabGet {} m.qe.rings r
def setRing (m : Mx) (r : Nat) (v : Ring) : Mx := { m with qe := { m.qe with rings := tabSet m.qe.rings r v } }
def ntc (m : Mx) (g : Nat) : Ntc := tabGet {} m.qe.ntcs g
def setNtc (m : Mx) (g : Nat) (v : Ntc) : Mx := { m with qe := { m.qe with ntcs := tabSet m.qe.ntcs g v } }
def ent (m : Mx) (e : Nat) : Option Ent := tabGet none m.ents e
def setEnt (m : Mx) (e : Nat) (v : Ent) : Mx := { m with ents := tabSet m.ents e (some v) }
def dropEnt (m : Mx) (e : Nat) : Mx := { m with ents := tabSet m.ents e none }
def engine (m : Mx) (e : Nat) : Engine := tabGet {} m.dx.eng e
def setEngine (m : Mx) (e : Nat) (v : Engine) : Mx := { m with dx := { m.dx with eng := tabSet m.dx.eng e v } }
def target (m : Mx) (t : Nat) : Target := tabGet {} m.ic.tgt t
def setTarget (m : Mx) (t : Nat) (v : Target) : Mx := { m with ic := { m.ic with tgt := tabSet m.ic.tgt t v } }
def chan (m : Mx) (c : Nat) : Chan := tabGet {} m.ch c
def setChan (m : Mx) (c : Nat) (v : Chan) : Mx := { m with ch := tabSet m.ch c v }
def die (m : Mx) (d : Nat) : Die := tabGet {} m.die d
def setDie (m : Mx) (d : Nat) (v : Die) : Mx := { m with die := tabSet m.die d v }
def cluster (m : Mx) (g : Nat) : Cluster := tabGet {} m.mc.cl g
def setCluster (m : Mx) (g : Nat) (v : Cluster) : Mx := { m with mc := { m.mc with cl := tabSet m.mc.cl g v } }
def phy (m : Mx) (g : Nat) : Phy := tabGet {} m.ph.grp g
def setPhy (m : Mx) (g : Nat) (v : Phy) : Mx := { m with ph := { m.ph with grp := tabSet m.ph.grp g v } }
def codec (m : Mx) (g : Nat) : Codec := tabGet {} m.cx.cl g
def setCodec (m : Mx) (g : Nat) (v : Codec) : Mx := { m with cx := { m.cx with cl := tabSet m.cx.cl g v } }
def stripe (m : Mx) (s : Nat) : Stripe := tabGet {} m.st.stripes s
def sensor (m : Mx) (k : Nat) : Sensor := tabGet {} m.dm.sensors k
def setSensor (m : Mx) (k : Nat) (v : Sensor) : Mx := { m with dm := { m.dm with sensors := tabSet m.dm.sensors k v } }

/-- What a stripe's Plate record says (10_stripes.md R396, R397): there is none of a FREE stripe or of a REBUILD's workspace, and
which positions are bound is no part of it. -/
def plateOfStripe (v : Stripe) : Option Stripe := if v.state = 1 ∨ v.state = 2 then some { v with bound := [] } else none

/-- 10_stripes.md R397: a stripe that is OPEN or CLOSING has its Plate record in the island; another has none. -/
def setStripe (m : Mx) (s : Nat) (v : Stripe) : Mx :=
  let plates := if v.state = 1 ∨ v.state = 2 then tabSet m.st.plates s v else m.st.plates.filter (fun p => p.1 != s)
  { m with st := { m.st with stripes := tabSet m.st.stripes s v, plates := plates,
                             changed := m.st.changed || plateOfStripe (stripe m s) != plateOfStripe v } }

/-- Entry number of a ring's index (03_queues.md R97: indices of up to 17 bits). -/
def eidOf (r i : Nat) : Nat := 131072 * r + i
def eidRing (e : Nat) : Nat := e / 131072
def eidIdx (e : Nat) : Nat := e % 131072

/-- Channel, context and group of a die index (00_scope.md R9). -/
def dieCh (d : Nat) : Nat := d / 16
def dieCtx (d : Nat) : Nat := d % 16
def dieGrp (d : Nat) : Nat := d / 64
def dieTgt (d : Nat) : Nat := d % 16 / 4
def dieOf (c k : Nat) : Nat := 16 * c + k

/-- CHnnn_GEOMxx of a die: RAWLEN, PPB and PGBITS (05_channel_engine.md R232). -/
def geom (m : Mx) (d : Nat) : Word := reg m (chOff (dieCh d) (0x140 + 4 * dieCtx d))
def rawLen (m : Mx) (d : Nat) : Nat := fld (geom m d) 31 16
def ppb (m : Mx) (d : Nat) : Nat := fld (geom m d) 15 4
def pgBits (m : Mx) (d : Nat) : Nat := fld (geom m d) 3 0

/-- A channel enabled in GL_CHEN (15_startup_reset_power.md R557). -/
def chEnabled (m : Mx) (c : Nat) : Bool := bit (reg m (0x20 + 4 * (c / 32))) (c % 32)

/-- Draw a fresh free value's number (log entry 2). -/
def draw (m : Mx) : Nat × Mx := (m.free, { m with free := m.free + 1 })

end Sys2Proof.Machine
end

