-- ==== Sys2Proof/Machine/State.lean ====
section
/-! DEFINITION. The machine: the complex with every register, memory, queue and pin the manual gives it, and the
commands that wait for it, first in, first out. -/

namespace Sys2Proof.Machine

/-- The whole machine. -/
structure State where
  /-- The complex. -/
  mx      : Mx := {}
  /-- The commands that wait, the next one first. -/
  pending : List Instr := []
  deriving DecidableEq, Repr

/-- Why the machine stops with a fault. No command of the manual stops it: the type has no constructor. -/
inductive Fault where
  deriving DecidableEq, Repr

/-- Why a command is turned away by the model. -/
inductive Refusal where
  /-- A command that has no meaning in the model, raised by the dispatch alone; safe, since nothing is proved of it. -/
  | notModelled (mnemonic : String)
  deriving DecidableEq, Repr

/-- The machine right after cold reset, with nothing waiting (15_startup_reset_power.md R535; the values of
16_register_index.md; log entries 3, 4 and 5). -/
def State.reset : State := {}

/-- What a command answers. -/
abbrev Res := Host.Outcome State Fault Refusal

end Sys2Proof.Machine
end

