-- ==== Sys2Proof/Machine/Ops.lean ====
section
/-! DEFINITION. The shared operations: Night Log records, Weron requests, event sources and what they deliver. -/

namespace Sys2Proof.Machine

/-- A command acts on the complex and leaves the queue alone. -/
def act (s : State) (f : Mx → Mx) : Res := .next { s with mx := f s.mx }

/-- Do something only where a condition holds; a command that cannot occur has no effect (log entry 7). -/
def onlyIf (c : Bool) (f : Mx → Mx) (m : Mx) : Mx := if c then f m else m

/-- Do something for every member of a list, in order. -/
def each {α : Type} (l : List α) (f : α → Mx → Mx) (m : Mx) : Mx := l.foldl (fun m a => f a m) m

/-! ## Night Log records (14_dome_nightlog.md R516–R521, R561) -/

/-- The kinds of record that the rules require. -/
inductive RecKind where
  -- GL
  | cpRefused | rwlRefused | clkLoss | pfailRecovered | resetRefused | startRefused | cfgwrRefused | pwrRefused
  | cfgSkipped | cfgDefault | cfgFailed | stepFailed | wrstInP3 | bistFail
  /-- A write that a register's own rule refuses, by block number. -/
  | regRefused (blk : Nat)
  -- QE
  | ringErr | ctrlIgnored | ringCfgRefused | ntcHead | ntcOvf | mgmtWrite
  -- DX
  | hpCrd | hpProto | hpDown | reqFailed | doseAbove
  -- SB
  | sbUe | sbLeak | sbSticky | sbRetired | sbRetireBusy | scrubLate | rawUe
  -- CH
  | dieState | markRefused | starve | lockRefused | lockBroken | lockReset | orphanFailed | dieTimeout
  -- MC
  | mchk | imgRefused
  -- PH
  | noRate | setFailed | phFault | rateStep | eyeWarn | fvFail | hot | phyStep | fmodeIgnored | recalFailed | noEphemeris
  -- CX
  | cxFault | cxRestored | decodeFailed
  -- SG
  | retryStep | disturb | diverge | saveFailed | tableRefused | noImage
  -- ST
  | stLost | mapBad | mapFetch | jrnlFailed | replayed | notRestored | recon
  -- MD and TR
  | loadErr | mdStep | mdLock | kindReserved | profileBad | trOver | trLate
  -- IC
  | icMgmt | stackFault | msgFailed | tcfgRefused
  -- DO
  | mbRefused | therm | volt | tempFallback | doseGap | doseAdd | updStored | updRefused | boot | bootFallback
  | rbkRaised | fuseFail | fuseTmo | updEnded
  -- NL
  | logDropped | logRestart | persistFail | hrecRefused
  -- GL: a step of a start has failed on a group (15_startup_reset_power.md R537)
  | initFailed
  deriving DecidableEq, Repr

/-- 14_dome_nightlog.md R561: the block of CODE[15:10]. -/
def recBlock : RecKind → Nat
  | .regRefused b => b
  | .ringErr | .ctrlIgnored | .ringCfgRefused | .ntcHead | .ntcOvf | .mgmtWrite => 1
  | .hpCrd | .hpProto | .hpDown | .reqFailed | .doseAbove => 2
  | .sbUe | .sbLeak | .sbSticky | .sbRetired | .sbRetireBusy | .scrubLate | .rawUe => 3
  | .dieState | .markRefused | .starve | .lockRefused | .lockBroken | .lockReset | .orphanFailed | .dieTimeout => 4
  | .mchk | .imgRefused => 5
  | .noRate | .setFailed | .phFault | .rateStep | .eyeWarn | .fvFail | .hot | .phyStep | .fmodeIgnored
  | .recalFailed | .noEphemeris => 6
  | .cxFault | .cxRestored | .decodeFailed => 7
  | .retryStep | .disturb | .diverge | .saveFailed | .tableRefused | .noImage => 8
  | .stLost | .mapBad | .mapFetch | .jrnlFailed | .replayed | .notRestored | .recon => 9
  | .loadErr | .mdStep | .mdLock => 10
  | .kindReserved | .profileBad | .trOver | .trLate => 11
  | .icMgmt | .stackFault | .msgFailed | .tcfgRefused => 12
  | .mbRefused | .therm | .volt | .tempFallback | .doseGap | .doseAdd | .updStored | .updRefused | .boot
  | .bootFallback | .rbkRaised | .fuseFail | .fuseTmo | .updEnded => 13
  | .logDropped | .logRestart | .persistFail | .hrecRefused => 14
  | .bistFail => 15
  | _ => 0

/-- 14_dome_nightlog.md R517: the codes that chapter fixes, as event and severity. -/
def recFixed : RecKind → Option (Nat × Nat)
  | .doseGap => some (0x001, 3)
  | .doseAdd => some (0x002, 1)
  | .updStored => some (0x010, 2)
  | .updRefused => some (0x011, 3)
  | .boot => some (0x012, 2)
  | .bootFallback => some (0x013, 4)
  | .rbkRaised => some (0x020, 2)
  | .fuseFail => some (0x021, 4)
  | .logDropped => some (0x001, 3)
  | .logRestart => some (0x002, 2)
  | .persistFail => some (0x003, 3)
  | _ => none

/-- Every kind of record but a register's refusal, which each block has of its own. -/
def allKinds : List RecKind :=
  List.flatten (α := RecKind) [
    [.cpRefused, .rwlRefused, .clkLoss, .pfailRecovered, .resetRefused, .startRefused, .cfgwrRefused, .pwrRefused],
    [.cfgSkipped, .cfgDefault, .cfgFailed, .stepFailed, .wrstInP3, .bistFail, .ringErr, .ctrlIgnored,
     .ringCfgRefused],
    [.ntcHead, .ntcOvf, .mgmtWrite, .hpCrd, .hpProto, .hpDown, .reqFailed, .doseAbove, .sbUe, .sbLeak, .sbSticky],
    [.sbRetired, .sbRetireBusy, .scrubLate, .rawUe, .dieState, .markRefused, .starve, .lockRefused, .lockBroken],
    [.lockReset, .orphanFailed, .dieTimeout, .mchk, .imgRefused, .noRate, .setFailed, .phFault, .rateStep, .eyeWarn],
    [.fvFail, .hot, .phyStep, .fmodeIgnored, .recalFailed, .noEphemeris, .cxFault, .cxRestored, .decodeFailed,
     .retryStep],
    [.disturb, .diverge, .saveFailed, .tableRefused, .noImage, .stLost, .mapBad, .mapFetch, .jrnlFailed, .replayed],
    [.notRestored, .recon, .loadErr, .mdStep, .mdLock, .kindReserved, .profileBad, .trOver, .trLate, .icMgmt,
     .stackFault],
    [.msgFailed, .tcfgRefused, .mbRefused, .therm, .volt, .tempFallback, .doseGap, .doseAdd, .updStored,
     .updRefused],
    [.boot, .bootFallback, .rbkRaised, .fuseFail, .fuseTmo, .updEnded, .logDropped, .logRestart, .persistFail],
    [.hrecRefused, .initFailed]]

/-- R517, R561: numbers for the kinds of a block that the chapter's table leaves out, no two alike and none of them in use: each kind
has the catalogue's (a free value, log entry 2), or the next that none has. -/
def takeEvents : List Nat → List Nat → List (Nat × Nat)
  | [], _ => []
  | k :: ks, used =>
    let c := (Config.eventNumber k).toNat
    let e := (((List.range 1024).map (fun i => (c + i) % 1024)).find? (fun x => !used.contains x)).getD c
    (k, e) :: takeEvents ks (e :: used)

/-- R517: event number of a record: fixed, or the catalogue's. -/
def recEvent (k : RecKind) : BitVec 10 :=
  match recFixed k with
  | some (e, _) => BitVec.ofNat 10 e
  | none =>
    let mine := (.regRefused (recBlock k) :: allKinds).filter (fun x => recBlock x == recBlock k)
    let evs := takeEvents ((mine.filter (fun x => (recFixed x).isNone)).map (·.ctorIdx)) (mine.filterMap (fun x => (recFixed x).map (·.1)))
    BitVec.ofNat 10 (((evs.find? (fun x => x.1 == k.ctorIdx)).map (·.2)).getD 0)

/-- Severity of a record: fixed by R517, ALERT where its rule calls for it (R540, R554), or the catalogue's. -/
def recSev (k : RecKind) : Nat :=
  match recFixed k with
  | some (_, s) => s
  | none => if k = .cfgDefault ∨ k = .bistFail then 4 else (Config.eventSeverity k.ctorIdx).val

/-- R518: a record joins the arrival queue of 256, or is dropped and counted while the queue is full. -/
def arrive (m : Mx) (a : Arrival) : Mx :=
  if m.nl.queue.length < 256 then { m with nl := { m.nl with queue := m.nl.queue ++ [a] } }
  else { m with nl := { m.nl with drops := satInc m.nl.drops 0xFFFFFFFF, dropsNew := m.nl.dropsNew + 1,
                                  dropSev := max m.nl.dropSev a.sev } }

/-- Dome firmware runs and its clock does. -/
def domeRuns (m : Mx) : Bool := (m.dm.boot == 1) && !m.dm.mclkLost && (m.gl.pstate != 3)

/-- Write a Night Log record of a kind with its parameters, stamped with the core copy of Meridian (R39). -/
def log (m : Mx) (k : RecKind) (p0 : Nat := 0) (p1 : Nat := 0) (p2 : Nat := 0) : Mx :=
  arrive m { time := m.md.time, code := BitVec.ofNat 16 (1024 * recBlock k + (recEvent k).toNat), sev := recSev k,
             fmt := Config.eventFormat k.ctorIdx, p0 := word p0, p1 := word p1, p2 := word p2 }

/-! ## Weron ports (02_boundary.md R41–R60) -/

/-- Tags in use on a port (R48, R58). -/
def tagsUsed (p : Port) : List Nat := p.out.map (·.tag) ++ p.retired.map (·.tag)

/-- Tags that remain free. -/
def tagsFree (p : Port) : Nat := 1024 - (tagsUsed p).length

/-- R48: a tag no outstanding request uses. Which one is not stated: the choice is a free value (log entry 2). -/
def freshTag (p : Port) (n : Nat) : Nat :=
  let c := Config.pick n % 1024
  (((List.range 1024).map (fun i => (c + i) % 1024)).find? (fun t => !(tagsUsed p).contains t)).getD c

/-- R59: fewer than 64 free tags start a drain. -/
def checkDrain (p : Port) : Port := if tagsFree p < 64 then { p with drain := true } else p

/-- R46, R47: the write-data beats of a request, in address order; a READ has none. -/
def beatsOf (tag : Nat) (q : Req) : List Beat :=
  if q.op = .read then []
  else (List.range q.beats).map (fun k =>
    { tag := tag, addr := q.addr + 128 * k, last := k + 1 == q.beats,
      bytes := q.bytes.filter (fun c => c.1 / 128 == (q.addr + 128 * k) / 128) })

/-- R44, R46: issue waiting requests in order while credits and tags allow; `n` numbers the free choices. -/
def issueLoop : List Req → Port → Nat → Port × Nat
  | [], p, n => ({ p with waiting := [] }, n)
  | q :: qs, p, n =>
    if p.drain || p.down || p.reqCr == 0 then ({ p with waiting := q :: qs }, n)
    else
      let p' := checkDrain { p with reqCr := p.reqCr - 1, out := p.out ++ [{ tag := freshTag p n, req := q }],
                                    owed := p.owed ++ beatsOf (freshTag p n) q }
      issueLoop qs p' (n + 1)

/-- R44, R46: send owed write-data beats in order while write-data credits last. -/
def sendBeats (p : Port) : Port :=
  let l := p.owed.take p.wrCr
  { p with owed := p.owed.drop p.wrCr, wrCr := p.wrCr - l.length, wire := if l.isEmpty then p.wire else l }

/-- Let a port do what its credits allow; during a warm reset it issues nothing (15_startup_reset_power.md R542). -/
def pump (m : Mx) (i : Nat) : Mx :=
  let r := if m.gl.phase = .warm then (port m i, m.free) else issueLoop (port m i).waiting (port m i) m.free
  { setPort m i (sendBeats r.1) with free := r.2 }

/-- Make a request on a port: it is issued as soon as R44 and R59 allow. -/
def request (m : Mx) (i : Nat) (q : Req) : Mx :=
  pump (setPort m i { port m i with waiting := (port m i).waiting ++ [q] }) i

/-- The lines that hold `n` bytes from an address: the first line's address and the count (R42). -/
def linesOf (a n : Nat) : Nat × Nat := (a / 128 * 128, (a % 128 + n + 127) / 128)

/-- A write of bytes from an address, strobes only for those bytes (R47). -/
def writeReq (op : ReqOp) (a : Nat) (bs : List Byte) (why : Purpose) : Req :=
  { op := op, addr := (linesOf a bs.length).1, beats := (linesOf a bs.length).2,
    bytes := (List.range bs.length).zip bs |>.map (fun x => (a + x.1, x.2)), why := why }

/-- A read of the lines that hold `n` bytes from an address. -/
def readReq (a n : Nat) (why : Purpose) : Req :=
  { op := .read, addr := (linesOf a n).1, beats := (linesOf a n).2, why := why }

/-- 03_queues.md R138: the cause code. -/
def causeCode : Cause → Nat
  | .tgtErr => 1 | .noTarget => 2 | .timeout => 3 | .tmo => 4 | .outOfService => 5 | .proto => 6 | .drained => 7

/-! ## Accesses to host memory of Dome's and of a configuration write (14_dome_nightlog.md R495, R510, R512;
15_startup_reset_power.md R541) -/

def ownAcc (m : Mx) (cfg : Bool) : Option OwnAcc := if cfg then m.gl.cfgAcc else m.dm.acc

def setOwn (cfg : Bool) (a : Option OwnAcc) (m : Mx) : Mx :=
  if cfg then { m with gl := { m.gl with cfgAcc := a } } else { m with dm := { m.dm with acc := a } }

/-- R42: `n` bytes from an address, cut at 4 KiB boundaries, in at most as many pieces as the first argument counts. -/
def piecesOf : Nat → Nat → Nat → List (Nat × Nat)
  | 0, _, _ => []
  | f + 1, a, n => if n = 0 then [] else (a, min n (4096 - a % 4096)) :: piecesOf f (a + 4096 - a % 4096) (n - (4096 - a % 4096))

/-- Make the next request of an access, or end it: on a port out of service it has failed (R60). -/
def ownNext (cfg : Bool) (a : OwnAcc) (m : Mx) : Mx :=
  match a.todo with
  | [] => setOwn cfg (some { a with ended := some none }) m
  | q :: qs =>
    if (port m a.port).down then
      log (setOwn cfg (some { a with todo := [], ended := some (some .outOfService) }) m) .reqFailed a.port (causeCode .outOfService) 5
    else request (setOwn cfg (some { a with todo := qs }) m) a.port q

/-- An access begins: its requests follow one another, each made once the one before it is answered (log entry 93). -/
def ownStart (cfg : Bool) (p : Nat) (reqs : Purpose → List Req) (m : Mx) : Mx :=
  let n := m.dm.accNo
  ownNext cfg { port := p, no := n, todo := reqs (.own cfg n) } { m with dm := { m.dm with accNo := n + 1 } }

/-- An access that reads `n` bytes. -/
def ownRead (cfg : Bool) (p a n : Nat) (m : Mx) : Mx :=
  ownStart cfg p (fun w => (piecesOf (n / 4096 + 2) a n).map (fun x => readReq x.1 x.2 w)) m

/-- An access that writes bytes. -/
def ownWrite (cfg : Bool) (p a : Nat) (l : List Byte) (m : Mx) : Mx :=
  ownStart cfg p (fun w => (piecesOf (l.length / 4096 + 2) a l.length).map (fun x =>
    writeReq .write x.1 ((l.drop (x.1 - a)).take x.2) w)) m

/-- A request of an access has been answered, or has failed, which fails the access. -/
def ownAnswer (cfg : Bool) (no : Nat) (c : Option Cause) (data : Mem) (m : Mx) : Mx :=
  match ownAcc m cfg with
  | some a =>
    if a.no ≠ no ∨ a.ended.isSome then m
    else match c with
      | some f => setOwn cfg (some { a with todo := [], ended := some (some f) }) m
      | none => ownNext cfg { a with data := a.data ++ data } m
  | none => m

/-- An access is given up: what it has not issued is not issued, and what answers the rest finds nobody. -/
def ownDrop (cfg : Bool) (m : Mx) : Mx :=
  match ownAcc m cfg with
  | some a =>
    let q := port m a.port
    setOwn cfg none (setPort m a.port { q with waiting := q.waiting.filter (fun r => r.why != .own cfg a.no) })
  | none => m

/-! ## Event sources and delivery (13_interrupts.md) -/

def srcTarget (m : Mx) (s : Nat) : Nat := fld (reg m (icSrcOff s)) 9 5
def srcPri (m : Mx) (s : Nat) : Nat := fld (reg m (icSrcOff s)) 3 0
def tcfg (m : Mx) (t : Nat) : Word := reg m (icTgtOff t 0)
def compat (m : Mx) (t : Nat) : Bool := bit (tcfg m t) 31
def byMsg (m : Mx) (t : Nat) : Bool := bit (tcfg m t) 30
def thresh (m : Mx) (t : Nat) : Nat := fld (tcfg m t) 19 16

/-- Event sources of R465 (302–327 are reserved and never pending). -/
def isEvent (s : Nat) : Bool := decide (264 ≤ s) && decide (s ≤ 301)

/-- Ring vectors that go to a target: sources 256–263 go to Dome only (R466). -/
def isVector (s : Nat) : Bool := decide (s ≤ 255)

/-- A source's PRI exceeds the running priority of a target (R471); an empty stack has RP −1. -/
def aboveRp (tg : Target) (p : Nat) : Bool :=
  match tg.stack with
  | [] => true
  | (_, q) :: _ => decide (q < p)

/-- Pending, enabled, routed to the target, and at or above THRESH. -/
def routed (m : Mx) (t s : Nat) : Bool :=
  m.ic.en.contains s && (srcTarget m s == t) && decide (thresh m t ≤ srcPri m s)

/-- R471, R480: a pending source is claimable at a target. -/
def claimable (m : Mx) (t s : Nat) : Bool :=
  routed m t s &&
  (if (target m t).frozen then s == 270
   else aboveRp (target m t) (srcPri m s) && (isEvent s || (compat m t && isVector s)))

/-- R475, R477: the request condition of a target. -/
def wanted (m : Mx) (t : Nat) : Bool :=
  m.ic.pend.any (fun s => claimable m t s || (!compat m t && isVector s && routed m t s))

/-- R487: a message has failed. The event is raised by the caller. -/
def msgFault (m : Mx) (t : Nat) (c : Cause) : Mx :=
  let g := target m t
  let m := setTarget m t { g with msgf := true, mcause := if g.msgf then g.mcause else causeCode c,
                                  faults := satInc g.faults 255, msgOut := false }
  log m .msgFailed t (causeCode c)

/-- R485: send a target's message; a port out of service fails it at once. Answers whether it failed. -/
def sendMsg (m : Mx) (t : Nat) : Mx × Bool :=
  let p := fld (tcfg m t) 29 28
  if (port m p).down then (msgFault m t .outOfService, true)
  else
    let a := (reg m (icTgtOff t 0x1C)).toNat / 4 * 4 + 4294967296 * (reg m (icTgtOff t 0x20)).toNat
    let m := setTarget m t { target m t with msgOut := true }
    (request m p (writeReq .write a (leBytes 4 (reg m (icTgtOff t 0x24)).toNat) (.message t)), false)

/-- Judge one target's request condition again; a change to true under MSG sends a message or owes one (R485, R486). -/
def judge (m : Mx) (t : Nat) : Mx × Bool :=
  let w := wanted m t
  let g := target m t
  if w == g.req then (m, false)
  else
    let m := setTarget m t { g with req := w }
    if w && byMsg m t then
      if g.msgOut then (setTarget m t { target m t with msgOwed := true }, false) else sendMsg m t
    else (m, false)

/-- Judge every target once; answers whether a message failed. -/
def judgeAll (m : Mx) : List Nat → Mx × Bool
  | [] => (m, false)
  | t :: ts =>
    let r := judge m t
    let q := judgeAll r.1 ts
    (q.1, r.2 || q.2)

/-- A source becomes pending (R469). -/
def setPend (m : Mx) (s : Nat) : Mx := { m with ic := { m.ic with pend := insN m.ic.pend s } }

/-- Judge every target after a change. A failed message makes IC_MSGF (269) pending, so that every target is then
judged once more; a second failure finds it pending already. -/
def deliver (m : Mx) : Mx :=
  let r := judgeAll m (List.range 32)
  if r.2 then (judgeAll (setPend r.1 269) (List.range 32)).1 else r.1

/-- A block raises an event source (R469). -/
def raise (m : Mx) (s : Nat) : Mx := deliver (setPend m s)

/-! ## Control-port accesses (02_boundary.md R62–R66, 16_register_index.md R559) -/

/-- R559: an offset inside a window. -/
def occupied (off : Nat) : Bool :=
  decide (off < 0x50000) || (decide (0x80000 ≤ off) && decide (off < 0x90000)) ||
  (decide (0xC0000 ≤ off) && decide (off < 0xD0000)) || (decide (0xE0000 ≤ off) && decide (off < 0xF0000)) ||
  (decide (0x100000 ≤ off) && decide (off < 0x101000)) || (decide (0x200000 ≤ off) && decide (off < 0x2A1000)) ||
  (decide (0x300000 ≤ off) && decide (off < 0x321000)) || (decide (0x500000 ≤ off) && decide (off < 0x501000)) ||
  (decide (0x540000 ≤ off) && decide (off < 0x541000)) || (decide (0x580000 ≤ off) && decide (off < 0x581000)) ||
  (decide (0x600000 ≤ off) && decide (off < 0x602000)) || (decide (0x800000 ≤ off) && decide (off < 0x1000000))

/-- 15_startup_reset_power.md R549: what the control port accepts while the core is off. -/
def p3Open (off : Nat) : Bool := [0x0, 0x8, 0x14, 0x18, 0x80000, 0x80004, 0x80014].contains off

/-- The block, by the numbering of 14_dome_nightlog.md R516, whose window holds an offset. -/
def offBlock (off : Nat) : Nat :=
  if off < 0x10000 then 0 else if off < 0x20000 then 12 else if off < 0x30000 then 1 else if off < 0x40000 then 2
  else if off < 0x50000 then 3 else if off < 0x81000 then 10 else if off < 0x90000 then 11 else if off < 0xD0000 then 9
  else if off < 0xF0000 then 8 else if off < 0x200000 then 1 else if off < 0x280000 then 4 else if off < 0x2A1000 then 6
  else if off < 0x400000 then 7 else if off < 0x510000 then 13 else if off < 0x550000 then 14
  else if off < 0x590000 then 15 else if off < 0x700000 then 5 else 3

/-- R66: why an access is refused, coded as GL_CPERR.CAUSE; the checks are made in the order of the rule. -/
def accessCause (m : Mx) (off be : Nat) : Option Nat :=
  if be % 16 ≠ 15 ∨ off % 4 ≠ 0 then some 1
  else if !occupied off then some 2
  else if m.gl.phase = .warm ∧ 0x10000 ≤ off then some 3
  else if m.gl.pstate = 3 ∧ p3Open off = false then some 4
  else none

/-- R66: an access is refused: CP_ERR, read data zero, GL_CPERR (the first since VALID was cleared) and GL_CPERR's event. -/
def cpRefuse (m : Mx) (off : Nat) (wr : Bool) (cause : Nat) : Mx :=
  let m := { m with cp := { m.cp with err := true, rdata := 0 },
                    gl := { m.gl with cperr := if bit m.gl.cperr 31 then m.gl.cperr
                                               else word (2 ^ 31 + bitAt wr 30 + 2 ^ 27 * cause + off % 2 ^ 24) } }
  raise (log m .cpRefused off) 299

/-- An access: refused under R66, or carried out. While PORST_N is low nothing answers (R78). -/
def accessBe (off be : Nat) (wr : Bool) (f : Mx → Mx) (m : Mx) : Mx :=
  if !m.gl.porstN then m
  else match accessCause m off be with
    | some c => cpRefuse m off wr c
    | none => f { m with cp := { m.cp with err := false } }

/-- An access with every byte enable set. -/
def access (off : Nat) (wr : Bool) (f : Mx → Mx) (m : Mx) : Mx := accessBe off 15 wr f m

/-- A register write by firmware: host firmware's through the control port, Dome's by its internal path. -/
def writeBy (a : Agent) (off : Nat) (f : Mx → Mx) (m : Mx) : Mx :=
  if a = .host then access off true f m else f m

/-- 00_scope.md R15, R16: a write of a register with RW bits `rw` and RWL bits `rwl`. -/
def maskedWrite (off : Nat) (rw rwl v : Word) (m : Mx) : Mx :=
  let old := reg m off
  if m.gl.lockClosed && ((v &&& rwl) != (old &&& rwl)) then
    log (setReg m off ((v &&& rw) ||| (old &&& rwl))) .rwlRefused off
  else setReg m off (v &&& (rw ||| rwl))

/-- A write that its register's own rule refuses: the register is unchanged and a record names the offset. -/
def checkedWrite (ok : Bool) (off : Nat) (rw rwl v : Word) (m : Mx) : Mx :=
  if ok then maskedWrite off rw rwl v m else log m (.regRefused (offBlock off)) off

/-- The word a control-port read returns. -/
def answer (m : Mx) (w : Word) : Mx := { m with cp := { m.cp with rdata := w } }

/-! ## Fields of an entry (03_queues.md R127, R128) -/

def eBits (e : Ent) (off n : Nat) : Nat := (e.raw.toNat >>> (8 * off)) % 2 ^ (8 * n)
def eOpc (e : Ent) : Nat := eBits e 0x00 1
def eFlags (e : Ent) : Nat := eBits e 0x01 1
def eFlag (e : Ent) (i : Nat) : Bool := (eFlags e).testBit i
def eDie (e : Ent) : Nat := eBits e 0x04 2
def ePlanes (e : Ent) : Nat := eBits e 0x06 2
def eRow (e : Ent) : Nat := eBits e 0x08 4
def eCol (e : Ent) : Nat := eBits e 0x0C 2
def eNcw (e : Ent) : Nat := eBits e 0x0E 2
def eDptr (e : Ent) : Nat := eBits e 0x10 8
def eMptr (e : Ent) : Nat := eBits e 0x18 8
def eLen (e : Ent) : Nat := eBits e 0x20 4
def eStripe (e : Ent) : Nat := eBits e 0x24 2
def eSpos (e : Ent) : Nat := eBits e 0x26 1
def eProfile (e : Ent) : Nat := eBits e 0x27 1
def eLaunch (e : Ent) : Nat := eBits e 0x28 8
def eArg0 (e : Ent) : Nat := eBits e 0x30 4
def eArg1 (e : Ent) : Nat := eBits e 0x34 4
def eTimed (e : Ent) : Bool := eFlag e 3
def eStriped (e : Ent) : Bool := eFlag e 2
def eRawMeta (e : Ent) : Bool := eFlag e 4
def eSoft (e : Ent) : Bool := eFlag e 5
def ePinned (e : Ent) : Bool := eFlag e 6
def eNotice (e : Ent) : Bool := eFlag e 0

/-- COPY's destination in DPTR (04_commands.md R161). -/
def eDdie (e : Ent) : Nat := eDptr e % 65536
def eDplanes (e : Ent) : Nat := eDptr e / 65536 % 65536
def eDrow (e : Ent) : Nat := eDptr e / 4294967296

/-- Host data port of a ring (03_queues.md R103). -/
def ringPort (m : Mx) (r : Nat) : Nat := fld (reg m (qeRingOff r 8)) 25 24

/-- Bytes of a frame by profile code (04_commands.md R150). -/
def frameLen : Nat → Nat
  | 1 => 4576 | 2 => 4640 | 3 => 4768 | 4 => 4896 | 5 => 5152 | _ => 0

/-- Parity block rows by profile code (08_codec.md R311). -/
def parityRows : Nat → Nat
  | 1 => 14 | 2 => 16 | 3 => 20 | 4 => 24 | 5 => 32 | _ => 0

/-- Hard capability by profile code (08_codec.md R311). -/
def hardCap : Nat → Nat
  | 1 => 146 | 2 => 186 | 3 => 267 | 4 => 352 | 5 => 536 | _ => 1

/-- Number of planes a mask selects. -/
def planeCount (p : Nat) : Nat := ((List.range 4).filter (fun i => p.testBit i)).length

/-- The selected planes, ascending. -/
def planeList (p : Nat) : List Nat := (List.range 4).filter (fun i => p.testBit i)

end Sys2Proof.Machine
end

