-- ==== Sys2Proof/Machine/Flags.lean ====
section
/-! DEFINITION. Checks and flags computed from data: the CRCs, the per-byte check code, the randomiser, the LDPC
checks, arithmetic of the parity stripes, and the flags of the microcode ALU. -/

namespace Sys2Proof.Machine

/-! ## CRCs (08_codec.md R304, 14_dome_nightlog.md R516) -/

/-- One bit of a reflected CRC-32C. -/
def crc32cBit (c : Nat) : Nat := if c % 2 = 1 then (c / 2) ^^^ 0x82F63B78 else c / 2

def crc32cByte (c : Nat) (b : Byte) : Nat :=
  crc32cBit (crc32cBit (crc32cBit (crc32cBit (crc32cBit (crc32cBit (crc32cBit (crc32cBit (c ^^^ b.toNat))))))))

/-- R304: CRC-32C of bytes. -/
def crc32c (l : List Byte) : Nat := (l.foldl crc32cByte 0xFFFFFFFF) ^^^ 0xFFFFFFFF

/-- One bit of CRC-16/CCITT-FALSE. -/
def crc16Bit (c : Nat) : Nat := if 0x8000 ≤ c then (2 * c % 65536) ^^^ 0x1021 else 2 * c % 65536

def crc16Byte (c : Nat) (b : Byte) : Nat :=
  crc16Bit (crc16Bit (crc16Bit (crc16Bit (crc16Bit (crc16Bit (crc16Bit (crc16Bit (c ^^^ (256 * b.toNat)))))))))

/-- R516: CRC-16/CCITT-FALSE of bytes. -/
def crc16 (l : List Byte) : Nat := l.foldl crc16Byte 0xFFFF

/-! ## The per-byte check code (12_stage_buffer.md R444, R445) -/

/-- R444: the five check bits of a byte. -/
def checkBits (d : Byte) : BitVec 5 :=
  let b (i : Nat) : Bool := d.getLsbD i
  let c0 := b 0 ^^ b 1 ^^ b 3 ^^ b 4 ^^ b 6
  let c1 := b 0 ^^ b 2 ^^ b 3 ^^ b 5 ^^ b 6
  let c2 := b 1 ^^ b 2 ^^ b 3 ^^ b 7
  let c3 := b 4 ^^ b 5 ^^ b 6 ^^ b 7
  let c4 := b 0 ^^ b 1 ^^ b 2 ^^ b 3 ^^ b 4 ^^ b 5 ^^ b 6 ^^ b 7 ^^ c0 ^^ c1 ^^ c2 ^^ c3
  BitVec.ofNat 5 (bitAt c0 0 + bitAt c1 1 + bitAt c2 2 + bitAt c3 3 + bitAt c4 4)

/-- The result of a read of one byte (R445). -/
inductive ByteRes where
  | clean | corrected | uncorrectable
  deriving DecidableEq, Repr

/-- R444: the data bit at a Hamming position, or none for a check bit. -/
def hamPos : Nat → Option Nat
  | 3 => some 0 | 5 => some 1 | 6 => some 2 | 7 => some 3 | 9 => some 4 | 10 => some 5 | 11 => some 6 | 12 => some 7
  | _ => none

/-- R445: judge a stored byte and its stored check bits. -/
def checkByte (d : Byte) (c : BitVec 5) : Byte × ByteRes :=
  let s := ((checkBits d) ^^^ c).toNat % 16
  let odd := ((List.range 8).filter (fun i => d.getLsbD i)).length + ((List.range 5).filter (fun i => c.getLsbD i)).length
  if odd % 2 = 0 then (d, if s = 0 then .clean else .uncorrectable)
  else if s = 0 then (d, .corrected)
  else if s ≤ 12 then
    (match hamPos s with
     | some i => (d ^^^ (BitVec.ofNat 8 (2 ^ i)), .corrected)
     | none => (d, .corrected))
  else (d, .uncorrectable)

/-! ## Randomiser (08_codec.md R305–R307) -/

/-- R306: the seed of a codeword of a page. -/
def randSeed (row cw : Nat) : Nat :=
  let s := (row * 0x9E3779B1 + cw * 0x85EBCA6B) % 2 ^ 31
  if s = 0 then 0x55555555 else s

/-- R305: one step: the randomiser bit and the next state. -/
def randStep (s : Nat) : Nat × Nat :=
  let r := (s / 2 ^ 30 + s / 2 ^ 27) % 2
  (r, (2 * s + r) % 2 ^ 31)

/-- Eight steps: a byte, first bit lowest (R307), and the next state. -/
def randByte (s : Nat) : Nat × Nat :=
  (List.range 8).foldl (fun (a : Nat × Nat) i => let r := randStep a.2; (a.1 + r.1 * 2 ^ i, r.2)) (0, s)

/-- XOR the stream into bytes. -/
def randomise (s : Nat) : List Byte → List Byte
  | [] => []
  | b :: bs => let r := randByte s; (b ^^^ BitVec.ofNat 8 r.1) :: randomise r.2 bs

/-- R307: the stored form of the plain bytes 0–4,127 of a codeword, and the plain form of the stored ones. -/
def scramble (row cw : Nat) (plain : List Byte) : List Byte := randomise (randSeed row cw) plain

/-! ## The LDPC codes (08_codec.md R309, R310) -/

/-- Block `c` of 256 bits of a bit string. -/
def blk (n c : Nat) : Nat := (n >>> (256 * c)) % 2 ^ 256

/-- R310: a block as a check sees it, shifted so that bit t is bit (t + s) modulo 256. -/
def rotBlk (b s : Nat) : Nat := ((b >>> s) ||| (b <<< (256 - s))) % 2 ^ 256

/-- R310: the sum over the information blocks of block row `r`. -/
def lambda (rows n r : Nat) : Nat :=
  (List.range 129).foldl (fun a c =>
    (List.range 4).foldl (fun a k =>
      if (c + k * (rows / 4)) % rows = r then a ^^^ rotBlk (blk n c) ((17 * r * (c + 1) + 41 * c) % 256) else a) a) 0

/-- R310: the parity blocks of a frame's information bits. -/
def parityBlocks (rows n : Nat) : List Nat :=
  ((List.range rows).foldl (fun (a : List Nat × Nat) r => let p := lambda rows n r ^^^ a.2; (a.1 ++ [p], p)) ([], 0)).1

/-- R312: a frame of stored bytes 0–4,127 with its parity. -/
def encodeFrame (rows : Nat) (stored : List Byte) : List Byte :=
  stored ++ ((parityBlocks rows (leNat stored)).map (leBytes 32)).flatten

/-- R310: checks a frame leaves unsatisfied (SYND0). -/
def unsatisfied (rows : Nat) (frame : List Byte) : Nat :=
  let n := leNat (frame.take 4128)
  let p := leNat (frame.drop 4128)
  (List.range rows).foldl (fun a r =>
    let v := lambda rows n r ^^^ blk p r ^^^ (if r = 0 then 0 else blk p (r - 1))
    a + ((List.range 256).filter (fun t => v.testBit t)).length) 0

/-- A frame is a codeword when every check sums to 0 (R310). -/
def isCodeword (rows : Nat) (frame : List Byte) : Bool := unsatisfied rows frame == 0

/-- Bits of a frame that are 1. -/
def onesOf (frame : List Byte) : Nat :=
  frame.foldl (fun a b => a + ((List.range 8).filter (fun i => b.getLsbD i)).length) 0

/-- Bit positions in which two frames differ (R316). -/
def bitDiff (a b : List Byte) : Nat := onesOf ((a.zip b).map (fun x => x.1 ^^^ x.2))

/-! ## GF(2^8) of the parity stripes (10_stripes.md R371, R389) -/

/-- Multiplication by g = 0x02. -/
def gfDouble (a : Nat) : Nat := if 128 ≤ a then (2 * a % 256) ^^^ 0x1D else 2 * a

/-- Product in GF(2^8) with polynomial 0x11D. -/
def gfMul (a b : Nat) : Nat :=
  ((List.range 8).foldl (fun (x : Nat × Nat) i => (if b.testBit i then x.1 ^^^ x.2 else x.1, gfDouble x.2)) (0, a)).1

/-- g to the power `i`. -/
def gfPow : Nat → Nat
  | 0 => 1
  | i + 1 => gfDouble (gfPow i)

/-- The inverse of g to the power `i`: g has order 255. -/
def gfPowInv (i : Nat) : Nat := gfPow (255 - i % 255)

/-- The inverse of a non-zero element: its 254th power. -/
def gfInv (a : Nat) : Nat := ((List.range 254).foldl (fun x _ => gfMul x a) 1)

/-- Bytes multiplied by a constant. -/
def gfScale (k : Nat) (l : List Byte) : List Byte := l.map (fun b => BitVec.ofNat 8 (gfMul k b.toNat))

/-- Bytewise XOR. -/
def xorBytes (a b : List Byte) : List Byte := (a.zip b).map (fun x => x.1 ^^^ x.2)

/-! ## The microcode ALU (06_microcode.md R242) -/

/-- Flags Z, N and C. -/
structure AluFlags where
  z : Bool
  n : Bool
  c : Bool
  deriving DecidableEq, Repr

/-- Flags of an operation that writes DST: Z and N from the result, C as it was. -/
def flagsOf (r : Word) (f : AluFlags) : AluFlags := { f with z := r == 0, n := r.getLsbD 31 }

/-- Flags of an addition: C is the carry out of bit 31. -/
def flagsAdd (a b : Word) (f : AluFlags) : AluFlags :=
  { flagsOf (a + b) f with c := decide (2 ^ 32 ≤ a.toNat + b.toNat) }

/-- Index of the lowest 1 bit, or 0 (LSB). -/
def lowBit (a : Word) : Nat := ((List.range 32).find? (fun i => a.getLsbD i)).getD 0

/-- R242: the new DST (none where it is not written) and flags of an ALU operation, for codes 0 to 12. -/
def aluResult (op : Nat) (d a : Word) (imm : Nat) (f : AluFlags) : Option Word × AluFlags :=
  let out (r : Word) : Option Word × AluFlags := (some r, flagsOf r f)
  match op with
  | 1 => out a
  | 2 => out (word imm)
  | 3 => (some (d + a), flagsAdd d a f)
  | 4 => (some (d + word (unsigned 32 (signed 16 imm))), flagsAdd d (word (unsigned 32 (signed 16 imm))) f)
  | 5 => out (d &&& a)
  | 6 => out (d ||| a)
  | 7 => out (d ^^^ a)
  | 8 => out (d <<< (imm % 32))
  | 9 => out (d >>> (imm % 32))
  | 10 => (none, { f with z := d.toNat == imm })
  | 11 => (some (word (lowBit a)), { flagsOf (word (lowBit a)) f with z := a == 0 })
  | 12 => out (d &&& (d - 1))
  | _ => (none, f)

/-- Two dies of one channel group (14_dome_nightlog.md R533). -/
def sameGroup (v : Word) : Bool := bit v 31 && (dieGrp (fld v 26 16) == dieGrp (fld v 10 0))

end Sys2Proof.Machine
end

