-- ==== Sys2Proof/Machine/Transit.lean ====
section
/-! DEFINITION. Transit (11_meridian_transit.md R422–R436): profiles, reservations under the rail budgets, waves. -/

namespace Sys2Proof.Machine

/-! ## Internal reads and writes -/

/-- Entry numbers that stand for member reads, read-aheads, writes of the complex's own and a REBUILD's programs. -/
def memEid (id : Nat) : Nat := 2 ^ 30 + id
def specEid (d : Nat) : Nat := 2 ^ 31 + d
def sysEid (k : Nat) : Nat := 2 ^ 32 + k
def rbEid (eid : Nat) : Nat := 2 ^ 33 + eid
def isHostEid (eid : Nat) : Bool := decide (eid < 2 ^ 30)

/-- Holds that a read-ahead was given at its READ's data-out are kept under this number until its own GATE ADMIT. -/
def specHoldDie (d : Nat) : Nat := 2048 + d

/-! ## Rail groups and classes (R423, R429) -/

/-- Rail group and profile set of a die's channel (R423). -/
def chMap (m : Mx) (c : Nat) : Nat := fld (reg m (trOff (0x100 + 4 * (c / 4)))) (8 * (c % 4) + 7) (8 * (c % 4))
def railOf (m : Mx) (c : Nat) : Nat := chMap m c % 16
def psetOf (m : Mx) (c : Nat) : Nat := chMap m c / 16 % 8

/-- R429: priority class of a ring. -/
def ringClass (m : Mx) (r : Nat) : Nat :=
  fld (reg m (trOff (0x180 + 4 * (r / 16)))) (2 * (r % 16) + 1) (2 * (r % 16))

def budget (m : Mx) (r : Nat) : Nat := fld (reg m (trOff (0x40 + 4 * r))) 19 0
def trLead (m : Mx) : Nat := fld (reg m (trOff 0)) 11 0
def blkAge (m : Mx) : Nat := fld (reg m (trOff 0)) 27 16

/-! ## Profiles (R425) -/

/-- The segments of a profile up to its end: DUR and CUR. -/
def segments (m : Mx) (p k : Nat) : List (Nat × Nat) :=
  (((List.range 8).map (fun s =>
    let w := tabGet 0 m.tr.table (128 * p + 8 * k + s)
    (fld w 31 20, fld w 19 0))).takeWhile (fun x => x.1 != 0))

def peak (l : List (Nat × Nat)) : Nat := l.foldl (fun a x => max a x.2) 0

/-- R425: a profile keeps its rules. -/
def profileOk (l : List (Nat × Nat)) : Bool :=
  l.dropLast.all (fun x => x.1 != 0xFFF) &&
  decide (l.foldl (fun a x => if x.1 = 0xFFF then a else a + x.1) 0 ≤ 8192)

/-- R425: the profile a request reserves, and whether it breaks a rule. -/
def profileOf (m : Mx) (p k : Nat) : List (Nat × Nat) × Bool :=
  let l := segments m p k
  if profileOk l then (l, false) else ([(0xFFF, peak l)], true)

/-! ## Reservations (R426, R427) -/

/-- Current of a profile `off` slots after its anchor. -/
def profileAt : List (Nat × Nat) → Nat → Nat
  | [], _ => 0
  | (d, c) :: t, off => if d = 0xFFF ∨ off < d then c else profileAt t (off - d)

/-- Slots at which the segments of an anchored profile begin. -/
def segStarts : List (Nat × Nat) → Nat → List Nat
  | [], _ => []
  | (d, _) :: t, a => a :: segStarts t (a + d)

/-- A profile's fixed end, if it has one. -/
def profileEnd (l : List (Nat × Nat)) (a : Nat) : Option Nat :=
  if l.any (fun x => x.1 == 0xFFF) then none else some (l.foldl (fun n x => n + x.1) a)

/-- Current one reservation holds in a slot. -/
def holdAt (h : TrHold) (n : Nat) : Nat :=
  match h.anchor with
  | none => peak h.segs
  | some a => if n < a then 0 else profileAt h.segs (n - a)

/-- R427: C(r, n). -/
def currentAt (m : Mx) (r n : Nat) : Nat :=
  m.tr.holds.foldl (fun a h => if h.rail = r then a + holdAt h n else a) 0

/-- R427: the greatest C(r, n) for slots from `b` on: it is reached at `b` or where a segment begins. -/
def currentMax (m : Mx) (r b : Nat) : Nat :=
  let starts := m.tr.holds.foldl (fun l h =>
    match h.anchor with
    | some a => if h.rail = r then l ++ (segStarts h.segs a).filter (fun n => decide (b ≤ n)) else l
    | none => l) [b]
  starts.foldl (fun a n => max a (currentAt m r n)) 0

/-- R426: reservations that end before a slot are released at its boundary. -/
def releaseAt (m : Mx) (b : Nat) : Mx :=
  { m with tr := { m.tr with holds := m.tr.holds.filter (fun h =>
      !h.ended && (match h.anchor with
                   | some a => (match profileEnd h.segs a with | some e => decide (b < e) | none => true)
                   | none => true)) } }

/-- R431: the budget in force: a change applies from the next boundary. -/
def budgetNow (m : Mx) (r : Nat) : Nat := tabGet 0xFFFFF m.tr.lim r

/-- R431: an OVER bit clears as soon as no slot from the current one on goes above the budget in force. -/
def overFall (m : Mx) : Mx :=
  if m.tr.excess = 0 then m
  else { m with tr := { m.tr with excess := (List.range 16).foldl (fun x r =>
      if currentMax m r m.tr.slot ≤ budgetNow m r then x &&& ~~~ BitVec.ofNat 16 (2 ^ r) else x) m.tr.excess } }

/-- R426: a die's reservation is anchored in the current slot. -/
def anchorHold (d : Nat) (m : Mx) : Mx :=
  overFall { m with
    tr := { m.tr with holds := m.tr.holds.map (fun h => if h.die = d ∧ h.anchor = none then { h with anchor := some m.tr.slot } else h) } }

/-- R426: a die's phase has ended; its anchored profile ends at the next boundary, and a hold at once. -/
def endHold (d : Nat) (m : Mx) : Mx :=
  overFall { m with
    tr := { m.tr with
      holds := (m.tr.holds.filter (fun h => !(h.die == d && h.anchor == none))).map (fun h =>
        if h.die = d then { h with ended := true } else h) } }

/-- R436: a profile without a fixed end ends, where nothing is left that could observe its die ready. -/
def endOpen (d : Nat) (m : Mx) : Mx :=
  overFall { m with
    tr := { m.tr with
      holds := m.tr.holds.map (fun h => if h.die = d ∧ (profileEnd h.segs 0).isNone then { h with ended := true } else h) } }

/-- Withdraw a die's pending request and its hold not yet anchored (R435, R436). -/
def withdrawHold (d : Nat) (m : Mx) : Mx :=
  overFall { m with
    tr := { m.tr with
      reqs := m.tr.reqs.filter (fun q => q.die != d), holds := m.tr.holds.filter (fun h => !(h.die == d && h.anchor == none)) } }

/-- R424: ask for admission of a phase of a die. -/
def admitRequest (d kind cls : Nat) (launch : Option Nat) (journal : Bool) (m : Mx) : Mx :=
  let k := if 8 ≤ kind then 2 else kind
  let p := psetOf m (dieCh d)
  let pr := profileOf m p k
  let q : TrReq := { die := d, kind := k, cls := cls, rail := railOf m (dieCh d), segs := pr.1, made := m.tr.slot,
                     ord := m.tr.ord, launch := launch, journal := journal, bad := if pr.2 then some (p, k) else none }
  let m := { m with tr := { m.tr with reqs := m.tr.reqs.filter (fun x => x.die != d) ++ [q], ord := m.tr.ord + 1 } }
  if 8 ≤ kind then log m .kindReserved kind d else m

/-! ## Admission at a boundary (R427, R428, R432, R433) -/

/-- R428, R432: the slot from which a request's age is counted: that of its ADMIT, or for a TIMED one the first boundary at
which it may be tried. -/
def firstTry (m : Mx) (q : TrReq) : Nat :=
  match q.launch with
  | none => q.made
  | some l => max (q.made + 1) (l / 1000 - trLead m)

/-- Requests that are tried together: a wave, or one alone. -/
def unitsOf : List TrReq → List (List TrReq)
  | [] => []
  | q :: qs =>
    let rest := unitsOf qs
    if q.launch = none then [q] :: rest
    else
      match rest.find? (fun u => u.any (fun x => x.launch == q.launch)) with
      | some u => (q :: u) :: rest.filter (fun v => !v.any (fun x => x.launch == q.launch))
      | none => [q] :: rest

/-- R433: a unit's class and place. -/
def unitClass (u : List TrReq) : Nat := u.foldl (fun a q => max a q.cls) 0
def unitOrd (u : List TrReq) : Nat := u.foldl (fun a q => min a q.ord) ((u.head?.map (·.ord)).getD 0)

/-- Descending class, then order of ADMIT. -/
def unitBefore (u v : List TrReq) : Bool :=
  decide (unitClass v < unitClass u) || (unitClass u == unitClass v && decide (unitOrd u ≤ unitOrd v))

/-- Insert a unit at its place. -/
def unitIns (u : List TrReq) : List (List TrReq) → List (List TrReq)
  | [] => [u]
  | v :: vs => if unitBefore u v then u :: v :: vs else v :: unitIns u vs

/-- R428: a request that has waited BLKAGE slots or more. -/
def aged (m : Mx) (b : Nat) (q : TrReq) : Bool := (blkAge m != 0) && decide (firstTry m q + blkAge m ≤ b)

/-- R427: a unit fits: the peaks of its members on each rail group go within the budget; a budget of 0 admits nothing. -/
def unitFits (m : Mx) (b : Nat) (u : List TrReq) : Bool :=
  u.all (fun q =>
    let p := u.foldl (fun a x => if x.rail = q.rail then a + peak x.segs else a) 0
    (budget m q.rail != 0) && decide (p + currentMax m q.rail b ≤ budget m q.rail))

/-- R428: an aged request still pending on a rail group of the unit holds it back. -/
def unitBlocked (m : Mx) (b : Nat) (left : List (List TrReq)) (u : List TrReq) : Bool :=
  left.any (fun v => v.any (fun x =>
    aged m b x && u.any (fun q => q.rail == x.rail) &&
    (decide (unitClass u < unitClass v) ||
     (unitClass u == unitClass v && (!u.any (aged m b) || decide (unitOrd v < unitOrd u))))))

/-- CFLAGS.PARTIAL's ground (03_queues.md R131): Transit has admitted, or has withdrawn, an array operation of an entry. -/
def setAdmitted (b : Bool) (eid : Nat) (m : Mx) : Mx :=
  match ent m eid with
  | some e => setEnt m eid { e with admitted := b }
  | none => m

/-- The entries that the operation a die's context runs belongs to: a member read's beside the entry it serves, and the program
of a REBUILD beside the REBUILD. -/
def itemOwners (m : Mx) (i : Item) : List Nat :=
  match i with
  | .entry e => [e]
  | .group es => es
  | .write e => if 2 ^ 33 ≤ e then [e, e - 2 ^ 33] else [e]
  | .member id => memEid id :: ((ent m (memEid id)).map (·.serves)).toList
  | _ => []

/-- The operation a die's context runs has been admitted. -/
def admitItem (d : Nat) (m : Mx) : Mx := each (((die m d).cur.map (itemOwners m)).getD []) (setAdmitted true) m

/-- R424, R426, R433: the admission of a unit at boundary `b`; a read-ahead's is only kept for it, under specHoldDie. -/
def admitUnit (b : Nat) (u : List TrReq) (m : Mx) : Mx :=
  let lead := 1000 * (b + trLead m)
  each u (fun q m =>
    let at_ := q.launch.map (fun l => if 2 ≤ u.length then max l lead else l)
    let m := { m with tr := { m.tr with reqs := m.tr.reqs.filter (fun x => x.ord != q.ord),
                                        holds := m.tr.holds ++ [{ die := q.die, rail := q.rail, segs := q.segs, at_ := at_, req := some q }] } }
    let d := die m q.die
    let m := if q.once then m
      else admitItem q.die (setDie m q.die { d with frame := { d.frame with admission := true, readmit := false } })
    match q.bad with
    | some pk => if m.tr.named.contains pk then m
                 else log { m with tr := { m.tr with named := pk :: m.tr.named } } .profileBad pk.1 pk.2
    | none => m) m

/-- R428: try the units in order; `left` are those not admitted. -/
def tryUnits (b : Nat) : List (List TrReq) → List (List TrReq) → Mx → Mx
  | [], _, m => m
  | u :: us, failed, m =>
    if !unitBlocked m b (failed ++ us) u && unitFits m b u then tryUnits b us failed (admitUnit b u m)
    else tryUnits b us (failed ++ [u]) m

/-- What Transit may let through: everything, only journal writes (R435), or nothing (R75, R535, R542). -/
def mayAdmit (m : Mx) (q : TrReq) : Bool :=
  match m.gl.pf with
  | .running => q.journal
  | .stopped => false
  | .held => false
  | .none => (m.gl.phase != .warm) && (m.gl.phase != .waitStart)

/-- R431: OVER bits at a boundary; each bit newly set raises TR_OVER. -/
def judgeOver (b : Nat) (m : Mx) : Mx :=
  each (List.range 16) (fun r m =>
    let o := decide (budgetNow m r < currentMax m r b)
    let was := m.tr.excess.getLsbD r
    let m := { m with tr := { m.tr with excess := if o then m.tr.excess ||| BitVec.ofNat 16 (2 ^ r)
                                                   else m.tr.excess &&& ~~~ BitVec.ofNat 16 (2 ^ r) } }
    if o && !was then raise (log m .trOver r) 290 else m) m

/-- R431: the budgets that stand at a boundary are in force from it on. -/
def latchBudgets (m : Mx) : Tab Nat := ((List.range 16).map (fun r => (r, budget m r))).filter (fun x => x.2 != 0xFFFFF)

/-- R422, R427, R428, R434: what Transit does at the boundary of slot `b`. A read-ahead's request is tried at one boundary only. -/
def boundaryAt (b : Nat) (m : Mx) : Mx :=
  let m := releaseAt { m with tr := { m.tr with slot := b, lim := latchBudgets m } } b
  let qs := m.tr.reqs.filter (fun q => mayAdmit m q && decide (firstTry m q ≤ b) && (q.launch.isNone || !m.md.hold))
  let m := tryUnits b ((unitsOf qs).foldr unitIns []) [] m
  judgeOver b { m with tr := { m.tr with reqs := m.tr.reqs.filter (fun q => !q.once) } }

/-- R422: Meridian has come to a slot whose boundary has not been taken: an edge, a load or a step has passed it. -/
def slotTurn (m : Mx) : Mx := if m.md.hold ∨ m.md.time / 1000 ≤ m.tr.slot then m else boundaryAt (m.md.time / 1000) m

/-! ## Register reads and writes (R439) -/

/-- Word of the profile table that TR_PADDR names. -/
def trWord (m : Mx) : Nat := fld (reg m (trOff 0x10)) 9 0

/-- AUTOINC of TR_PADDR. -/
def trAdvance (m : Mx) : Mx :=
  let a := reg m (trOff 0x10)
  if bit a 31 then setReg m (trOff 0x10) (word (2 ^ 31 + (fld a 9 0 + 1) % 1024)) else m

/-- R425: a write of TR_PDATA. -/
def profileWrite (v : Word) (m : Mx) : Mx :=
  let w := trWord m
  trAdvance { m with tr := { m.tr with table := tabSet m.tr.table w v,
                                       named := m.tr.named.filter (fun x => x != (w / 128, w % 128 / 8)) } }

/-- A read of TR_PDATA. -/
def profileRead (m : Mx) : Mx := trAdvance (answer m (tabGet 0 m.tr.table (trWord m)))

/-- TR_CTRL.CLRLATE. -/
def clearLate (m : Mx) : Mx := { m with tr := { m.tr with lateN := 0, lateMax := 0 } }

/-- R432: a late launch counts, and one more than 1 µs late is recorded. -/
def lateLaunch (ns : Nat) (d : Nat) (m : Mx) : Mx :=
  let m := { m with tr := { m.tr with lateN := satInc m.tr.lateN 0xFFFF, lateMax := max m.tr.lateMax (min (ns / 10) 0xFFFF) } }
  if 1000 < ns then log m .trLate d ns else m

/-- Reads of the TR registers, by offset. -/
def trRead (m : Mx) (k : Nat) : Word :=
  if k = 4 then word (bitAt m.md.hold 31 + bitAt (m.gl.pf == .running) 30 + m.tr.excess.toNat)
  else if k = 0xC then word (65536 * m.tr.lateMax + m.tr.lateN)
  else if k = 0x14 then tabGet 0 m.tr.table (trWord m)
  else if 0x80 ≤ k ∧ k < 0xC0 then word (currentAt m ((k - 0x80) / 4) m.tr.slot % 2 ^ 20)
  else if k = 0 ∨ k = 0x10 ∨ (0x40 ≤ k ∧ k < 0x80) ∨ (0x100 ≤ k ∧ k < 0x1C4) then reg m (trOff k)
  else 0

/-- Writes of the TR registers, by offset. -/
def trWrite (a : Agent) (k : Nat) (v : Word) (m : Mx) : Mx :=
  if k = 0 then setReg m (trOff k) (v &&& 0x0FFF0FFF)
  else if k = 8 then onlyIf (bit v 0) clearLate m
  else if k = 0x10 then setReg m (trOff k) (v &&& 0x800003FF)
  else if k = 0x14 then profileWrite v m
  else if 0x40 ≤ k ∧ k < 0x80 then setReg m (trOff k) (v &&& 0xFFFFF)
  else if 0x100 ≤ k ∧ k < 0x180 then setReg m (trOff k) (v &&& 0x7F7F7F7F)
  else if 0x180 ≤ k ∧ k < 0x1C0 then setReg m (trOff k) v
  else if k = 0x1C0 then (if a = .dome then setReg m (trOff k) (v &&& 0xFFFF) else log m (.regRefused 11) (trOff k))
  else m

/-! ## Meanings -/

/-- CLRLATE (R439). -/
def execClrLate (s : State) : Res := act s (access (trOff 8) true clearLate)

/-- TR_PDATA_WRITE (R425). -/
def execTrPdataWrite (val : Word) (s : State) : Res := act s (access (trOff 0x14) true (profileWrite val))

/-- TR_PDATA_READ (R425). -/
def execTrPdataRead (s : State) : Res := act s (access (trOff 0x14) false profileRead)

end Sys2Proof.Machine
end

