-- ==== Sys2Proof/Machine/Meridian.lean ====
section
/-! DEFINITION. Meridian (11_meridian_transit.md R411–R421) and the retention dose that follows it
(14_dome_nightlog.md R501–R506). -/

namespace Sys2Proof.Machine

/-! ## The retention dose -/

def doseCfg (m : Mx) : Word := reg m (doOff 0x8C)

/-- Readings that R502 uses, in 0.25 °C; a fallback to the on-die sensors is also answered. -/
def doseReadings (m : Mx) : List Int × Bool :=
  let onDie := (List.range 32).map (fun g => (sensor m g).cur)
  match fld (doseCfg m) 23 22 with
  | 0 =>
    let ps := ((List.range 64).filter (fun p => (sensor m (64 + p)).valid)).map (fun p => (sensor m (64 + p)).cur)
    if ps.isEmpty then (onDie, true) else (ps, false)
  | 1 => (onDie, false)
  | _ => ([signed 16 (reg m (doOff 0x94)).toNat], false)

/-- The square of a number of 128 fractional bits, over and over. -/
def squares : Nat → Nat → Nat
  | 0, x => x
  | n + 1, x => squares n (x * x / 2 ^ 128)

/-- The exponential of a fraction, with 128 fractional bits: the series at 1/256 of it, squared eight times. -/
def expOf (num : Int) (den : Nat) : Nat :=
  let y := num * 2 ^ 128 / (256 * den : Nat)
  squares 8 ((List.range 30).foldl (fun (a : Int) i => 2 ^ 128 + y * a / ((30 - i : Nat) * 2 ^ 128)) (2 ^ 128)).toNat

/-- R501: the expression of the Arrhenius factor, in 2^-64, for EA in 0.01 eV and a temperature in 0.25 degrees Celsius above
absolute zero. -/
def arrheniusAt (ea : Nat) (t : Int) : Option Nat :=
  let k := 10 * t + 10926
  if k ≤ 0 then none else some (expOf (ea * 40000000000 * (k - 12526)) (8617333 * 12526 * k.toNat) / 2 ^ 64)

/-- R501: the factor that Dome computes, which lies within 0.05 % of the expression. -/
def arrhenius (ea : Nat) (t : Int) : Nat :=
  match arrheniusAt ea t with
  | some x => max (x - x * 5 / 10000) (min (x + x * 5 / 10000) (Config.arrhenius ea t))
  | none => Config.arrhenius ea t

/-- R501, R502: the factor of a sample, the mean or the greatest of its readings' factors. -/
def doseFactor (m : Mx) : Nat :=
  let fs := (doseReadings m).1.map (arrhenius (fld (doseCfg m) 31 24))
  if bit (doseCfg m) 21 then fs.foldl max 0 else fs.foldl (· + ·) 0 / max 1 fs.length

/-- The greatest whole-hour dose of a u64 (00_scope.md R19). -/
def doseTop : Nat := 2 ^ 64 - 1

/-- R503: the whole-hour dose reaches Seeing when it has changed. -/
def deliverDose (m : Mx) : Mx := { m with sg := { m.sg with dose := m.dm.dose } }

/-- Add to the dose, in units of 2^-32 hour; it stays at the greatest u64, since it never decreases (R503, log entry 120). -/
def addDose (m : Mx) (n : Nat) : Mx :=
  let t := m.dm.doseF + n
  let m1 := { m with dm := { m.dm with dose := min doseTop (m.dm.dose + t / 2 ^ 32), doseF := t % 2 ^ 32 } }
  if t / 2 ^ 32 = 0 then m1 else deliverDose m1

/-- R504: the largest forward step that is charged, in ns. -/
def stepMax (m : Mx) : Nat := fld (reg m (doOff 0x90)) 15 0 * 3600000000000

/-- R501, R504: charge the interval since the last integration at the factor sampled when it began. The forward steps reported in
it count as the rest of it does up to DO_STEPMAX; a larger one is not charged, and sets GAP with its record. -/
def integrate (m : Mx) : Mx :=
  let big := m.dm.stepped.filter (fun d => decide (stepMax m < d))
  let n := (m.md.time - m.dm.doseAt - big.foldl (· + ·) 0) * m.dm.factor / (3600000000000 * 2 ^ 32)
  let m := addDose m n
  let m := { m with dm := { m.dm with doseAt := m.md.time, stepped := [], gap := m.dm.gap || !big.isEmpty } }
  each big (fun d m => log m .doseGap 2 (min (d / 1000000) 0xFFFFFFFF)) m

/-- R502: sample the factor for the interval that begins; the fallback's start and end are recorded. -/
def sampleDose (m : Mx) : Mx :=
  let fb := (doseReadings m).2
  let m1 := { m with dm := { m.dm with factor := doseFactor m, fellBack := fb } }
  if fb != m.dm.fellBack then log m1 .tempFallback (bitAt fb 0) else m1

/-- R504, R421: Meridian has stepped forward by `d` ns, already counted in its time. Dome takes the report at once where it runs,
and otherwise when it next integrates. -/
def doseStep (d : Nat) (m : Mx) : Mx :=
  let m := { m with dm := { m.dm with stepped := m.dm.stepped ++ [d] } }
  if domeRuns m then sampleDose (integrate m) else m

/-! ## The counter (R411, R412, R420) -/

/-- R412: the increment of one MREF edge in 2^-32 ns. -/
def increment (f : Int) : Nat := (10 * 2 ^ 32 * (1000000000 + f) / 1000000000).toNat

/-- Phase that a slew removes in one MREF edge, in 2^-32 ns. -/
def slewStep (s : Int) : Int := 10 * 2 ^ 32 * s / 1000000000

/-- R415: what is left of the phase after an edge; the slew ends when none is left. -/
def slewAfter (md : Md) : Int × Int :=
  if md.slewLeft = 0 then (md.slew, 0)
  else
    let l := md.slewLeft - slewStep md.slew
    if (0 < md.slewLeft ∧ l ≤ 0) ∨ (md.slewLeft < 0 ∧ 0 ≤ l) then (0, 0) else (md.slew, l)

/-- R411, R412: Meridian advances by its increment and carries the fraction. -/
def advance (m : Mx) : Mx :=
  let n := m.md.frac + increment (m.md.freq + m.md.slew)
  let s := slewAfter m.md
  { m with md := { m.md with time := m.md.time + n / 2 ^ 32, frac := n % 2 ^ 32, slew := s.1, slewLeft := s.2 } }

/-- The value in MD_LOAD_HI and MD_LOAD_LO. -/
def loadValue (m : Mx) : Nat := (reg m (mdOff 8)).toNat + 2 ^ 32 * (reg m (mdOff 0xC)).toNat

/-- R414: a load, which never moves Meridian back. -/
def doLoad (m : Mx) : Mx :=
  let v := loadValue m
  if v < m.md.time then log { m with md := { m.md with loaderr := true } } .loadErr
  else
    let d := v - m.md.time
    doseStep d { m with md := { m.md with time := v, loaded := true, loaderr := false } }

def syncCfg (m : Mx) : Word := reg m (mdOff 0x18)
def syncPeriod (m : Mx) : Nat := 1000 * fld (reg m (mdOff 0x1C)) 21 0

/-- R418: number of the latest expected time that a Meridian time has reached. -/
def expectedNo (m : Mx) (t : Nat) : Int := ((t : Int) - (reg m (mdOff 0x20)).toNat) / (syncPeriod m : Int)

/-- R418: with OUTEN set, a pulse of 4 MREF periods begins at the edge at which Meridian, `t` before it, first reaches an
expected time. -/
def pulseFrom (t : Nat) (m : Mx) : Mx :=
  if bit (syncCfg m) 30 && decide (expectedNo m t < expectedNo m m.md.time) then { m with gl := { m.gl with msyncOut := 4 } } else m

/-- A LOAD that waits for an MREF edge is made at it (R414). -/
def dueLoad (m : Mx) : Mx := if m.md.loadDue then doLoad { m with md := { m.md with loadDue := false } } else m

/-- One rising edge of MREF; nothing moves while MREF is lost (R420). A LOAD that waits is made at it (R414), MSYNC_OUT follows
it (R418), and the boundary of a slot that Meridian comes to is taken (R422). -/
def mrefEdge (m : Mx) : Mx :=
  if m.md.hold then m
  else slotTurn (pulseFrom m.md.time (dueLoad (advance { m with gl := { m.gl with msyncOut := m.gl.msyncOut - 1 } })))

/-- MREF edges until Meridian reaches a time, at most `n`. -/
def edgesTo (t : Nat) : Nat → Mx → Mx
  | 0, m => m
  | n + 1, m => if m.md.hold ∨ t ≤ m.md.time then m else edgesTo t n (mrefEdge m)

/-- R422: the boundary of the next slot: the MREF edges that bring Meridian to it, or, while MREF is lost, a count of the slot
timer. -/
def boundary (m : Mx) : Mx :=
  if m.md.hold then boundaryAt (m.tr.slot + 1) m else slotTurn (edgesTo (1000 * (m.md.time / 1000 + 1)) 128 m)

/-- What a step does while no command waits: one edge of MREF. -/
def idle (s : State) : Res := act s mrefEdge

/-! ## Discipline (R415–R417) -/

/-- R415: Meridian's value minus the nearest expected time, in (−PERIOD/2, PERIOD/2]. -/
def syncError (m : Mx) : Int :=
  let p : Int := syncPeriod m
  let d : Int := ((m.md.time : Int) - (reg m (mdOff 0x20)).toNat) % p
  if p < 2 * d then d - p else d

/-- R417: LOCK changes. -/
def setLock (b : Bool) (m : Mx) : Mx :=
  if m.md.lock = b then m
  else raise (log { m with md := { m.md with lock := b } } .mdLock (bitAt b 0)) 289

/-- R415: an edge within WINDOW. -/
def acceptEdge (e : Int) (m : Mx) : Mx :=
  let p : Int := syncPeriod m
  let err := (-(e * 1000000000)).tdiv p
  let lim : Int := 1000 * fld (syncCfg m) 23 16
  let good := if e.natAbs ≤ 50 then m.md.good + 1 else 0
  let m := { m with md := { m.md with
      freq := clampI (-200000) 200000 (m.md.freq + err.tdiv (2 ^ fld (syncCfg m) 15 12 : Nat)),
      slew := if e = 0 then 0 else clampI (-lim) lim err, slewLeft := -e * 2 ^ 32, err := e, good := good, behind := [] } }
  if 4 ≤ good then setLock true m else m

/-- R416: amounts that agree within 100 ns. -/
def agree (l : List Nat) : Bool := decide (l.foldl max 0 - l.foldl min (l.headD 0) ≤ 100)

/-- R416: Meridian steps forward. -/
def stepForward (d : Nat) (m : Mx) : Mx :=
  let m := { m with md := { m.md with time := m.md.time + d, steps := satInc m.md.steps 0xFFFF, behind := [] } }
  doseStep d (raise (log m .mdStep d) 288)

/-- R415, R416: an edge outside WINDOW. One that finds Meridian behind leaves FREQ and SLEW as they are (R415 says so of a rejected
edge, and also that SLEW returns to 0 at the next edge; DESIGN CHOICE, log entry 166). -/
def rejectEdge (e : Int) (m : Mx) : Mx :=
  let p : Int := syncPeriod m
  let b := ((-e) % p).toNat
  let m := setLock false { m with md := { m.md with reject := satInc m.md.reject 0xFFFF, good := 0, err := e } }
  if 2 * b ≤ syncPeriod m then
    let l := (m.md.behind ++ [b])
    let l := l.drop (l.length - 3)
    if bit (syncCfg m) 29 && (l.length == 3) && agree l then stepForward b m
    else { m with md := { m.md with behind := l } }
  else { m with md := { m.md with behind := [], slew := -(1000 * fld (syncCfg m) 23 16 : Nat), slewLeft := 0 } }

/-- R415, R416: Meridian takes the error of an edge. -/
def judgeEdge (m : Mx) : Mx :=
  let e := syncError m
  if e.natAbs ≤ 10 * fld (syncCfg m) 11 0 then acceptEdge e m else rejectEdge e m

/-- R414, R415: a rising edge of MSYNC_IN, sampled on MREF. A LOAD that waits for an edge and an armed LOADSYNC load first. -/
def msync (m : Mx) : Mx :=
  if m.md.hold then m
  else
    let l := dueLoad m
    let l := if l.md.armed then doLoad { l with md := { l.md with armed := false } } else l
    slotTurn (pulseFrom m.md.time (onlyIf (bit (syncCfg l) 31) judgeEdge l))

/-- R417: two expected edges in a row have passed without one. -/
def missed (m : Mx) : Mx := setLock false { m with md := { m.md with good := 0 } }

/-! ## Register reads and writes (R437, R438) -/

/-- Reads of the MD registers, by offset. -/
def mdRead (m : Mx) (k : Nat) : Word :=
  if k = 0 then word m.md.time
  else if k = 4 then word (m.md.time / 2 ^ 32)
  else if k = 0x14 then word (bitAt m.md.lock 31 + bitAt m.md.loaded 30 + bitAt m.md.hold 29 + bitAt m.md.loaderr 28)
  else if k = 0x24 then word (unsigned 32 m.md.freq)
  else if k = 0x28 then word (unsigned 32 (clampI (-2147483648) 2147483647 m.md.err))
  else if k = 0x2C then word (65536 * m.md.steps + m.md.reject)
  else if k = 8 ∨ k = 0xC ∨ (0x18 ≤ k ∧ k ≤ 0x20) then reg m (mdOff k)
  else 0

/-- R414: MD_CTRL; the load of LOAD is made at the next MREF edge, which this write waits for (log entry 9). -/
def mdLoad (m : Mx) : Mx := mrefEdge { m with md := { m.md with loadDue := true } }

/-- R414: LOADSYNC arms a load. -/
def mdLoadSync (m : Mx) : Mx := { m with md := { m.md with armed := true } }

/-- R412: with discipline off, FREQ and SLEW are 0. -/
def syncOff (v : Word) (m : Mx) : Mx :=
  if bit v 31 then m else { m with md := { m.md with freq := 0, slew := 0, slewLeft := 0 } }

/-- Writes of the MD registers, by offset; R438 refuses some values. -/
def mdWrite (k : Nat) (v : Word) (m : Mx) : Mx :=
  if k = 8 ∨ k = 0xC then setReg m (mdOff k) v
  else if k = 0x10 then (if bit v 1 then mdLoadSync m else onlyIf (bit v 0) mdLoad m)
  else if k = 0x18 then
    if fld v 23 16 = 0 ∨ fld v 11 0 = 0 then log m (.regRefused 10) (mdOff k)
    else syncOff v (setReg m (mdOff k) (v &&& 0xE0FFFFFF))
  else if k = 0x1C then checkedWrite (decide (1000 ≤ fld v 21 0) && decide (fld v 21 0 ≤ 4000000)) (mdOff k) 0x3FFFFF 0 v m
  else if k = 0x20 then checkedWrite (decide (v.toNat < syncPeriod m)) (mdOff k) 0xFFFFFFFF 0 v m
  else m

/-- R422: the slot timer, which has counted on while Meridian held its value, is realigned to Meridian; what Transit has dated
by the timer moves with it. -/
def realign (m : Mx) : Mx :=
  let k := m.tr.slot - m.md.time / 1000
  { m with tr := { m.tr with slot := m.tr.slot - k,
                             holds := m.tr.holds.map (fun h => { h with anchor := h.anchor.map (fun a => a - k) }),
                             reqs := m.tr.reqs.map (fun q => { q with made := q.made - k }) } }

/-- R420, R422: MREF is back. -/
def mrefBack (m : Mx) : Mx :=
  if m.md.hold then slotTurn (realign { m with md := { m.md with hold := false } }) else m

/-! ## Meanings -/

/-- MREF_RETURN (R420): Meridian advances again from the held value. -/
def execMrefReturn (s : State) : Res :=
  act s (fun m => mrefBack { m with gl := { m.gl with lost := m.gl.lost.filter (fun c => c != .mref) } })

/-- SLOT_BOUNDARY (R422, R427). -/
def execSlotBoundary (s : State) : Res := act s boundary

/-- LOAD (R414). -/
def execLoad (s : State) : Res := act s (access (mdOff 0x10) true mdLoad)

/-- LOADSYNC (R414). -/
def execLoadSync (s : State) : Res := act s (access (mdOff 0x10) true mdLoadSync)

/-- MSYNC_EDGE (R415, R416). -/
def execMsyncEdge (s : State) : Res := act s msync

/-- MISSED_EDGES (R417). -/
def execMissedEdges (s : State) : Res := act s missed

/-- R418: the last MREF edge, 10 ns long, was the one at which Meridian first reached an expected time. -/
def atExpected (m : Mx) : Bool := decide (((m.md.time : Int) - (reg m (mdOff 0x20)).toNat) % (syncPeriod m : Int) < 10)

/-- MSYNC_OUT_PULSE (R418): with OUTEN set, the pulse of an expected time that Meridian has just reached begins. -/
def execMsyncOutPulse (s : State) : Res :=
  act s (fun m => onlyIf (bit (syncCfg m) 30 && !m.md.hold && atExpected m)
    (fun m => { m with gl := { m.gl with msyncOut := 4 } }) m)

/-- DOSE_INTEGRATION (R501): while Dome runs. -/
def execDoseIntegration (s : State) : Res := act s (fun m => onlyIf (domeRuns m) (fun m => sampleDose (integrate m)) m)

end Sys2Proof.Machine
end

