-- ==== Sys2Proof/Machine/StageBuffer.lean ====
section
/-! DEFINITION. The stage buffer (12_stage_buffer.md): lines and their checks, reservations, the leaky bucket, the
repeat tracker, the patrol scrubber, spare lines and the diagnostic aperture. Lines are addressed in the data space;
spares serve the addresses mapped to them (R459). -/

namespace Sys2Proof.Machine

/-- Lines of the data space (R440). -/
def sbLines : Nat := 524288

/-- R442, R12: the request a bank serves at one CCLK, among those waiting for it, each with its fabric port and in order of
arrival: the port with the highest number wins, and each port serves its own in order. In the maintenance cycle, every 256th,
only ports 5 and below take part where any of them requests. Cycles are time, which the model leaves out, so no command asks
this of a bank. -/
def bankServes {α : Type} (cycle : Nat) (l : List (Nat × α)) : Option (Nat × α) :=
  let low := l.filter (fun x => decide (x.1 ≤ 5))
  let l := if cycle % 256 = 255 ∧ !low.isEmpty then low else l
  l.find? (fun x => l.all (fun y => decide (y.1 ≤ x.1)))

def bankOf (l : Nat) : Nat := l % 64
def idxOf (l : Nat) : Nat := l / 64
def lineAt (bank idx : Nat) : Nat := 64 * idx + bank

/-- R446: a line's WRITTEN bit. -/
def isWritten (m : Mx) (l : Nat) : Bool := m.sb.allWritten || m.sb.written.contains l

def leakLim (m : Mx) : Nat := fld (reg m (sbOff 0xC)) 15 0
def leakPer (m : Mx) : Nat := fld (reg m (sbOff 8)) 15 0
def scrubPeriod (m : Mx) : Nat := fld (reg m (sbOff 0x20)) 15 0

/-! ## The leaky bucket (R454) -/

/-- R454: one correction. -/
def leak (m : Mx) : Mx :=
  let m := { m with sb := { m.sb with corr := satInc m.sb.corr 0xFFFFFFFF } }
  if leakLim m = 0 then raise (log m .sbLeak) 279
  else if m.sb.alarm then m
  else if leakLim m < m.sb.count + 1 then
    raise (log { m with sb := { m.sb with count := leakLim m, alarm := true } } .sbLeak) 279
  else { m with sb := { m.sb with count := m.sb.count + 1 } }

/-- R454: one drain. -/
def drain (m : Mx) : Mx :=
  let c := m.sb.count - 1
  { m with sb := { m.sb with count := c, alarm := m.sb.alarm && !decide (c < leakLim m / 2) } }

/-! ## The repeat tracker (R453, R457) -/

/-- The tracker's entry for a line. -/
def trackOf (m : Mx) (l : Nat) : Option (Nat × Track) := m.sb.trk.find? (fun x => x.2.line == l)

def setTrack (m : Mx) (i : Nat) (t : Track) : Mx := { m with sb := { m.sb with trk := tabSet m.sb.trk i t } }

/-- Free a line's tracker entry. -/
def freeTrack (m : Mx) (l : Nat) : Mx := { m with sb := { m.sb with trk := m.sb.trk.filter (fun x => x.2.line != l) } }

/-- R457: the entry that may be taken over: the lowest COUNT, the oldest winning a tie. -/
def trackVictim (l : List (Nat × Track)) : Option Nat :=
  (l.foldl (fun b x =>
    if x.2.sticky || x.2.ue then b
    else match b with
      | none => some x
      | some y => if x.2.count < y.2.count ∨ (x.2.count = y.2.count ∧ x.2.age < y.2.age) then some x else b) none).map (·.1)

/-- R457: a place for a line with no entry. -/
def trackPlace (m : Mx) : Option Nat :=
  match (List.range 64).find? (fun i => m.sb.trk.all (fun x => x.1 != i)) with
  | some i => some i
  | none => trackVictim m.sb.trk

/-- The entry of a line, taken if it has none; none where the line cannot be tracked. -/
def takeTrack (m : Mx) (l : Nat) : Option (Nat × Track) × Mx :=
  match trackOf m l with
  | some x => (some x, m)
  | none =>
    match trackPlace m with
    | some i => (some (i, { line := l, age := m.sb.trkAge }), { m with sb := { m.sb with trkAge := m.sb.trkAge + 1 } })
    | none => (none, { m with sb := { m.sb with trkFull := true } })

/-- R457: the entry's COUNT has reached 3. -/
def becomeSticky (m : Mx) (l : Nat) : Mx :=
  let a := word (2 ^ 31 + 2 ^ 13 * bankOf l + idxOf l)
  let m := { m with sb := { m.sb with stickyAddr := if bit m.sb.stickyAddr 31 then m.sb.stickyAddr else a } }
  raise (log m .sbSticky (bankOf l) (idxOf l)) 280

/-- R457: a correction at a line, at most one in a pass. -/
def trackCorrection (m : Mx) (l : Nat) : Mx :=
  let r := takeTrack m l
  match r.1 with
  | none => r.2
  | some (i, t) =>
    if t.hit then r.2
    else
      let t' := { t with hit := true, count := min 3 (t.count + 1) }
      if t'.count = 3 ∧ t.sticky = false then becomeSticky (setTrack r.2 i { t' with sticky := true }) l
      else setTrack r.2 i t'

/-! ## Stored bytes -/

/-- The stored byte and check bits at a data-space byte. -/
def stored (m : Mx) (a : Nat) : Byte × BitVec 5 := (memGet m.sb.data a, BitVec.ofNat 5 (memGet m.sb.chk a).toNat)

/-- Store a byte with the check bits of R444. -/
def storeByte (m : Mx) (a : Nat) (b : Byte) : Mx :=
  { m with sb := { m.sb with data := memSet m.sb.data a b, chk := memSet m.sb.chk a (BitVec.ofNat 8 (checkBits b).toNat) } }

/-- R446, R453: a line has been written. -/
def lineWritten (m : Mx) (l : Nat) : Mx :=
  let m := if isWritten m l then m else { m with sb := { m.sb with written := insN m.sb.written l } }
  match trackOf m l with
  | some (i, t) => if t.ue && !t.rewritten then setTrack m i { t with rewritten := true } else m
  | none => m

/-- Store bytes from a data-space byte upward, within one line. -/
def storeBytes : Mx → Nat → List Byte → Mx
  | m, _, [] => m
  | m, a, b :: bs => storeBytes (lineWritten (storeByte m a b) (a / 128)) (a + 1) bs

/-! ## Accesses (R445, R446, R452) -/

/-- R452: an access has returned an uncorrectable used byte. -/
def reportUe (m : Mx) (port l byte : Nat) (uninit : Bool) : Mx :=
  let a := word (2 ^ 31 + bitAt uninit 30 + 2 ^ 26 * port + 2 ^ 20 * bankOf l + 2 ^ 7 * idxOf l + byte)
  let m := { m with sb := { m.sb with ue := satInc m.sb.ue 0xFFFFFFFF,
                                      ueAddr := if bit m.sb.ueAddr 31 then m.sb.ueAddr else a } }
  let m := if uninit then m else log m .sbUe (bankOf l) (idxOf l) byte
  raise m 278

/-- R445, R446, R452, R454, R457: one access: `n` used bytes of a line from byte `off`; answers the bytes as delivered and whether one
was uncorrectable. -/
def accessLine (m : Mx) (port l off n : Nat) : List Byte × Bool × Mx :=
  let rs := (List.range n).map (fun i => let s := stored m (128 * l + off + i); checkByte s.1 s.2)
  if !isWritten m l then
    ((List.range n).map (fun i => (stored m (128 * l + off + i)).1), true, reportUe m port l off true)
  else
    let k := (rs.filter (fun r => r.2 == .corrected)).length
    let m := each (List.range k) (fun _ m => leak m) m
    let m := if k = 0 then m else trackCorrection m l
    match rs.findIdx? (fun r => r.2 == .uncorrectable) with
    | some i => (rs.map (·.1), true, reportUe m port l (off + i) false)
    | none => (rs.map (·.1), false, m)

/-! ## Spare lines and retirement (R458) -/

/-- R458: copy a line into a spare, which reads it once, on port 5 (R442): correctable bytes corrected, the others, which all bytes of
a line not WRITTEN are (R446), as they are. What the read finds is reported as any access reports it (R452, R454, R457). -/
def copyLine (m : Mx) (l : Nat) : Mx :=
  let x := (accessLine m 5 l 0 128).2.2
  each (if isWritten m l then List.range 128 else []) (fun i x =>
    let a := 128 * l + i
    let s := stored m a
    match checkByte s.1 s.2 with
    | (b, .corrected) => storeByte x a b
    | _ => x) x

/-- R458: retire a line into a spare, or fence it. -/
def retireLine (l : Nat) (m : Mx) : Mx :=
  let b := bankOf l
  let n := tabGet 0 m.sb.spareUse b
  let m := if n < 32 then
      let m := copyLine m l
      freeTrack { m with sb := { m.sb with spare := tabSet m.sb.spare l n, spareUse := tabSet m.sb.spareUse b (n + 1),
                                           retRes := 1 } } l
    else { m with sb := { m.sb with fenced := insN m.sb.fenced l, retRes := 2 } }
  raise (log m .sbRetired b (idxOf l)) 281

/-- R453: an uncorrectable result at a WRITTEN line is tracked; a second after a rewrite retires the line. -/
def trackUe (m : Mx) (l : Nat) : Mx :=
  let r := takeTrack m l
  match r.1 with
  | none => r.2
  | some (i, t) =>
    if t.ue && t.rewritten then retireLine l (setTrack r.2 i { t with rewritten := false })
    else setTrack r.2 i { t with ue := true, rewritten := false }

/-! ## Reads -/

/-- R452, R453: an access, whose uncorrectable result at a WRITTEN line is tracked. -/
def readLine (m : Mx) (port l off n : Nat) : List Byte × Bool × Mx :=
  let r := accessLine m port l off n
  if r.2.1 && isWritten m l then (r.1, true, trackUe r.2.2 l) else r

/-- Accesses to the lines of a byte range given by the lines that hold it: `ls` are data-space lines in order, `off`
the byte within the first. -/
def readLines (port : Nat) : List Nat → Nat → Nat → Mx → List Byte × Bool × Mx
  | [], _, _, m => ([], false, m)
  | l :: ls, off, n, m =>
    if n = 0 then ([], false, m)
    else
      let k := min n (128 - off)
      let r := readLine m port l off k
      let q := readLines port ls 0 (n - k) r.2.2
      (r.1 ++ q.1, r.2.1 || q.2.1, q.2.2)

/-! ## Reservations (R448–R451) -/

/-- The reservation an owner holds. -/
def resvOf (m : Mx) (o : ROwner) : Option Resv := m.sb.resv.find? (fun r => r.owner == o)

/-- The lines of an owner's reservation. -/
def resvLines (m : Mx) (o : ROwner) : List Nat := ((resvOf m o).map (·.lines)).getD []

/-- Read `n` bytes of a reservation from byte `off` of its own space. -/
def resvRead (m : Mx) (o : ROwner) (port off n : Nat) : List Byte × Bool × Mx :=
  readLines port ((resvLines m o).drop (off / 128)) (off % 128) n m

/-- Write bytes into a reservation from byte `off` of its own space. -/
def resvWrite (m : Mx) (o : ROwner) (off : Nat) (bs : List Byte) : Mx :=
  let ls := resvLines m o
  (bs.foldl (fun (x : Mx × Nat) b =>
    match ls[x.2 / 128]? with
    | some l => (lineWritten (storeByte x.1 (128 * l + x.2 % 128) b) l, x.2 + 1)
    | none => (x.1, x.2 + 1)) (m, off)).1

def clsMin (m : Mx) (c : Nat) : Nat := fld (reg m (sbOff (0x40 + 4 * c))) 19 0
def clsMax (m : Mx) (c : Nat) : Nat := fld (reg m (sbOff (0x60 + 4 * c))) 19 0
def clsUsed (m : Mx) (c : Nat) : Nat := m.sb.resv.foldl (fun a r => if r.cls = c then a + r.lines.length else a) 0

/-- R449: lines not fenced. -/
def pool (m : Mx) : Nat := sbLines - m.sb.fenced.length

/-- A line inside some reservation. -/
def reserved (m : Mx) (l : Nat) : Bool := m.sb.resv.any (fun r => r.lines.contains l)

def freeLines (m : Mx) : Nat :=
  pool m - m.sb.resv.foldl (fun a r => a + (r.lines.filter (fun l => !m.sb.fenced.contains l)).length) 0

def sumMin (m : Mx) : Nat := (List.range 5).foldl (fun a c => a + clsMin m c) 0

/-- R449: the grant test. Lines within the class's own minimum are not asked of the shared part (R462). -/
def grantOk (m : Mx) (c n : Nat) : Bool :=
  let shared := (List.range 5).foldl (fun a k => a + (clsUsed m k - clsMin m k)) 0
  let extra := (clsUsed m c + n - clsMin m c) - (clsUsed m c - clsMin m c)
  decide (clsUsed m c + n ≤ clsMax m c) && (extra == 0 || decide (extra + sumMin m + shared ≤ pool m)) &&
  decide (n ≤ freeLines m)

/-- The oldest request of a class. -/
def oldest (m : Mx) (c : Nat) : Option RReq := m.sb.wait.find? (fun r => r.cls == c)

/-- R450: the classes whose oldest request fails its test as it stands, or has failed it and waits for a release. -/
def testAgain (keep : Nat → Bool) (m : Mx) : Mx :=
  { m with sb := { m.sb with failed := (List.range 5).filter (fun c =>
      match oldest m c with
      | none => false
      | some r => (keep c && m.sb.failed.contains c) || !grantOk m r.cls r.n) } }

/-- R450: the class whose oldest request is granted next: the highest that passes. A request that has failed is tested again only
when lines are released. -/
def nextGrant (m : Mx) : Option RReq :=
  ([4, 3, 2, 1, 0].filterMap (oldest m)).find? (fun r => !m.sb.failed.contains r.cls && grantOk m r.cls r.n)

/-- A line of a bank that may be granted: free and not fenced. -/
def freeAt (m : Mx) (taken : List Nat) (l : Nat) : Bool :=
  decide (l < sbLines) && !m.sb.fenced.contains l && !reserved m l && !taken.contains l

/-- The lines of a bank that may still be granted beside those already chosen, which are free. -/
def bankRoom (m : Mx) (taken : List Nat) (b : Nat) : Nat :=
  let held := (m.sb.resv.flatMap (·.lines)).filter (fun l => (bankOf l == b) && !m.sb.fenced.contains l)
  8192 - ((m.sb.fenced.filter (fun l => bankOf l == b)).length + held.length + (taken.filter (fun l => bankOf l == b)).length)

/-- R448: each line stands in the bank after the one before it, past banks that have no line free. -/
def inBanks (m : Mx) : List Nat → List Nat → Bool
  | _, [] => true
  | _, [_] => true
  | taken, a :: b :: ls =>
    let past := (List.range ((bankOf b + 63 - bankOf a) % 64)).map (fun i => (bankOf a + 1 + i) % 64)
    past.all (fun k => bankRoom m (a :: taken) k == 0) && inBanks m (a :: taken) (b :: ls)

/-- R448: lines that may be granted together: free, not fenced, distinct and in the data space, in consecutive banks as far as free
lines allow. -/
def grantable (m : Mx) (n : Nat) (ls : List Nat) : Bool :=
  (ls.length == n) && decide ls.Nodup && ls.all (freeAt m []) && inBanks m [] ls

/-- The lines the complex takes itself, bank after bank, the lowest free one of each. -/
def pickLines (m : Mx) : Nat → Nat → List Nat → List Nat
  | 0, _, _ => []
  | n + 1, b, taken =>
    match (List.range 64).findSome? (fun i =>
        ((List.range 8192).find? (fun j => freeAt m taken (lineAt ((b + i) % 64) j))).map (lineAt ((b + i) % 64))) with
    | some l => l :: pickLines m n (bankOf l + 1) (l :: taken)
    | none => []

/-- R448: lines for a reservation that the complex grants within a step. -/
def lowLines (m : Mx) (n : Nat) : List Nat := pickLines m n 0 []

/-- Ask for a reservation: it waits in its class, and is tested at once where none of the class waits before it (R450). -/
def askResv (m : Mx) (o : ROwner) (c bytes : Nat) : Mx :=
  testAgain (fun _ => true)
    { m with sb := { m.sb with wait := m.sb.wait ++ [{ owner := o, cls := c, n := (bytes + 127) / 128 }] } }

/-- Give a request its lines; the request of its class that is then oldest is tested at once (R450). -/
def giveResv (m : Mx) (r : RReq) (ls : List Nat) : Mx :=
  testAgain (fun c => c != r.cls)
    { m with sb := { m.sb with wait := m.sb.wait.erase r, resv := m.sb.resv ++ [{ owner := r.owner, cls := r.cls, lines := ls }] } }

/-- Free an owner's lines and drop its request. A release has the oldest request of every class tested again, and the request that
becomes its class's oldest is tested at once (R450). -/
def freeResv (m : Mx) (o : ROwner) : Mx :=
  let held := m.sb.resv.any (fun r => r.owner == o)
  let first (c : Nat) : Bool := (oldest m c).any (fun r => r.owner == o)
  if held || m.sb.wait.any (fun r => r.owner == o) then
    testAgain (fun c => !held && !first c)
      { m with sb := { m.sb with resv := m.sb.resv.filter (fun r => r.owner != o), wait := m.sb.wait.filter (fun r => r.owner != o) } }
  else m

/-! ## Patrol scrubber (R455, R456) -/

/-- Written lines that hold anything but zeros; every other line reads clean. -/
def scrubLines (m : Mx) : List Nat :=
  ((m.sb.data ++ m.sb.chk).foldl (fun l c => insN l (c.1 / 128)) []).filter (fun l => isWritten m l && !m.sb.fenced.contains l)

/-- R455: one line of a pass. -/
def scrubLine (l : Nat) (m : Mx) : Mx :=
  let r := readLine m 0 l 0 128
  if r.2.1 then r.2.2
  else
    let m0 := r.2.2
    (r.1.foldl (fun (x : Mx × Nat) b =>
      let a := 128 * l + x.2
      (if stored x.1 a = (b, checkBits b) then x.1 else storeByte x.1 a b, x.2 + 1)) (m0, 0)).1

/-- R457: at the end of a pass, an entry with no correction in it is freed. -/
def trackPass (m : Mx) : Mx :=
  { m with sb := { m.sb with
      trk := (m.sb.trk.filter (fun x => x.2.hit || x.2.sticky || x.2.ue)).map (fun x => (x.1, { x.2 with hit := false })) } }

/-- Start a pass; the stage buffer's self-test holds scrubbing off (R462). -/
def scrubStart (m : Mx) : Mx :=
  if m.sb.scrub || (m.gl.phase == .bist) then m else { m with sb := { m.sb with scrub := true, scrubAt := m.md.time, scrubPos := 0 } }

/-- R456: a pass that started at a time has not finished within twice PERIOD. -/
def scrubOver (m : Mx) (start : Nat) : Bool := (scrubPeriod m != 0) && decide (start + 2000000 * scrubPeriod m ≤ m.md.time)

/-- R455: a pass, whole. Where it has run past twice PERIOD, the next begins as it ends (R456). -/
def scrubAll (m : Mx) : Mx :=
  let m := scrubStart m
  let m := trackPass (each (scrubLines m) scrubLine m)
  let m := { m with sb := { m.sb with
      scrub := false, scrubPos := sbLines - 1, passes := satInc m.sb.passes 0xFFF,
      late := m.sb.late && !decide (m.md.time ≤ m.sb.scrubAt + 1000000 * scrubPeriod m) } }
  if scrubOver m m.sb.scrubAt then scrubStart m else m

/-- R455, R456: when the pass now running began: the one in progress, or the one PERIOD has started since (log entry 154). -/
def passStart (m : Mx) : Nat := if m.sb.scrub then m.sb.scrubAt else m.sb.scrubAt + 1000000 * scrubPeriod m

/-- R456: the pass now running is late. -/
def scrubLate (m : Mx) : Mx :=
  log { m with sb := { m.sb with
      late := true, scrub := true, scrubAt := passStart m, scrubPos := if m.sb.scrub then m.sb.scrubPos else 0 } } .scrubLate

/-! ## Diagnostic aperture (R460) -/

/-- Data-space byte of an aperture offset. -/
def apByte (m : Mx) (a : Nat) : Nat :=
  128 * lineAt (8 * fld (reg m (sbOff 0x3C)) 2 0 + a / 2 ^ 20 % 8) (a / 128 % 8192) + a % 128

def apCheck (m : Mx) : Bool := bit (reg m (sbOff 0x3C)) 31

/-- R460: a write through the aperture. -/
def apWrite (a : Nat) (v : Word) (m : Mx) : Mx :=
  let b := apByte m a
  if apCheck m then
    { m with sb := { m.sb with chk := memWrite m.sb.chk b ((leBytes 4 v.toNat).map (fun x => x &&& 0x1F)) } }
  else storeBytes m b (leBytes 4 v.toNat)

/-- R460: a read through the aperture. -/
def apRead (a : Nat) (m : Mx) : Mx :=
  let b := apByte m a
  if apCheck m then answer m (word (leNat (memRead m.sb.chk b 4)))
  else
    let r := readLine m 4 (b / 128) (b % 128) 4
    answer r.2.2 (word (leNat r.1))

/-! ## Register reads and writes (R463, R464) -/

/-- Reads of the SB block, by offset. -/
def sbRead (m : Mx) (k : Nat) : Word :=
  if k = 0 then word (bitAt m.sb.late 31 + bitAt m.sb.trkFull 30 + pool m)
  else if k = 0x10 then word (bitAt m.sb.alarm 31 + m.sb.count)
  else if k = 0x14 then word m.sb.corr
  else if k = 0x18 then word m.sb.ue
  else if k = 0x1C then m.sb.ueAddr
  else if k = 0x24 then word (2 ^ 20 * m.sb.passes + m.sb.scrubPos)
  else if k = 0x28 then m.sb.stickyAddr
  else if k = 0x30 then
    (match m.sb.trk.find? (fun x => x.1 == fld (reg m (sbOff 0x2C)) 5 0) with
     | some (_, t) => word (2 ^ 31 + bitAt t.sticky 30 + bitAt t.ue 29 + 2 ^ 19 * t.count + 2 ^ 13 * bankOf t.line + idxOf t.line)
     | none => 0)
  else if k = 0x38 then word m.sb.retRes
  else if 0x80 ≤ k ∧ k ≤ 0x90 then
    word (2 ^ 20 * min 0xFFF (m.sb.wait.filter (fun r => r.cls == (k - 0x80) / 4)).length + clsUsed m ((k - 0x80) / 4))
  else if 0x100 ≤ k ∧ k < 0x200 then
    let b := (k - 0x100) / 4
    word (65536 * (m.sb.fenced.filter (fun l => bankOf l == b)).length + tabGet 0 m.sb.spareUse b)
  else if k = 8 ∨ k = 0xC ∨ k = 0x20 ∨ k = 0x2C ∨ k = 0x3C ∨ (0x40 ≤ k ∧ k ≤ 0x50) ∨ (0x60 ≤ k ∧ k ≤ 0x70) then reg m (sbOff k)
  else 0

/-- R450: the floor of a class minimum. -/
def clsFloor (c : Nat) : Nat := [733, 644, 725, 1288, 8192].getD c 0

/-- R451: a write of a class minimum. -/
def minWrite (c : Nat) (v : Word) (m : Mx) : Mx :=
  let n := fld v 19 0
  checkedWrite (decide (clsFloor c ≤ n) && decide (n ≤ clsMax m c) && decide (sumMin m - clsMin m c + n ≤ pool m))
    (sbOff (0x40 + 4 * c)) 0xFFFFF 0 v m

/-- SB_CTRL's bits. -/
def clearBucket (m : Mx) : Mx := { m with sb := { m.sb with count := 0, alarm := false } }
def clearTracker (m : Mx) : Mx := { m with sb := { m.sb with trk := [], trkFull := false } }
def clearCounts (m : Mx) : Mx := { m with sb := { m.sb with corr := 0, ue := 0 } }

/-- R454: a write of LIM clamps COUNT. -/
def limWrite (v : Word) (m : Mx) : Mx :=
  let m := setReg m (sbOff 0xC) (v &&& 0xFFFF)
  { m with sb := { m.sb with count := min m.sb.count (leakLim m) } }

/-- Writes of the SB block, by offset. -/
def sbWrite (k : Nat) (v : Word) (m : Mx) : Mx :=
  if k = 4 then
    onlyIf (bit v 1) scrubStart (onlyIf (bit v 2) clearTracker (onlyIf (bit v 3) clearBucket (onlyIf (bit v 0) clearCounts m)))
  else if k = 8 ∨ k = 0x20 then setReg m (sbOff k) (v &&& 0xFFFF)
  else if k = 0xC then limWrite v m
  else if k = 0x1C then { m with sb := { m.sb with ueAddr := if bit v 31 then m.sb.ueAddr &&& 0x7FFFFFFF else m.sb.ueAddr } }
  else if k = 0x28 then
    { m with sb := { m.sb with stickyAddr := if bit v 31 then m.sb.stickyAddr &&& 0x7FFFFFFF else m.sb.stickyAddr } }
  else if k = 0x2C then setReg m (sbOff k) (v &&& 0x3F)
  else if k = 0x34 then retireLine (lineAt (fld v 18 13) (fld v 12 0)) m
  else if k = 0x3C then setReg m (sbOff k) (v &&& 0x80000007)
  else if 0x40 ≤ k ∧ k ≤ 0x50 then minWrite ((k - 0x40) / 4) v m
  else if 0x60 ≤ k ∧ k ≤ 0x70 then checkedWrite (decide (clsMin m ((k - 0x60) / 4) ≤ fld v 19 0)) (sbOff k) 0xFFFFF 0 v m
  else m

/-! ## Meanings -/

/-- LEAK_DRAIN (R454): no drain where PER is 0. -/
def execLeakDrain (s : State) : Res := act s (fun m => onlyIf (leakPer m != 0) drain m)

/-- CLRBKT (R454). -/
def execClrBkt (s : State) : Res := act s (access (sbOff 4) true clearBucket)

/-- CLRTRK (R457). -/
def execClrTrk (s : State) : Res := act s (access (sbOff 4) true clearTracker)

/-- SCRUBNOW (R455). -/
def execScrubNow (s : State) : Res := act s (access (sbOff 4) true scrubStart)

/-- CLRCNT (R464). -/
def execClrCnt (s : State) : Res := act s (access (sbOff 4) true clearCounts)

/-- SCRUB_PASS (R455): a pass that PERIOD starts, or one that SCRUBNOW has started; none in the self-test (R462). -/
def execScrubPass (s : State) : Res :=
  act s (fun m => onlyIf ((scrubPeriod m != 0 || m.sb.scrub) && (m.gl.phase != .bist)) scrubAll m)

/-- SCRUBLATE (R456). -/
def execScrubLate (s : State) : Res :=
  act s (fun m => onlyIf (scrubOver m (passStart m) && (m.gl.phase != .bist)) scrubLate m)

/-- RETIRE (R458). -/
def execRetire (bank line : Nat) (s : State) : Res :=
  act s (onlyIf (decide (bank < 64) && decide (line < 8192)) (access (sbOff 0x34) true (retireLine (lineAt bank line))))

/-- APERTURE_WRITE (R460). -/
def execApertureWrite (a : Nat) (val : Word) (s : State) : Res :=
  act s (onlyIf (decide (a < 0x800000)) (access (0x800000 + a) true (apWrite a val)))

/-- APERTURE_READ (R460, R452). -/
def execApertureRead (a : Nat) (s : State) : Res :=
  act s (onlyIf (decide (a < 0x800000)) (access (0x800000 + a) false (apRead a)))

end Sys2Proof.Machine
end

