-- ==== Sys2Proof/Machine/Entries.lean ====
section
/-! DEFINITION. Entries in progress: their codewords and frames, the outcome of R136, the fields of the completion
(03_queues.md R130–R139, R563) and the ring-level errors of R108. -/

namespace Sys2Proof.Machine

/-! ## Opcodes (04_commands.md R147) -/

/-- Opcodes of the complex. -/
def isOpcode (o : Nat) : Bool :=
  [0x01, 0x02, 0x03, 0x04, 0x05, 0x06, 0x08, 0x09, 0x0A, 0x0B, 0x10, 0x11, 0x12, 0x18, 0x19, 0x1A, 0x20, 0x28].contains o

/-- Opcodes whose completion reports codewords (R132). -/
def decodes (o : Nat) : Bool := o == 0x01 || o == 0x20 || o == 0x04

/-- Source and destination profile of an entry. -/
def eSrcProf (e : Ent) : Nat := eProfile e % 16
def eDstProf (e : Ent) : Nat := if eOpc e = 4 then eProfile e / 16 else eProfile e % 16

/-- Die, row and planes of the array work in hand: the source, or COPY's destination. -/
def wDie (e : Ent) : Nat := if e.dst then eDdie e else eDie e
def wRow (e : Ent) : Nat := if e.dst then eDrow e else eRow e
def wPlanes (e : Ent) : Nat := (if e.dst then eDplanes e else ePlanes e) % 16
def wProf (e : Ent) : Nat := if e.dst then eDstProf e else eSrcProf e

/-- Bytes from one frame to the next in the entry's reservation (R190). -/
def eStride (e : Ent) : Nat := frameLen (wProf e)

/-- R369: slot of codeword `i` of the entry, 4 times its plane plus its index in the page (R156); an internal read
names its slots. -/
def eSlot (e : Ent) (i : Nat) : Nat :=
  if e.slots ≠ [] then e.slots.getD i 0
  else if planeCount (wPlanes e) = 1 then 4 * (planeList (wPlanes e)).headD 0 + (eCol e % 4 + i) % 4
  else 4 * (planeList (wPlanes e)).getD (i / 4) 0 + i % 4

/-- Index within its page, and plane, of codeword `i`. -/
def eCwi (e : Ent) (i : Nat) : Nat := eSlot e i % 4
def ePlane (e : Ent) (i : Nat) : Nat := eSlot e i / 4

/-- Whose reservation an entry's work uses. -/
def resOwner (eid : Nat) : ROwner :=
  if eid < 2 ^ 30 then .entry eid else if eid < 2 ^ 31 then .member (eid - 2 ^ 30)
  else if eid < 2 ^ 32 then .spec (eid - 2 ^ 31) else if eid < 2 ^ 33 then .sys (eid - 2 ^ 32) else .entry (eid - 2 ^ 33)

/-! ## Outcomes (R34, R136) -/

def CwOut.delivered : CwOut → Bool
  | .good _ => true
  | .warn _ => true
  | _ => false

def CwOut.settled : CwOut → Bool
  | .pending => false
  | _ => true

def CwOut.failed : CwOut → Bool
  | .failDecode | .failRebuild | .failMeta => true
  | _ => false

def CwOut.corr : CwOut → Nat
  | .good n => n
  | .warn n => n
  | _ => 0

/-- R139: the reason of an UNCORRECTABLE codeword. -/
def CwOut.detail : CwOut → Nat
  | .failDecode => 1
  | .failRebuild => 2
  | .failMeta => 3
  | _ => 0

/-- R136: STATUS and DETAIL of the outcomes of an entry's codewords. -/
def outcome (l : List CwOut) : Nat × Nat :=
  match l.find? CwOut.failed with
  | some x => (0x2000, x.detail)
  | none =>
    if l.contains .erased then (0x2100, 0)
    else if l.any (fun x => match x with | .warn _ => true | _ => false) then (0x0001, 0)
    else (0x0000, 0)

/-- A mask of the codewords of which something holds. -/
def cwMask (n : Nat) (p : Nat → Bool) : Nat := (List.range n).foldl (fun a i => a + bitAt (p i) i) 0

/-- Outcome of codeword `i`. -/
def cwAt (e : Ent) (i : Nat) : CwOut := (e.cws[i]?).getD .pending

/-- Replace the outcome of codeword `i`. -/
def setCw (e : Ent) (i : Nat) (o : CwOut) : Ent := { e with cws := e.cws.set i o }

def stepOf (e : Ent) (i : Nat) : Nat := tabGet 0 e.steps i

/-- Ladder step that delivers a codeword reconstructed from its stripe. -/
def rebuildStep : Nat := 16

/-! ## The completion's summary of a read (R131, 08_codec.md R324, 09_seeing.md R352, R359) -/

/-- R359: USE of a codeword. -/
def useOf (e : Ent) (c : Nat) : Nat := min 255 (256 * c / hardCap (eSrcProf e))

/-- R359: of the delivered codewords, the one with the greatest CORR, the lowest winning a tie. -/
def worstCw (l : List (Nat × (Nat × Nat × Nat × Int))) : Option (Nat × Nat × Nat × Int) :=
  l.foldl (fun b x => match b with
    | none => some x.2
    | some y => if y.1 < x.2.1 then some x.2 else some y) none

/-- R359: MARGIN from the codewords of which `p` holds. -/
def marginOf (e : Ent) (p : Nat → Bool) : Word :=
  let l := e.marg.filter (fun x => p x.1)
  match worstCw l with
  | none => word (2 ^ 24 * 0xFF + 2 ^ 8 * e.bin)
  | some (_, _, lvl, sh) =>
    let use := l.foldl (fun a x => max a (useOf e x.2.1)) 0
    let weak := l.foldl (fun a x => max a (min 255 (x.2.2.1 / 16))) 0
    word (2 ^ 24 * use + 2 ^ 16 * weak + 2 ^ 12 * (lvl - 1) + 2 ^ 8 * e.bin + unsigned 8 sh)

/-- Fill the fields that report the codewords, those of which `p` holds being delivered. -/
def summarise (e : Ent) (p : Nat → Bool) : Ent :=
  let n := e.cws.length
  let cs := (List.range n).filter p
  let ks := cs.map (fun i => (cwAt e i).corr)
  let top := e.steps.foldl (fun a x => max a x.2) 0
  { e with cwfail := cwMask n (fun i => !p i), corrMax := ks.foldl max 0, corrSum := min 0xFFFF (ks.foldl (· + ·) 0),
           step := top, margin := marginOf e p, retried := decide (0 < top),
           rebuilt := cs.any (fun i => stepOf e i == rebuildStep) }

/-- R563: no codeword has been decoded. -/
def undecoded (e : Ent) : Ent :=
  { e with cwfail := cwMask e.cws.length (fun _ => true), margin := 0xFF000000, corrMax := 0, corrSum := 0, step := 0,
           retried := false, rebuilt := false, softUsed := false, specUsed := false }

/-- What an entry cut short, or failed by its die, reports: its codewords, or that none has been decoded (R563). -/
def cutReport (e : Ent) (p : Nat → Bool) : Ent := if e.cws.all (fun x => !x.settled) then undecoded e else summarise e p

/-! ## Orders and lanes (R313, R319, R326) -/

/-- R326: the cluster that serves a group. -/
def servedBy (m : Mx) (g : Nat) : Nat := (codec m g).served.getD g

/-- Insert a frame at its place in an order. -/
def refIns (x : CwRef) : List CwRef → List CwRef
  | [] => [x]
  | y :: t => if x.ord < y.ord then x :: y :: t else y :: refIns x t

/-- A frame has become ready for a hard lane (0), a soft lane (1) or an encoder (2). -/
def enqueue (kind : Nat) (x : CwRef) (m : Mx) : Mx :=
  let g := servedBy m x.grp
  let x := { x with ord := m.cx.ord }
  let c := codec m g
  let m := { m with cx := { m.cx with ord := m.cx.ord + 1 } }
  setCodec m g (if kind = 0 then { c with hq := c.hq ++ [x] } else if kind = 1 then { c with sq := c.sq ++ [x] }
                else { c with eq := c.eq ++ [x] })

/-- One more codeword of an entry is with the codec. -/
def sendCw (kind eid : Nat) (x : CwRef) (m : Mx) : Mx :=
  match ent m eid with
  | some e => enqueue kind x (setEnt m eid { e with sent := e.sent + 1 })
  | none => m

/-- Give every codeword of an entry's page-set to the encoders of a group. -/
def encodeAll (eid : Nat) (e : Ent) (n grp : Nat) (m : Mx) : Mx :=
  each (List.range n) (fun i m => sendCw 2 eid { eid := eid, cw := i, grp := grp } m)
    (setEnt m eid { e with stage := .encode, sent := 0 })

/-! ## Stripes and their members (10_stripes.md R370, R377, R380–R383) -/

/-- Entry of a member table at a position. -/
def memberAt (t : List Nat) (i : Nat) : Nat := t.getD i 0
def mValid (n : Nat) : Bool := n.testBit 15
def mPlanes (n : Nat) : Nat := n / 2048 % 16
def mDie (n : Nat) : Nat := n % 2048

/-- Position bits. -/
def hasBit (b : BitVec 64) (i : Nat) : Bool := b.getLsbD i
def setBit (b : BitVec 64) (i : Nat) : BitVec 64 := b ||| BitVec.ofNat 64 (2 ^ i)

/-- Data positions of a stripe that are VALID. -/
def dataPos (s : Stripe) : List Nat := (List.range 62).filter (fun i => mValid (memberAt s.table i))

/-- An entry that was a member of a stripe that has become FREE belongs to no stripe any more (R382). -/
def leaveStripe (s : Nat) (e : Ent) : Ent := if e.stripe.any (fun p => p.1 == s) then { e with stripe := none } else e

/-- A stripe becomes FREE and its parity is discarded. -/
def freeStripe (s : Nat) (m : Mx) : Mx :=
  let m := setStripe m s {}
  { m with ents := m.ents.map (fun x => (x.1, x.2.map (leaveStripe s))),
           st := { m.st with parP := m.st.parP.filter (fun x => x.1 != s), parQ := m.st.parQ.filter (fun x => x.1 != s),
                             filled := m.st.filled.filter (fun x => x.1 != s),
                             taken := m.st.taken.filter (fun x => x.1 != s) } }

/-- Plain bytes of a slot of P or Q. -/
def parityBytes (m : Mx) (s : Nat) (q : Bool) (slot : Nat) : List Byte :=
  memRead (tabGet [] (if q then m.st.parQ else m.st.parP) s) (slot * 4128) 4128

/-- Slots of a plane mask, ascending. -/
def maskSlots (planes : Nat) : List Nat := ((planeList planes).map (fun p => [4 * p, 4 * p + 1, 4 * p + 2, 4 * p + 3])).flatten

/-- R381: put the parity of a close's members into its reservation and give the frames to the encoders of their dies. -/
def fillParity (eid : Nat) (e : Ent) (s : Stripe) (m : Mx) : Mx :=
  let sl := maskSlots s.planes
  let n := sl.length
  let m := setEnt m eid { e with stage := .encode, sent := 0, cws := [] }
  each e.bind (fun b m =>
    each (List.range n) (fun i m =>
      let cw := (b.1 - 62) * n + i
      let m := resvWrite m (resOwner eid) (cw * frameLen s.profile) (parityBytes m (eStripe e) (b.1 == 63) (sl.getD i 0))
      sendCw 2 eid { eid := eid, cw := cw, grp := dieGrp b.2 } m) m) m

/-- R381: parity members still to program. -/
def parityLeft (s : Stripe) : List (Nat × Nat) :=
  ([62, 63].filter (fun i => mValid (memberAt s.table i) && !hasBit s.done i && !hasBit s.failed i)).map
    (fun i => (i, mDie (memberAt s.table i)))

/-- Opcodes that give their reservation back before the completion (R38, log entry 10). -/
def earlyFree (o : Nat) : Bool := o == 0x02 || o == 0x04

/-- An entry's outcome is recorded (TDONE of R130). -/
def conclude (eid : Nat) (e : Ent) (status detail : Nat) (part : Bool) (m : Mx) : Mx :=
  let m := setEnt m eid { e with stage := .final, status := status, detail := detail, partF := part, tdone := m.md.time }
  if earlyFree (eOpc e) then freeResv m (.entry eid) else m

/-- A close of a stripe that waits with its reservation. -/
def closeWaits (s : Nat) (e : Ent) : Bool := e.stage == .stripeWork && eOpc e == 0x11 && eStripe e == s

/-- R380–R382: a close that holds its reservation alone, no member being bound without having passed, checks its stripe again. -/
def closeCheck (s eid : Nat) (m : Mx) : Mx :=
  let x := stripe m s
  match ent m eid with
  | some e =>
    if x.state ≠ 1 then conclude eid e 0x1000 0x0424 false m
    else if (eArg0 e).testBit 1 then conclude eid e 0 0 false (freeStripe s m)
    else if (dataPos x).any (fun i => !hasBit x.passed i) && !(eArg0 e).testBit 0 then conclude eid e 0x1000 0x0430 false m
    else
      let m := setStripe m s { x with state := 2 }
      if (parityLeft x).isEmpty then conclude eid e 0 0 false (freeStripe s m)
      else fillParity eid { e with bind := parityLeft x, dst := true } x m
  | none => m

/-- R380: once no member of a stripe is bound without having passed, every close that waits for it checks the stripe again, the
first to take it leaving it not OPEN for the others. -/
def closeTurn (s : Nat) (m : Mx) : Mx :=
  if !(stripe m s).bound.isEmpty then m
  else each ((m.ents.filter (fun p => p.2.any (closeWaits s))).map (·.1)) (closeCheck s) m

/-- R377: a bound member ends: before passing its position is free again; after, it is FAILED unless its program passed. -/
def endMember (e : Ent) (m : Mx) : Mx :=
  match e.stripe with
  | none => m
  | some (s, p) =>
    let x := stripe m s
    if x.bound.contains p then setStripe m s { x with bound := delN x.bound p }
    else if hasBit x.passed p && !hasBit x.done p then setStripe m s { x with failed := setBit x.failed p }
    else m

/-- R383, R395: what the end of a STRIPE_CLOSE or REBUILD does to its stripe. -/
def endWork (eid : Nat) (e : Ent) (status : Nat) (m : Mx) : Mx :=
  let s := eStripe e
  let x := stripe m s
  if eOpc e = 0x11 ∧ e.dst ∧ x.state = 2 then
    (if status = 0x0200 then
      let cutP := [62, 63].filter (fun i => hasBit x.launched i && !hasBit x.done i)
      setStripe m s { x with state := 1, failed := cutP.foldl setBit x.failed }
     else freeStripe s m)
  else if eOpc e = 0x12 then
    let m' := { m with st := { m.st with walk := m.st.walk.filter (fun x => x.1 != eid) } }
    if (tabGet {} m.st.walk eid).held then freeStripe s m' else m'
  else m

/-- An entry's outcome is final: any stripe work it had ends with it. -/
def finish (eid : Nat) (e : Ent) (status detail : Nat) (part : Bool) (m : Mx) : Mx :=
  let m := conclude eid e status detail part (endWork eid e status (endMember e m))
  match e.stripe with
  | some (s, _) => closeTurn s m
  | none => m

/-- An entry whose codewords are read. -/
def withCws (e : Ent) : Ent := { e with cws := List.replicate (eNcw e) .pending }

/-- R131: at least one codeword was delivered and at least one was not. -/
def mixed (e : Ent) (p : Nat → Bool) : Bool := (List.range e.cws.length).any p && (List.range e.cws.length).any (fun i => !p i)

/-- R122, R124, R563: an entry is cut short, or its die fails it, before its data has moved. PARTIAL is as given for
ABORTED, and otherwise says that codewords were delivered and others not (R131). -/
def finishCut (eid : Nat) (e : Ent) (status detail : Nat) (part : Bool) (m : Mx) : Mx :=
  let p (e : Ent) (i : Nat) : Bool := (eOpc e != 1) && (cwAt e i).delivered
  let e := if decodes (eOpc e) && e.cws.isEmpty then withCws e else e
  let part := if status = 0x0200 then part else decodes (eOpc e) && mixed e (p e)
  let e := if decodes (eOpc e) then cutReport e (p e) else e
  finish eid e status detail part { m with st := { m.st with jobs := m.st.jobs.filter (fun x => x.1 != eid) } }

/-- An entry whose codewords are all settled and delivered as far as they can be (R136). -/
def finishRead (eid : Nat) (e : Ent) (m : Mx) : Mx :=
  let o := outcome e.cws
  let e := summarise e (fun i => (cwAt e i).delivered)
  finish eid e o.1 o.2 (mixed e (fun i => (cwAt e i).delivered)) m

/-- A SCAN whose statistics have gone to host memory, or that has none: its die's outcome where the sense failed, else that
of its codewords (R136; 08_codec.md R321). -/
def finishScan (eid : Nat) (e : Ent) (m : Mx) : Mx :=
  match e.dieOut with
  | some (st, dt) => finishCut eid e st dt false m
  | none => finishRead eid e m

/-- R139: ABORTED with its reason; PARTIAL where the array operation had been admitted. -/
def abort (eid detail : Nat) (m : Mx) : Mx :=
  match ent m eid with
  | none => m
  | some e => finishCut eid e 0x0200 detail e.admitted m

/-! ## The completion's bytes (R130, R131) -/

def cflags (e : Ent) : Nat :=
  128 + bitAt e.partF 4 +
  (if decodes (eOpc e) || eOpc e == 0x12 then bitAt e.rebuilt 3 + bitAt e.softUsed 2 + bitAt e.retried 1 + bitAt e.specUsed 0 else 0)

/-- R130: the 32 bytes of a completion. -/
def completion (e : Ent) : List Byte :=
  leBytes 1 (eOpc e) ++ leBytes 1 (cflags e) ++ leBytes 2 (eBits e 2 2) ++ leBytes 2 e.status ++ leBytes 2 e.detail ++
  leBytes 4 (e.corrMax + 65536 * e.corrSum) ++ leBytes 2 e.step ++ leBytes 2 e.cwfail ++ leBytes 8 e.tdone ++
  leBytes 4 e.margin.toNat ++ leBytes 4 0

/-! ## Rings -/

def ringSize (m : Mx) (r : Nat) : Nat := fld (reg m (qeRingOff r 8)) 4 0
def ringWin (m : Mx) (r : Nat) : Nat := fld (reg m (qeRingOff r 8)) 23 16
def ringBase (m : Mx) (r : Nat) : Nat :=
  (reg m (qeRingOff r 0)).toNat / 4096 * 4096 + 2 ^ 32 * (reg m (qeRingOff r 4)).toNat

/-- R97: indices are k + 1 bits wide. -/
def idxMod (m : Mx) (r : Nat) : Nat := 2 ^ (ringSize m r + 1)
def slots (m : Mx) (r : Nat) : Nat := 2 ^ ringSize m r
def idxAdd (m : Mx) (r i n : Nat) : Nat := (i + n) % idxMod m r

/-- (a − b) modulo 2^(k+1). -/
def idxSub (m : Mx) (r a b : Nat) : Nat := (a + idxMod m r - b % idxMod m r) % idxMod m r

/-- R96: host address of the slot an index names. -/
def slotAddr (m : Mx) (r i : Nat) : Nat := ringBase m r + 64 * (i % slots m r)

/-- R108, R109: a ring-level error; only the first since VALID was cleared is held. -/
def ringError (m : Mx) (r code cause idx : Nat) : Mx :=
  let g := ring m r
  let m := if bit g.err 31 then m
    else setRing m r { g with err := word (2 ^ 31 + 65536 * cause + code), errIdx := idx }
  log m .ringErr r code idx

/-- R122, R124, R126: a ring that stops fetching makes no request that its port has not issued. -/
def unfetch (r : Nat) (m : Mx) : Mx :=
  let p := ringPort m r
  if (port m p).waiting.any (fun q => q.why == .fetch r) then
    setRing (setPort m p { port m p with waiting := (port m p).waiting.filter (fun q => q.why != .fetch r) }) r
      { ring m r with reqAt := none, keep := 0 }
  else m

/-- R111: a fetch, completion or notice write has failed: an ACTIVE ring stops. -/
def ringFault (m : Mx) (r code : Nat) (c : Cause) (idx : Nat) : Mx :=
  let m := ringError m r code (causeCode c) idx
  let g := ring m r
  let m := if g.state = .active then unfetch r (setRing m r { g with state := .stoppedErr }) else m
  raise m 265

end Sys2Proof.Machine
end

