-- ==== Sys2Proof/Machine/DataMover.lean ====
section
/-! DEFINITION. The data mover (04_commands.md R179–R193): transfers, scatter-gather chains, requests and their
answers. -/

namespace Sys2Proof.Machine

/-! ## Scatter-gather descriptors (R179, R181) -/

/-- A descriptor as read. -/
structure Desc where
  addr  : Nat
  slen  : Nat
  flags : Nat
  deriving DecidableEq, Repr

def descOf (l : List Byte) : Desc := { addr := leAt l 0 8, slen := leAt l 8 4, flags := leAt l 12 4 }

def Desc.isEnd (d : Desc) : Bool := d.flags.testBit 0
def Desc.isLink (d : Desc) : Bool := d.flags.testBit 1

/-- R181: the first rule a descriptor breaks. -/
def Desc.fault (d : Desc) : Option XStop :=
  if 4 ≤ d.flags then some ⟨0x1000, 0x0310⟩
  else if d.isLink ∧ d.addr % 16 ≠ 0 then some ⟨0x1000, 0x0210⟩
  else if d.isLink ∧ (d.isEnd ∨ d.slen ≠ 0) then some ⟨0x1000, 0x0410⟩
  else none

/-- R181: QE_HOPLIM, 0 meaning 4,096. -/
def hopLimit (m : Mx) : Nat := if fld (reg m qeHopOff) 11 0 = 0 then 4096 else fld (reg m qeHopOff) 11 0

/-! ## The stage-buffer side of a transfer -/

/-- Whose reservation a transfer works on. -/
def xResv (o : XOwner) : ROwner :=
  match o with
  | .entryIn e => .entry e
  | .entryOut e => .entry e
  | .copyMove e => .entry e
  | .fill e => .entry e
  | .stMap e => .entry e
  | .stTable e => .entry e
  | .stRec e => .entry e

/-- The entry a transfer serves. -/
def xEid (o : XOwner) : Nat :=
  match o with
  | .entryIn e => e
  | .entryOut e => e
  | .copyMove e => e
  | .fill e => e
  | .stMap e => e
  | .stTable e => e
  | .stRec e => e

/-- A transfer between host memory and the stripe engine, which passes no reservation (01_architecture.md R21). -/
def forStripes (o : XOwner) : Bool :=
  match o with
  | .stMap _ => true
  | .stTable _ => true
  | .stRec _ => true
  | _ => false

/-- Bytes of a run list. -/
def runsLen (l : List Run) : Nat := l.foldl (fun a r => a + r.len) 0

/-- Take the first `n` bytes of a run list: the runs taken and those left. -/
def takeRuns : Nat → List Run → List Run × List Run
  | _, [] => ([], [])
  | n, r :: rs =>
    if n = 0 then ([], r :: rs)
    else if r.len ≤ n then
      let q := takeRuns (n - r.len) rs
      (r :: q.1, q.2)
    else ([{ r with len := n }], { r with off := r.off + n, len := r.len - n } :: rs)

/-- Bytes at the front of a run list that are moved without a break. -/
def movingLen : List Run → Nat
  | [] => 0
  | r :: rs => if r.move then r.len + movingLen rs else 0

/-- R177: pattern byte at an address. -/
def patByte (w : Word) (a : Nat) : Byte := BitVec.ofNat 8 (w.toNat >>> (8 * (a % 4)))

/-- Read the stage-buffer bytes of runs (port 8); answers the bytes and the codewords with an uncorrectable byte. -/
def readRuns (m : Mx) (o : ROwner) : List Run → List Byte × List Nat × Mx
  | [] => ([], [], m)
  | r :: rs =>
    let a := resvRead m o 8 r.off r.len
    let q := readRuns a.2.2 o rs
    (a.1 ++ q.1, (if a.2.1 then [r.cw] else []) ++ q.2.1, q.2.2)

/-- Write bytes into the places of runs. -/
def writeRuns (m : Mx) (o : ROwner) : List Run → List Byte → Mx
  | [], _ => m
  | r :: rs, bs => writeRuns (resvWrite m o r.off (bs.take r.len)) o rs (bs.drop r.len)

/-! ## Requests of an engine (R184, R185) -/

/-- R138: purpose of a piece's access. -/
def piecePurpose (x : Xfer) (p : Piece) : Nat :=
  if p.desc then 5 else (if p.isMeta then 3 else 1) + (if x.toHost then 1 else 0)

/-- R138, R192: stop a transfer for a failed access. -/
def hostStop (x : Xfer) (p : Piece) (c : Cause) : Xfer :=
  { x with stop := some { status := 0x1200, detail := 16 * piecePurpose x p + causeCode c } }

/-- R193: a transfer has nothing left to ask for and nothing outstanding. -/
def xferEnded (x : Xfer) : Bool := x.pieces.isEmpty && (x.stop.isSome || x.parts.isEmpty)

/-- Make a piece's request; a port out of service fails it at once (02_boundary.md R60). -/
def askPiece (m : Mx) (x : Xfer) (p : Piece) (q : Req) : Mx × Xfer :=
  if (port m x.port).down then (log m .reqFailed x.port (causeCode .outOfService) 4, hostStop x p .outOfService)
  else (request m x.port q, { x with pieces := x.pieces ++ [p] })

/-- The read of a line of descriptors. -/
def askDesc (m : Mx) (ee : Nat) (x : Xfer) : Mx × Xfer :=
  askPiece { m with dx := { m.dx with ids := m.dx.ids + 1 } } { x with walk := { x.walk with asked := true } }
    { id := m.dx.ids, addr := x.walk.next, runs := [], desc := true } (readReq x.walk.next 16 (.xfer ee m.dx.ids))

/-- R180: use a descriptor. -/
def useDesc (x : Xfer) (d : Desc) : Xfer :=
  match d.fault with
  | some f => { x with stop := some f }
  | none =>
    if d.isLink then { x with walk := { x.walk with next := d.addr, hops := x.walk.hops + 1, seg := (0, 0) } }
    else { x with walk := { x.walk with next := x.walk.next + 16, hops := x.walk.hops + 1, seg := (d.addr, d.slen),
                                        last := d.isEnd } }

/-- R180–R182: the next descriptor is needed; a line already read for the entry is not read again. -/
def nextDesc (m : Mx) (ee : Nat) (x : Xfer) : Mx × Xfer :=
  let w := x.walk
  if w.last then (m, { x with stop := some ⟨0x1000, 0x0420⟩ })
  else if w.limit ≤ w.hops then (m, { x with stop := some ⟨0x1100, 0⟩ })
  else
    match x.lines.find? (fun l => l.1 == w.next / 128 * 128) with
    | some l => (m, useDesc x (descOf (l.2.drop (w.next % 128))))
    | none => askDesc m ee x

/-- Begin the host side of a part. -/
def beginPart (m : Mx) (x : Xfer) (p : Part) : Xfer :=
  match p.side with
  | .flat a => { x with walk := { seg := (a, runsLen p.runs), begun := true } }
  | .chain h => { x with walk := { next := h, limit := hopLimit m, begun := true } }

/-- Bytes of the part in hand that the next request carries (R185). -/
def pieceLen (x : Xfer) (p : Part) : Nat :=
  min x.walk.seg.2 (min (4096 - x.walk.seg.1 % 4096) (movingLen p.runs))

/-- The part in hand after `n` bytes of it. -/
def passBytes (x : Xfer) (p : Part) (ps : List Part) (n : Nat) : Xfer :=
  let w := x.walk
  { x with parts := { p with runs := (takeRuns n p.runs).2 } :: ps, walk := { w with seg := (w.seg.1 + n, w.seg.2 - n) } }

/-- Bytes that a transfer will not have to move any more leave RESID (R187). -/
def lessLeft (x : Xfer) (n : Nat) : Xfer := { x with left := x.left - n }

/-- Codewords that a part will no longer move (R452). -/
def skipRuns (p : Part) (cs : List Nat) : Part :=
  { p with runs := p.runs.map (fun q => if cs.contains q.cw then { q with move := false } else q) }

/-- The bytes that go to host memory for runs, and the codewords with an uncorrectable one. -/
def sourceBytes (m : Mx) (x : Xfer) (rs : List Run) : List Byte × List Nat × Mx :=
  if forStripes x.owner then (rs.flatMap (fun r => slice x.inl r.off r.len), [], m) else readRuns m (xResv x.owner) rs

/-- One more request of a transfer, or a step towards it. -/
def pieceStep (m : Mx) (ee : Nat) (x : Xfer) (p : Part) (ps : List Part) : Mx × Xfer :=
  match p.runs with
  | [] => (m, { x with parts := ps, walk := {} })
  | r :: _ =>
    if !x.walk.begun then (m, beginPart m x p)
    else if x.walk.seg.2 = 0 then nextDesc m ee x
    else if !r.move then (m, lessLeft (passBytes x p ps (min r.len x.walk.seg.2)) (min r.len x.walk.seg.2))
    else
      let n := pieceLen x p
      let a := x.walk.seg.1
      let rs := (takeRuns n p.runs).1
      let pc : Piece := { id := m.dx.ids, addr := a, runs := rs, isMeta := p.isMeta }
      let m := { m with dx := { m.dx with ids := m.dx.ids + 1 } }
      if !x.toHost then askPiece m (passBytes x p ps n) pc (readReq a n (.xfer ee pc.id))
      else
        match x.pat with
        | some w => askPiece m (passBytes x p ps n) pc
            (writeReq .write a ((List.range n).map (fun i => patByte w (a + i))) (.xfer ee pc.id))
        | none =>
          let b := sourceBytes m x rs
          if b.2.1.isEmpty then askPiece b.2.2 (passBytes x p ps n) pc (writeReq .write a b.1 (.xfer ee pc.id))
          else (b.2.2, { x with bad := x.bad ++ b.2.1, parts := skipRuns p b.2.1 :: ps })

/-- R184: an engine keeps up to 32 requests outstanding; `fuel` bounds the steps of one turn. -/
def pumpXfer : Nat → Nat → Xfer → Mx → Mx × Xfer
  | 0, _, x, m => (m, x)
  | fuel + 1, ee, x, m =>
    match x.parts with
    | [] => (m, x)
    | p :: ps =>
      if x.stop.isSome || x.walk.asked || decide (32 ≤ x.pieces.length) then (m, x)
      else
        let r := pieceStep m ee x p ps
        pumpXfer fuel ee r.2 r.1

/-- Steps that one turn of an engine can take: hops, runs and requests. -/
def pumpFuel : Nat := 10000

/-- A request that an engine has made and its port has not issued. -/
def unissued (m : Mx) (ee : Nat) (x : Xfer) (id : Nat) : Bool := (port m x.port).waiting.any (fun q => q.why == .xfer ee id)

/-- R188, R193: a transfer that stops issues nothing more: its requests still waiting on their port are withdrawn. -/
def unask (ee : Nat) (x : Xfer) (m : Mx) : Mx :=
  let q := port m x.port
  setPort m x.port { q with waiting := q.waiting.filter (fun r => x.pieces.all (fun p => r.why != .xfer ee p.id)) }

/-- Let an engine go on with its transfer, or, where it has stopped, keep only what has been issued. -/
def pumpEngine (ee : Nat) (m : Mx) : Mx :=
  match (engine m ee).cur with
  | none => m
  | some x =>
    let r := pumpXfer pumpFuel ee x m
    let y := r.2
    if y.stop.isSome then
      let z := { y with pieces := y.pieces.filter (fun p => !unissued r.1 ee y p.id) }
      let m := unask ee y r.1
      setEngine m ee { engine m ee with cur := some z, resid := z.left }
    else setEngine r.1 ee { engine r.1 ee with cur := some y, resid := y.left }

/-! ## Answers -/

/-- The bytes of an answered READ for a piece. -/
def pieceBytes (p : Piece) (data : Mem) : List Byte := memRead data p.addr (runsLen p.runs)

/-- Where the moved bytes of a codeword's data or metadata are counted. -/
def ackKey (cw : Nat) (isMeta : Bool) : Nat := 2 * cw + bitAt isMeta 0

/-- Count a piece's bytes as moved. -/
def ackRuns (x : Xfer) (p : Piece) : Xfer :=
  lessLeft { x with acked := p.runs.foldl (fun t r =>
    tabSet t (ackKey r.cw p.isMeta) (tabGet 0 t (ackKey r.cw p.isMeta) + r.len)) x.acked } (runsLen p.runs)

/-- A request of an engine has been answered or has failed. An answer to a transfer that has gone is discarded (R188). -/
def pieceAnswer (ee id : Nat) (c : Option Cause) (data : Mem) (m : Mx) : Mx :=
  match (engine m ee).cur with
  | none => m
  | some x =>
    match x.pieces.find? (fun p => p.id == id) with
    | none => m
    | some p =>
      let x := { x with pieces := x.pieces.filter (fun q => q.id != id) }
      let r : Mx × Xfer := match c with
        | some f => (m, if x.stop.isSome then x else hostStop x p f)
        | none =>
          if p.desc then
            let a := p.addr / 128 * 128
            (m, { x with walk := { x.walk with asked := false }, lines := tabSet x.lines a (memRead data a 128) })
          else if x.toHost then (m, ackRuns x p)
          else if forStripes x.owner then (m, ackRuns { x with lines := tabSet x.lines p.addr (pieceBytes p data) } p)
          else (writeRuns m (xResv x.owner) p.runs (pieceBytes p data), ackRuns x p)
      pumpEngine ee (setEngine r.1 ee { engine r.1 ee with cur := some r.2 })

/-! ## Waiting and starting (R184, R189) -/

def engOff (m : Mx) (ee : Nat) : Bool := bit (reg m (dxEngOff ee)) 0

/-- R189: every engine of a port is disabled. -/
def portEngOff (m : Mx) (p : Nat) : Bool := (List.range 16).all (fun i => engOff m (16 * p + i))

/-- The oldest waiting transfer of a port. -/
def nextXfer (m : Mx) (p : Nat) : Option Xfer := m.dx.queue.find? (fun x => x.port == p)

/-- Take a transfer from the queue. -/
def unqueue (m : Mx) (o : XOwner) : Mx := { m with dx := { m.dx with queue := m.dx.queue.filter (fun x => x.owner != o) } }

/-- R184: an engine takes a transfer and begins to issue. -/
def startXfer (ee : Nat) (x : Xfer) (m : Mx) : Mx :=
  let m := setEngine (unqueue m x.owner) ee { cur := some x, resid := x.left }
  pumpEngine ee m

/-- A transfer that is ready waits for an engine of its port; none being enabled, its entry is aborted (R189). -/
def queueXfer (x : Xfer) (m : Mx) : Mx :=
  if portEngOff m x.port then abort (xEid x.owner) 6 m
  else { m with dx := { m.dx with queue := m.dx.queue ++ [x] } }

/-- Withdraw what an entry's running transfer has not issued. -/
def unaskEntry (eid : Nat) (m : Mx) : Mx :=
  each m.dx.eng (fun g m => match g.2.cur with
    | some x => if xEid x.owner = eid then unask g.1 x m else m
    | none => m) m

/-- The engine that runs a transfer of an entry. -/
def engineOf (m : Mx) (eid : Nat) : Option Nat :=
  (m.dx.eng.find? (fun g => g.2.cur.any (fun x => xEid x.owner == eid))).map (·.1)

/-- R122, R193: an entry's running transfer stops with a status; the entry ends once what it issued is answered. -/
def cutXfer (ee status detail : Nat) (m : Mx) : Mx :=
  match (engine m ee).cur with
  | none => m
  | some x =>
    pumpEngine ee (setEngine m ee { engine m ee with cur := some { x with stop := x.stop.or (some ⟨status, detail⟩) } })

/-- Drop whatever transfer an entry has, waiting or running (R124). -/
def dropXfer (eid : Nat) (m : Mx) : Mx :=
  let m := unaskEntry eid m
  { m with dx := { m.dx with
      queue := m.dx.queue.filter (fun x => xEid x.owner != eid),
      eng := m.dx.eng.map (fun e => match e.2.cur with
        | some x => if xEid x.owner = eid then (e.1, { e.2 with cur := none }) else e
        | none => e) } }

/-! ## Transfers of entries -/

/-- Total bytes of parts. -/
def partsLen (l : List Part) : Nat := l.foldl (fun a p => a + runsLen p.runs) 0

/-- A transfer of an entry on its ring's port (R22). -/
def entryXfer (m : Mx) (eid : Nat) (e : Ent) (o : XOwner) (toHost : Bool) (parts : List Part) : Xfer :=
  { owner := o, port := ringPort m (eidRing eid), ring := eidRing eid, opc := eOpc e, toHost := toHost, parts := parts,
    left := partsLen parts, lines := e.chain, acked := if toHost then e.moved else [] }

/-- The host side that DPTR and ARG1.DSGL name (R149, R179). -/
def dataSide (e : Ent) : HostSide := if (eArg1 e).testBit 31 then .chain (eDptr e) else .flat (eDptr e)

/-- R185: the stream of one codeword from an offset of the reservation: the bytes already moved are passed over. -/
def cwRuns (off len done : Nat) (move : Bool) (cw : Nat) : List Run :=
  let l : List Run := [{ off := off, len := done, move := false, cw := cw }, { off := off + done, len := len - done, move := move, cw := cw }]
  l.filter (fun r => decide (0 < r.len))

/-- R185: the LEN bytes of an entry's result from an offset of its reservation. -/
def lenRuns (e : Ent) (off : Nat) : List Run := cwRuns off (eLen e) (tabGet 0 e.moved (ackKey 0 false)) true 0

/-- R156, R184: the data and metadata parts of page codewords in the frames of a reservation. -/
def pageParts (e : Ent) (move : Nat → Bool) : List Part :=
  let n := eNcw e
  let f := eStride e
  let done (i : Nat) (isMeta : Bool) : Nat := tabGet 0 e.moved (ackKey i isMeta)
  { side := dataSide e, runs := (List.range n).flatMap (fun i => cwRuns (i * f) 4096 (done i false) (move i) i) } ::
  (if eMptr e = 0 then [] else
    [{ isMeta := true, side := .flat (eMptr e),
       runs := (List.range n).flatMap (fun i => cwRuns (i * f + 4096) 32 (done i true) (move i) i) }])

/-- R153, R158: PROGRAM without metadata: the host bytes of every record are zero. -/
def zeroMeta (eid : Nat) (e : Ent) (m : Mx) : Mx :=
  if eMptr e ≠ 0 then m
  else each (List.range (eNcw e)) (fun i m => resvWrite m (.entry eid) (i * eStride e + 4096) (List.replicate 32 0)) m

/-- Bytes of one contiguous part. -/
def flatParts (a off n : Nat) : List Part := [{ side := .flat a, runs := [{ off := off, len := n }] }]

/-! ## Register reads and writes (R186, R187) -/

/-- Reads of the DX block, by offset. -/
def dxRead (m : Mx) (k : Nat) : Word :=
  if k = 0 then reg m dxTmoOff
  else if 0x100 ≤ k ∧ k < 0x500 then
    let ee := (k - 0x100) / 16
    let g := engine m ee
    if k % 16 = 0 then reg m (dxEngOff ee)
    else if k % 16 = 4 then
      (match g.cur with
       | some x => word (2 ^ 31 + 2 ^ 16 * x.ring + 2 ^ 8 * x.opc)
       | none => 0)
    else if k % 16 = 8 then word g.resid
    else 0
  else 0

end Sys2Proof.Machine
end

