-- ==== Sys2Proof/Machine/Seeing.lean ====
section
/-! DEFINITION. Seeing (09_seeing.md R334–R359): its table, the thresholds it forms, what it learns, disturb counts,
pins and divergence. -/

namespace Sys2Proof.Machine

/-! ## The table (R336–R341) -/

def sgByte (m : Mx) (a : Nat) : Nat := (memGet m.sg.table a).toNat
def sgInt (m : Mx) (a : Nat) : Int := signed 8 (sgByte m a)
def sgPut (a : Nat) (l : List Byte) (m : Mx) : Mx := { m with sg := { m.sg with table := memWrite m.sg.table a l } }
def sgLe (m : Mx) (a n : Nat) : Nat := leNat (memRead m.sg.table a n)

/-- R338: a die's record. -/
def dieRec (d : Nat) : Nat := 0x180000 + 16 * d
def recValid (m : Mx) (d : Nat) : Bool := (sgByte m (dieRec d)).testBit 0
def dieClass (m : Mx) (d : Nat) : Nat := sgByte m (dieRec d) / 2 % 4

/-- R337: a class record. -/
def clsRec (k : Nat) : Nat := 0x18C000 + 512 * k
def nlvl (m : Mx) (k : Nat) : Nat := sgByte m (clsRec k)
def ntypes (m : Mx) (k : Nat) : Nat := sgByte m (clsRec k + 1)
def nstep (m : Mx) (k : Nat) : Nat := sgByte m (clsRec k + 2)
def lmask (m : Mx) (k t : Nat) : Nat := sgLe m (clsRec k + 4 + 4 * t) 2

/-- Levels a mask names, ascending. -/
def levelsOf (mask : Nat) : List Nat := ((List.range 16).filter (fun i => mask.testBit i)).map (· + 1)

/-- R340: a class record is valid. -/
def clsValid (m : Mx) (k : Nat) : Bool :=
  (nlvl m k != 0) && decide (nlvl m k ≤ 16) && (ntypes m k != 0) && decide (ntypes m k ≤ 4) && decide (nstep m k ≤ 12) &&
  (List.range (ntypes m k)).all (fun t =>
    (lmask m k t != 0) && decide ((levelsOf (lmask m k t)).length ≤ 8) && decide (lmask m k t < 2 ^ nlvl m k))

/-- R340: a die is served. -/
def served (m : Mx) (d : Nat) : Bool := recValid m d && clsValid m (dieClass m d)

/-- R338: block group of a read. -/
def bgOf (m : Mx) (d row : Nat) : Nat := (row >>> (sgByte m (dieRec d + 1) % 32)) % 16

/-- Index of a block group (R336). -/
def bgIdx (d b : Nat) : Nat := 16 * d + b

/-- R335: page index and type of a read. -/
def pageIdx (m : Mx) (d row : Nat) : Nat := row % 2 ^ pgBits m d
def pageType (m : Mx) (d row : Nat) : Nat := pageIdx m d row % ntypes m (dieClass m d)

/-- R335, R340: the levels that form the page, and its value below the lowest. -/
def pageLevels (m : Mx) (d row : Nat) : List Nat × Nat :=
  if served m d then
    (levelsOf (lmask m (dieClass m d) (pageType m d row)),
     sgByte m (clsRec (dieClass m d) + 6 + 4 * pageType m d row) % 2)
  else ([1], 1)

/-! ## Forming thresholds (R334, R342–R345) -/

/-- R334: what reaches the die: bounded by the die record, or by the s8 range. -/
def clampOff (m : Mx) (d : Nat) (o : Int) : Int :=
  if recValid m d then clampI (sgInt m (dieRec d + 2)) (sgInt m (dieRec d + 3)) o else clampI (-128) 127 o

/-- R343: the age bin of an elapsed dose. -/
def ageBin (e : Nat) : Nat := if e < 16 then 0 else min 15 (Nat.log2 e - 3)

/-- R343: elapsed dose of a read. -/
def elapsed (m : Mx) (arg0 : Nat) : Nat := m.sg.dose - arg0

def sgCfg (m : Mx) : Word := reg m (sgOff 0)

/-- R344: the model term of a level. -/
def modelTerm (m : Mx) (k a l : Nat) : Int := if bit (sgCfg m) 31 then sgInt m (clsRec k + 0x40 + 16 * a + (l - 1)) else 0

def learned (m : Mx) (i l : Nat) : Int := sgInt m (16 * i + (l - 1))

/-- R344: the prediction of a level before it is clamped. -/
def predict (m : Mx) (d b a l : Nat) : Int := modelTerm m (dieClass m d) a l + learned m (bgIdx d b) l

/-- The sixteen levels. -/
def allLevels : List Nat := (List.range 16).map (· + 1)

/-- R344, R340: the predicted base. -/
def predicted (m : Mx) (d b a : Nat) : List Int :=
  allLevels.map (fun l => clampOff m d (if served m d ∧ l ≤ nlvl m (dieClass m d) then predict m d b a l else 0))

/-- R342: a pin set's base. -/
def pinned (m : Mx) (d p : Nat) : List Int := allLevels.map (fun l => clampOff m d (sgInt m (0x188000 + 16 * p + (l - 1))))

/-- R339: block-group state. -/
def bgState (d b : Nat) : Nat := 0x100000 + 16 * bgIdx d b
def bgPin (m : Mx) (d b : Nat) : Nat := sgLe m (bgState d b + 6) 2
def bgFlags (m : Mx) (d b : Nat) : Nat := sgByte m (bgState d b + 0xC)

/-- Set or clear a flag of GFLAGS. -/
def setFlag (d b i : Nat) (on : Bool) (m : Mx) : Mx :=
  let f := bgFlags m d b
  sgPut (bgState d b + 0xC) [BitVec.ofNat 8 (if f.testBit i then f - 2 ^ i + bitAt on i else f + bitAt on i)] m

/-- R342: the pin set that governs a read, and 1 if the entry named it. -/
def pinOf (m : Mx) (d b : Nat) (entryPin : Option Nat) : Option (Nat × Nat) :=
  match entryPin with
  | some p => some (p, 1)
  | none => if 1 ≤ bgPin m d b ∧ bgPin m d b ≤ 1023 then some (bgPin m d b, 0) else none

/-- R357: a pin's base beside the prediction. -/
def diverge (d b src : Nat) (base pred : List Int) (m : Mx) : Mx :=
  let lim := fld (reg m (sgOff 0x18)) 7 0
  if lim = 0 ∨ served m d = false then m
  else
    match ((List.range (nlvl m (dieClass m d))).find? (fun i => decide (lim < ((base.getD i 0) - (pred.getD i 0)).natAbs))) with
    | none => setFlag d b 0 false m
    | some i =>
      if (bgFlags m d b).testBit 0 then m
      else
        let m := setFlag d b 0 true m
        let v := word (2 ^ 31 + 2 ^ 23 * i + 2 ^ 19 * b + 2 ^ 18 * src + d)
        let m := { m with sg := { m.sg with diverge := if bit m.sg.diverge 31 then m.sg.diverge else v } }
        raise (log m .diverge d b (i + 1)) 283

/-- R342–R345, R357: form the base of a read of a row with an elapsed dose; answers the base and its age bin. -/
def formBase (d row e : Nat) (entryPin : Option Nat) (m : Mx) : (List Int × Nat) × Mx :=
  let b := bgOf m d row
  let a := ageBin e
  let pred := predicted m d b a
  match pinOf m d b entryPin with
  | none => ((pred, a), m)
  | some (p, src) => ((pinned m d p, a), diverge d b src (pinned m d p) pred m)

/-- R345: thresholds of hard ladder step `k` from a base. -/
def ladderOffs (m : Mx) (d k : Nat) (base : List Int) : List Int :=
  if k = 0 then base
  else (List.range 16).map (fun i => clampOff m d (base.getD i 0 + sgInt m (clsRec (dieClass m d) + 0x140 + 16 * (k - 1) + i)))

/-- Hard ladder steps a die takes (R340, R348). -/
def ladderSteps (m : Mx) (d : Nat) : Nat := if served m d then nstep m (dieClass m d) else 0

def sgDelta (m : Mx) : Nat := fld (reg m (sgOff 0x10)) 7 0

def bgDisturb (m : Mx) (d b : Nat) : Nat := sgLe m (bgState d b) 4

/-- R350: the side of mode 1 is upward. -/
def softUp (m : Mx) (d b : Nat) : Bool :=
  let l := (reg m (sgOff 0x14)).toNat
  (l != 0) && decide (l ≤ bgDisturb m d b)

/-- R350: a sense of the soft steps around a centre: every level of the page moved to one side. -/
def softOffs (m : Mx) (d row : Nat) (up : Bool) (centre : List Int) : List Int :=
  let ls := (pageLevels m d row).1
  let s : Int := if up then sgDelta m else -(sgDelta m : Int)
  (List.range 16).map (fun i => if ls.contains (i + 1) then clampOff m d (centre.getD i 0 + s) else centre.getD i 0)

/-! ## Disturb and speculative counts (R354, R355) -/

/-- R354: DISTURB has a new value. -/
def disturbLimit (d b : Nat) (m : Mx) : Mx :=
  let lim := (reg m (sgOff 0x20)).toNat
  if lim = 0 ∨ bgDisturb m d b ≤ lim ∨ (bgFlags m d b).testBit 1 then m
  else
    let m := setFlag d b 1 true m
    let v := word (2 ^ 31 + 2 ^ 11 * b + d)
    let m := { m with sg := { m.sg with distev := if bit m.sg.distev 31 then m.sg.distev else v } }
    raise (log m .disturb d b) 282

/-- R354, R355: a sense of `n` planes at its confirm command. -/
def senseCount (d row n : Nat) (spec : Bool) (m : Mx) : Mx :=
  let b := bgOf m d row
  let m := sgPut (bgState d b) (leBytes 4 (min 0xFFFFFFFF (bgDisturb m d b + n))) m
  let m := disturbLimit d b m
  if !spec then m
  else
    let m := sgPut (bgState d b + 4) (leBytes 2 (satInc (sgLe m (bgState d b + 4) 2) 0xFFFF)) m
    { m with sg := { m.sg with specrd := satInc m.sg.specrd 0xFFFFFFFF } }

/-! ## Learning (R346, R347) -/

/-- SG_LEARN's fields. LBOUND is 0 to 127 (R367); a greater one bounds as 127 does, the most a byte holds (log entry 33). -/
def sgLbound (m : Mx) : Nat := min 127 (fld (reg m (sgOff 0xC)) 23 16)
def sgHyst (m : Mx) : Nat := fld (reg m (sgOff 0xC)) 15 8
def sgDmin (m : Mx) : Nat := fld (reg m (sgOff 0xC)) 7 0

/-- R346: a level's accumulator has reached HYST. -/
def moveLevel (i l : Nat) (v : Int) (m : Mx) : Mx :=
  if sgLbound m = 0 then m
  else
    let n := clampI (-(sgLbound m : Int)) (sgLbound m) (learned m i l + v)
    let m := sgPut (16 * i + (l - 1)) [BitVec.ofNat 8 (unsigned 8 n)] m
    { m with sg := { m.sg with moves := satInc m.sg.moves 0xFFFFFFFF } }

/-- R346: the vote of one level slot. HYST holds values above 127 too, which lie outside its range: the s8 accumulator saturates, so
that one above 129 is never reached (DESIGN CHOICE, log entry 163). -/
def voteLevel (r : Stat) (l fell rose : Nat) (m : Mx) : Mx :=
  let d : Int := (fell : Int) - rose
  let v : Int := if 0 < d then -1 else 1
  let i := bgIdx r.die r.bg
  let p := predict m r.die r.bg r.bin l
  let u := r.used.getD (l - 1) 0
  if d.natAbs < sgDmin m then m
  else if (v < 0 ∧ p < u) ∨ (0 < v ∧ u < p) then m
  else
    let at_ := 0x80000 + 16 * i + (l - 1)
    let acc := sgInt m at_ + v
    if sgHyst m ≤ acc.natAbs then moveLevel i l v (sgPut at_ [0] m)
    else sgPut at_ [BitVec.ofNat 8 (unsigned 8 (clampI (-128) 127 acc))] m

/-- R346: one statistics record. -/
def learn (r : Stat) (m : Mx) : Mx :=
  if !bit (sgCfg m) 30 || (r.result != 0) || !served m r.die then m
  else
    let m := each ((List.range r.levels.length).map (fun s => (r.levels.getD s 1, r.fell.getD s 0, r.rose.getD s 0)))
      (fun x m => voteLevel r x.1 x.2.1 x.2.2 m) m
    let a := bgState r.die r.bg + 8
    sgPut a (leBytes 4 (satInc (sgLe m a 4) 0xFFFFFFFF)) m

/-- R347: the oldest record received. -/
def learnNext (m : Mx) : Mx :=
  match m.sg.recs with
  | [] => m
  | r :: rs => learn r { m with sg := { m.sg with recs := rs } }

/-! ## Table access (R341) -/

/-- Byte address that SG_TADDR names. -/
def sgAddr (m : Mx) : Nat := 4 * fld (reg m (sgOff 0x38)) 20 2

def sgAdvance (m : Mx) : Mx :=
  let a := reg m (sgOff 0x38)
  if bit a 31 then setReg m (sgOff 0x38) (word (2 ^ 31 + 4 * ((fld a 20 2 + 1) % 2 ^ 19))) else m

/-- Flags that follow a host write of a block-group state word: DISTF from DISTURB (R354), DIVF from PIN (R357). -/
def stateWritten (a : Nat) (m : Mx) : Mx :=
  let i := (a - 0x100000) / 16
  let d := i / 16
  let b := i % 16
  if a % 16 = 0 then
    (if bgDisturb m d b ≤ (reg m (sgOff 0x20)).toNat then setFlag d b 1 false m else disturbLimit d b m)
  else if a % 16 = 4 then setFlag d b 0 false m
  else m

/-- R341: a write of SG_TDATA. -/
def tableWrite (v : Word) (m : Mx) : Mx :=
  let a := sgAddr m
  if 0x18FC00 ≤ a then sgAdvance (log m .tableRefused (sgOff 0x3C))
  else
    let m := sgPut a (leBytes 4 v.toNat) m
    sgAdvance (if 0x100000 ≤ a ∧ a < 0x180000 then stateWritten a m else m)

/-- The word SG_TDATA shows. -/
def tableWord (m : Mx) : Word := if 0x190000 ≤ sgAddr m then 0 else word (sgLe m (sgAddr m) 4)

/-- R341: a read of SG_TDATA. -/
def tableRead (m : Mx) : Mx := sgAdvance (answer m (tableWord m))

end Sys2Proof.Machine
end

