-- ==== Sys2Proof/Machine/Dies.lean ====
section
/-! DEFINITION. Die contexts and the channel bus (05_channel_engine.md R194–R225): places and wait lists, die states,
the arbiter, die locks and held read-aheads. -/

namespace Sys2Proof.Machine

/-! ## Registers of a channel (R228–R230) -/

def chCfg (m : Mx) (c : Nat) : Word := reg m (chOff c 0)
def suspMax (m : Mx) (c : Nat) : Nat := fld (chCfg m c) 7 4
def mpGrp (m : Mx) (c : Nat) : Bool := bit (chCfg m c) 8
def rbIgn (m : Mx) (c : Nat) : Bool := bit (chCfg m c) 12
def pollIval (m : Mx) (c : Nat) : Nat := 100 * fld (reg m (chOff c 0x10)) 7 0
def specHold (m : Mx) (c : Nat) : Nat := fld (reg m (chOff c 0x20)) 15 0
def burstMax (m : Mx) (c : Nat) : Nat :=
  let b := fld (reg m (chOff c 0xC)) 8 0
  if b = 0 then 65536 else 128 * b

/-- R229: first-poll time of an operation, in ns. -/
def firstPoll (m : Mx) (c : Nat) : Op → Nat
  | .sense => 1000 * fld (reg m (chOff c 0x10)) 31 24
  | .program => 10000 * fld (reg m (chOff c 0x10)) 23 16
  | .erase => 100000 * fld (reg m (chOff c 0x10)) 15 8
  | .reset => pollIval m c

/-- R201, R230: limit of an operation, in ns. -/
def opLimit (m : Mx) (c : Nat) : Op → Nat
  | .sense => 1000 * fld (reg m (chOff c 0x14)) 15 0
  | .program => 1000 * fld (reg m (chOff c 0x14)) 31 16
  | .erase => 10000 * fld (reg m (chOff c 0x18)) 15 0
  | .reset => 1000 * fld (reg m (chOff c 0x18)) 31 16

/-- The image a group runs. -/
def imgOf (m : Mx) (g : Nat) : Option Img := (cluster m g).img

/-- 06_microcode.md R257: start address of a kind, 0xFFFF where it is not provided. -/
def kindAddr (m : Mx) (g k : Nat) : Nat :=
  match imgOf m g with
  | some i => i.entries.getD k 0xFFFF
  | none => 0xFFFF

/-- Die index of a context, when both numbers are in range. -/
def isCtx (c k : Nat) : Bool := decide (c < 128) && decide (k < 16)

/-! ## Work items -/

/-- The entry number an item of a die works for. -/
def itemEid (d : Nat) : Item → Option Nat
  | .entry e => some e
  | .group es => es.head?
  | .reread e _ _ _ _ => some e
  | .member i => some (memEid i)
  | .write e => some e
  | .spec => some (specEid d)
  | _ => none

def itemEnt (m : Mx) (d : Nat) (i : Item) : Option Ent :=
  match itemEid d i with
  | some e => ent m e
  | none => none

/-- Ring that an entry's work is done for: its own, or that of the entry it serves. -/
def servedRing (m : Mx) (eid : Nat) : Nat :=
  if isHostEid eid then eidRing eid
  else match ent m eid with
    | some e => eidRing e.serves
    | none => 0

/-- A write of the complex's own, for no entry (R194). -/
def isOwn (eid : Nat) : Bool := decide (2 ^ 32 ≤ eid) && decide (eid < 2 ^ 33)

def itemRing (m : Mx) (d : Nat) (i : Item) : Option Nat := (itemEid d i).map (servedRing m)

/-- R212: an entry that a suspension may carry out. -/
def isPlainRead (e : Ent) : Bool := (eOpc e == 0x01 || eOpc e == 0x05 || eOpc e == 0x20) && !eTimed e

/-- R199: opcodes that a SUSPECT die starts. -/
def onSuspect (e : Ent) : Bool := [0x08, 0x0B, 0x0A, 0x09].contains (eOpc e)

/-! ## The arbiter (R204–R210) -/

/-- Give the bus to a context. -/
def takeBus (m : Mx) (c k : Nat) : Mx :=
  setChan m c { chan m c with owner := some k, tenure := true, bytes := 0, since := m.md.time }

/-- R205: a parked owner is granted at once; another request withdraws the park. -/
def busRequest (d : Nat) (m : Mx) : Mx :=
  let c := dieCh d
  let k := dieCtx d
  let g := chan m c
  if g.tenure && g.owner == some k then m
  else if !g.tenure && g.owner == some k && !g.freeze && !g.held then takeBus m c k
  else if g.pend.any (fun q => q.ctx == k) then m
  else setChan m c { g with owner := if g.tenure then g.owner else none, pend := g.pend ++ [{ ctx := k, since := m.md.time }] }

/-- Drop a context's request. -/
def busForget (d : Nat) (m : Mx) : Mx :=
  setChan m (dieCh d) { chan m (dieCh d) with pend := (chan m (dieCh d)).pend.filter (fun q => q.ctx != dieCtx d) }

/-- A context holds a tenure. -/
def holdsBus (m : Mx) (d : Nat) : Bool := (chan m (dieCh d)).tenure && (chan m (dieCh d)).owner == some (dieCtx d)

/-- R206: a tenure ends; the grant parks while no context requests (R205, R208). -/
def endTenure (d : Nat) (m : Mx) : Mx :=
  let g := chan m (dieCh d)
  if holdsBus m d then
    setChan m (dieCh d) { g with tenure := false, bytes := 0,
                                 owner := if g.pend.isEmpty && !g.freeze && !g.held then g.owner else none }
  else m

/-- Chip enables of a target (06_microcode.md R241): that of an absent target, or of a disabled channel, stays high (02_boundary.md
R85). -/
def assertCe (d : Nat) (m : Mx) : Mx :=
  if (die m d).absent || !chEnabled m (dieCh d) then m
  else setChan m (dieCh d) { chan m (dieCh d) with ce := insN (chan m (dieCh d)).ce (dieTgt d) }
def releaseCe (d : Nat) (m : Mx) : Mx :=
  setChan m (dieCh d) { chan m (dieCh d) with ce := delN (chan m (dieCh d)).ce (dieTgt d) }

/-- R204: the highest-numbered context that requests. -/
def topReq (l : List BusReq) : Option BusReq :=
  l.foldl (fun b q => match b with
    | none => some q
    | some x => if x.ctx < q.ctx then some q else some x) none

/-- R210: the longest wait seen. -/
def noteWait (m : Mx) (c : Nat) (q : BusReq) : Mx :=
  let w := min 0xFFFF ((m.md.time - q.since) / 1000)
  if (chan m c).wait < w then setChan m c { chan m c with wait := w, waitCtx := q.ctx } else m

/-- R208: FREEZE. -/
def setFreeze (c : Nat) (on : Bool) (m : Mx) : Mx :=
  let g := chan m c
  setChan m c { g with freeze := on, owner := if on && !g.tenure then none else g.owner }

/-- R210: a wait has passed STARVE_LIM. -/
def starve (c k : Nat) (m : Mx) : Mx :=
  let lim := fld (reg m (chOff c 0x24)) 15 0
  match (chan m c).pend.find? (fun q => q.ctx == k && !q.starved) with
  | some q =>
    if lim ≠ 0 ∧ q.since + 1000 * lim < m.md.time then
      let m := setChan m c { chan m c with
        pend := (chan m c).pend.map (fun x => if x.ctx = k then { x with starved := true } else x) }
      raise (log m .starve c k) 272
    else m
  | none => m

/-! ## Die states (R197) -/

/-- R197: a die changes state; `why` numbers the trigger. -/
def changeState (d st why : Nat) (m : Mx) : Mx :=
  raise (log (setDie m d { die m d with state := st }) .dieState d why) 271

/-! ## Die locks (R220–R225) -/

/-- R220, R221: a lock of another ring keeps a ring out. -/
def lockOut (x : Die) (r : Nat) : Bool :=
  match x.lock with
  | .none => false
  | .pending o => o != r
  | .held o => o != r

/-- R220: once no entry of another ring holds a place, a PENDING lock is HELD. -/
def lockTurn (d : Nat) (m : Mx) : Mx :=
  match (die m d).lock with
  | .pending r =>
    if (die m d).queue.all (fun i => itemRing m d i == some r) then
      setDie m d { die m d with lock := .held r, lockAt := m.md.time }
    else m
  | _ => m

/-- R221: while a lock stands, the work items of the complex that may proceed: recovery, orphans, what an operation in
progress needs, and reads made for the owner ring. -/
def lockLets (m : Mx) (d : Nat) (i : Item) : Bool :=
  let own (r : Nat) : Bool := match i with
    | .reread _ _ _ _ _ => itemRing m d i == some r
    | .member _ => itemRing m d i == some r
    | .write e => !isOwn e && itemRing m d i == some r
    | .spec => false
    | _ => true
  match (die m d).lock with
  | .none => true
  | .pending r => own r
  | .held r => own r

/-! ## Read-aheads (R216–R219) -/

/-- A read-ahead ends without a trace but its counts. -/
def dropAhead (d : Nat) (m : Mx) : Mx :=
  let m := withdrawHold (specHoldDie d) (freeResv (dropEnt m (specEid d)) (.spec d))
  let x := die m d
  setDie m d { x with spec := none, cancel := false, adopt := false, holdx := false,
                      ahead := x.ahead.filter (fun i => i != .spec) }

/-- R218: a held read-ahead is cancelled, unless its own data-out has begun. -/
def cancelAhead (d : Nat) (m : Mx) : Mx :=
  match (die m d).spec with
  | none => m
  | some a => if a.out then m else setDie m d { die m d with cancel := true, spec := some { a with cancelled := true } }

/-- An item comes before all else that a context has to do, but for the GRP_INIT kind of its thread, which goes first
(06_microcode.md R253, R261). -/
def addFirst (d : Nat) (i : Item) (m : Mx) : Mx :=
  let l := (die m d).ahead
  setDie m d { die m d with ahead := l.filter (fun j => j == .grpInit) ++ i :: l.filter (fun j => j != .grpInit) }

/-- R197, R198: a NORMAL die becomes SUSPECT, and its recovery comes first; a read-ahead is cancelled (R218). -/
def toSuspect (d why : Nat) (m : Mx) : Mx :=
  if (die m d).state ≠ 0 then m
  else
    let m := changeState d 1 why m
    cancelAhead d (addFirst d .recover m)

/-- R197: a die becomes NORMAL by a STATUS entry: no recovery is left to run. -/
def toNormal (d why : Nat) (m : Mx) : Mx :=
  let m := changeState d 0 why m
  setDie m d { die m d with ahead := (die m d).ahead.filter (fun i => i != .recover) }

/-- The read-ahead's work item is in the context: running, or put aside for its READ's data-out (R216). -/
def specRuns (x : Die) : Bool := x.cur == some .spec || x.aside.map (·.1) == some .spec

/-- R217: a READ may adopt a read-ahead. -/
def mayAdopt (e : Ent) (x : Die) : Bool :=
  match x.spec with
  | none => false
  | some a =>
    specRuns x && !a.out && !a.cancelled && (eOpc e == 1) && (eRow e == a.row) &&
    (ePlanes e &&& a.planes == ePlanes e) && (eArg0 e == a.arg0) && (eProfile e == a.profile) && (eArg1 e == a.arg1) &&
    !eTimed e && !ePinned e

/-- R217: once the READ that started it has gone, the frame of an adopted read-ahead is that of its READ alone. -/
def soleFrame (d : Nat) (m : Mx) : Mx :=
  let x := die m d
  if x.aside.isNone && x.frame.ahead && x.cur != some .spec then setDie m d { x with frame := { x.frame with ahead := false } }
  else m

/-- R217: adoption: the sense becomes the READ's own, with the base that has been formed for it (09_seeing.md R345). -/
def adopt (d eid : Nat) (e : Ent) (a : Ahead) (m : Mx) : Mx :=
  let m := setEnt m eid { e with stage := .placed, arr := true, specUsed := true, base := a.base, bin := a.bin,
                                 admitted := true }
  let m := freeResv (dropEnt m (specEid d)) (.spec d)
  let x := die m d
  soleFrame d <| setDie m d { x with
    cur := if x.cur = some .spec then some (.entry eid) else x.cur,
    aside := x.aside.map (fun h => if h.1 = .spec then (.entry eid, h.2) else h),
    queue := x.queue ++ [.entry eid], adopt := true, spec := none }

/-! ## Places and the wait list (R195) -/

/-- An entry takes a place. -/
def takePlace (d eid : Nat) (e : Ent) (m : Mx) : Mx :=
  let m := setEnt m eid { e with stage := .placed, arr := true }
  let m := cancelAhead d m
  setDie m d { die m d with queue := (die m d).queue ++ [.entry eid] }

/-- An entry joins the wait list. -/
def joinWait (d eid : Nat) (e : Ent) (m : Mx) : Mx :=
  setDie (setEnt m eid { e with stage := .placed, arr := true }) d { die m d with wait := (die m d).wait ++ [eid] }

/-- R195, R221: an entry reaches its context: it adopts the read-ahead, takes a place, or joins the wait list. -/
def reachCtx (d eid : Nat) (e : Ent) (m : Mx) : Mx :=
  let x := die m d
  if lockOut x (eidRing eid) || decide (8 ≤ x.queue.length) then joinWait d eid e m
  else if mayAdopt e x then
    match x.spec with
    | some a => adopt d eid e a m
    | none => takePlace d eid e m
  else takePlace d eid e m

/-- The first waiting entry that the lock lets in. -/
def nextWaiting (x : Die) : Option Nat := x.wait.find? (fun e => !lockOut x (eidRing e))

/-- R195: free places are taken in the order of joining. -/
def refill : Nat → Nat → Mx → Mx
  | 0, _, m => m
  | n + 1, d, m =>
    let x := die m d
    if 8 ≤ x.queue.length then m
    else match nextWaiting x with
      | none => m
      | some eid =>
        let m := cancelAhead d (setDie m d { x with wait := x.wait.filter (fun e => e != eid) })
        refill n d (setDie m d { die m d with queue := (die m d).queue ++ [.entry eid] })

/-- A place has become free. -/
def placeFreed (d : Nat) (m : Mx) : Mx := refill 8 d (lockTurn d m)

/-- An item leaves its place. -/
def leavePlace (d : Nat) (i : Item) (m : Mx) : Mx :=
  placeFreed d (setDie m d { die m d with queue := (die m d).queue.filter (fun x => x != i) })

/-- Drop an entry from a context's queue, wait list and internal items, where it has not begun. -/
def unplace (d eid : Nat) (m : Mx) : Mx :=
  let x := die m d
  placeFreed d (setDie m d { x with
    queue := x.queue.filter (fun i => i != .entry eid || x.cur == some i),
    wait := x.wait.filter (fun e => e != eid),
    suspLeft := x.suspLeft.filter (fun e => e != eid),
    ahead := x.ahead.filter (fun i => match i with | .reread e _ _ _ _ => e != eid | _ => true) })

/-! ## Frames (06_microcode.md R234, R235) -/

/-- Start a frame at an address for an item. -/
def startItem (d addr : Nat) (i : Item) (m : Mx) : Mx :=
  setDie m d { die m d with cur := some i, frame := { active := true, pc := addr } }

/-- The frame of a die goes idle: its bus request, tenure, chip enable, and what it has asked of Transit or not yet anchored. A
profile that is anchored runs on. -/
def haltFrame (d : Nat) (m : Mx) : Mx :=
  let m := if (die m d).frame.asks then withdrawHold (specHoldDie d) m else m
  let m := withdrawHold d (releaseCe d (busForget d (endTenure d m)))
  setDie m d { die m d with cur := none, frame := {}, busy := none }

/-- The frame of a die goes idle, and the phase that Transit holds for it ends. -/
def stopFrame (d : Nat) (m : Mx) : Mx := endHold d (haltFrame d m)

/-- A frame gives the context up to the one put aside (R216): a READ's frame then asks for the bus again, since the other
may have given it up. -/
def swapAside (d : Nat) (m : Mx) : Mx :=
  let x := die m d
  match x.aside, x.cur with
  | some (j, f), some i =>
    let m := setDie m d { x with cur := some j, frame := { f with regain := f.regain || (!f.ahead && !holdsBus m d) }, aside := some (i, x.frame) }
    if (die m d).frame.regain then busRequest d m else m
  | _, _ => m

/-- The frame in use ends: its bus goes, and a frame put aside takes its place (R216); what Transit holds for the context is the
read-ahead's then, and ends with its frame. -/
def yieldFrame (d : Nat) (m : Mx) : Mx :=
  match (die m d).aside with
  | none => stopFrame d m
  | some _ =>
    let m := if (die m d).frame.ahead then endHold d (withdrawHold d m) else m
    let m := swapAside d (releaseCe d (busForget d (endTenure d m)))
    soleFrame d (setDie m d { die m d with aside := none })

/-- DUE and RBRDY of a frame (06_microcode.md R240): a rise of RB_N that has not been answered stays. -/
def dueFrame (rbr : Bool) (f : Frame) : Frame := { f with due := true, rbr := rbr || (f.due && f.rbr) }

/-- The frame that waits for the die's operation: a read-ahead's, wherever it stands, else the one in use (R202, R216). -/
def setDue (d : Nat) (rbr : Bool) (m : Mx) : Mx :=
  let x := die m d
  match x.aside with
  | some (i, f) =>
    if f.ahead then setDie m d { x with aside := some (i, dueFrame rbr f) }
    else setDie m d { x with frame := dueFrame rbr x.frame }
  | none => setDie m d { x with frame := dueFrame rbr x.frame }

/-- A fresh item for the internal work of a die, ahead of every entry that has not begun. -/
def addAhead (d : Nat) (i : Item) (m : Mx) : Mx :=
  cancelAhead d (setDie m d { die m d with ahead := (die m d).ahead ++ [i] })

end Sys2Proof.Machine
end

