-- ==== Sys2Proof/Machine/Internal.lean ====
section
/-! DEFINITION. Writes that the complex makes of its own accord, journal copies and Night Log segments: reservation, encoders,
die context (05_channel_engine.md R194; 08_codec.md R313; 10_stripes.md R400, R401; 14_dome_nightlog.md R525–R527). -/

namespace Sys2Proof.Machine

/-- Fields of an internal work item's entry. -/
def mkRaw (opc flags d planes row col ncw prof arg0 : Nat) : BitVec 512 :=
  BitVec.ofNat 512 (opc + 2 ^ 8 * flags + 2 ^ 32 * d + 2 ^ 48 * planes + 2 ^ 64 * row + 2 ^ 96 * col + 2 ^ 112 * ncw +
    2 ^ 312 * prof + 2 ^ 384 * arg0)

def sysW (m : Mx) (k : Nat) : Option SysW := (m.wr.find? (fun x => x.1 == k)).map (·.2)
def setSys (m : Mx) (k : Nat) (w : SysW) : Mx := { m with wr := tabSet m.wr k w }
def dropSys (m : Mx) (k : Nat) : Mx := { m with wr := m.wr.filter (fun x => x.1 != k) }

/-- Class of Transit's requests for a write: 3 for the Plate journal; 1 for the Night Log (8), Seeing (9) and the Ephemeris (10)
(11_meridian_transit.md R429). -/
def sysClass (k : Nat) : Nat := if 8 ≤ k ∧ k ≤ 10 then 1 else 3

/-- A page-set of 16 codewords of profile LP1024, and the erase of a block. -/
def sysEnt (d row opc : Nat) (st : Stage) : Ent :=
  { raw := mkRaw opc 0 d 15 row 0 16 5 0, arr := true, stage := st }

/-- The plain bytes of a page-set's codewords: the image, zeros after it, and no host metadata. -/
def sysFill (k : Nat) (img : List Byte) (m : Mx) : Mx :=
  each (List.range 16) (fun i m =>
    let l := slice img (4096 * i) 4096
    resvWrite m (.sys k) (i * frameLen 5) (l ++ List.replicate (4128 - l.length) 0)) m

/-- Begin what comes next of a write: a program takes its reservation, of class SYS, first. -/
def sysNext (k : Nat) (m : Mx) : Mx :=
  match sysW m k with
  | none => m
  | some w =>
    match w.ops with
    | [] => setSys m k { w with ended := some (0, 0) }
    | (row, .erase) :: _ => addAhead w.die (.write (sysEid k)) (setEnt m (sysEid k) (sysEnt w.die row 3 .placed))
    | (row, _) :: _ => askResv (setEnt m (sysEid k) (sysEnt w.die row 2 .waitRes)) (.sys k) 4 (16 * frameLen 5)

/-- A write to a die begins. -/
def sysStart (k d : Nat) (ops : List (Nat × SysOp)) (m : Mx) : Mx := sysNext k (setSys m k { die := d, ops := ops })

/-- One copy of a write made in two copies begins. -/
def copyStart (k d : Nat) (b later : Bool) (ops : List (Nat × SysOp)) (m : Mx) : Mx :=
  sysNext k (setSys m k { die := d, ops := ops, copyB := b, later := later })

/-- 09_seeing.md R336–R339: the bits of a table byte that are not reserved. -/
def sgKept (a : Nat) : Byte :=
  if a < 0x100000 then 0xFF
  else if a < 0x180000 then (if a % 16 < 0xC then 0xFF else if a % 16 = 0xC then 0x03 else 0)
  else if a < 0x188000 then (if a % 16 = 0 then 0x07 else if a % 16 < 4 then 0xFF else 0)
  else if a < 0x18C000 then 0xFF
  else if a < 0x18C800 then
    (let k := a % 512
     if k < 3 ∨ 0x40 ≤ k then 0xFF else if k < 4 ∨ 0x14 ≤ k ∨ k % 4 = 3 then 0 else 0xFF)
  else if a < 0x18FC00 then 0
  else 0xFF

/-- The Seeing table as a save writes it: every reserved byte and bit is zero (00_scope.md R17). -/
def savedTable (m : Mx) : Mem := (m.sg.table.map (fun c => (c.1, c.2 &&& sgKept c.1))).filter (fun c => c.2 != 0)

/-- 09_seeing.md R361: page-set `i` of the Seeing table is copied as it stands; the last carries ICRC over all that this copy
of the save has been given. -/
def tablePage (i : Nat) (m : Mx) : List Byte × Mx :=
  let l := memRead (savedTable m) (65536 * i) 65536
  let before := m.sg.image.take (65536 * i)
  let c := leBytes 4 (crc32c (before ++ l.take 65532))
  let l := if i = 24 then l.take 65532 ++ c else l
  let m := if i = 24 then sgPut 0x18FFFC c m else m
  (l, { m with sg := { m.sg with image := before ++ l } })

/-- The bytes that the program at the head of a write takes. -/
def sysBytes (w : SysW) (m : Mx) : List Byte × Mx :=
  match w.ops with
  | (_, .bytes l) :: _ => (l, m)
  | (_, .table i) :: _ => tablePage i m
  | _ => ([], m)

/-- Its reservation is granted: the page-set goes to the encoders of the die's group. -/
def sysGranted (k : Nat) (m : Mx) : Mx :=
  match sysW m k, ent m (sysEid k) with
  | some w, some e =>
    let r := sysBytes w m
    encodeAll (sysEid k) e 16 (dieGrp w.die) (sysFill k r.1 r.2)
  | _, _ => m

/-- An erase or program of a write has ended: the next follows, or the write has ended. -/
def sysEnded (k : Nat) (s : Nat × Nat) (m : Mx) : Mx :=
  match sysW m k with
  | none => m
  | some w =>
    let m := freeResv (dropEnt m (sysEid k)) (.sys k)
    if s.1 = 0 then sysNext k (setSys m k { w with ops := w.ops.drop 1 }) else setSys m k { w with ended := some s }

/-- The program of an encoded page-set goes to its die, ahead of every entry that has not begun. -/
def placeWrite (eid : Nat) (m : Mx) : Mx :=
  match ent m eid with
  | some e => addAhead (eDie e) (.write eid) (setEnt m eid { e with stage := .placed })
  | none => m

/-- The plain bytes of a page-set of the complex's own are supplied again (08_codec.md R320, R328): from the record it is made
of, or, for a REBUILD, by doing the stripe again. -/
def supplyOwn (eid : Nat) (m : Mx) : Mx :=
  if eid < 2 ^ 33 then sysGranted (eid - 2 ^ 32) m
  else
    let r := eid - 2 ^ 33
    { dropEnt m eid with st := { m.st with walk := tabSet m.st.walk r { tabGet {} m.st.walk r with at_ := .idle } } }

/-! ## The configuration record's copies (15_startup_reset_power.md R541, R543; 07_phy_calibration.md R294) -/

def cfgDie (m : Mx) (b : Bool) : Nat := if b then fld (reg m 0x30) 26 16 else fld (reg m 0x30) 10 0

/-- Page-sets programmed in a copy's block; 0 where it is full and must be erased. -/
def cfgPage (m : Mx) (b : Bool) : Nat :=
  let n := if b then m.gl.cfgAtB else m.gl.cfgAtA
  if ppb m (cfgDie m b) ≤ n then 0 else n

/-- R541: a configuration write has failed. -/
def cfgFails (m : Mx) : Mx := log { m with gl := { m.gl with wrBusy := false, wrFail := true } } .cfgFailed

/-- R541: the record is appended to a copy in the manner of R294. -/
def cfgCopyStart (b later : Bool) (m : Mx) : Mx :=
  let row := (reg m 0x34).toNat
  let lead : List (Nat × SysOp) := if ppb m (cfgDie m b) ≤ (if b then m.gl.cfgAtB else m.gl.cfgAtA) then [(row, .erase)] else []
  copyStart 11 (cfgDie m b) b later (lead ++ [(row + cfgPage m b, .bytes m.gl.cfgNew)]) m

/-- The copy being written has its page-set, passed or given up. -/
def cfgCopyDone (b : Bool) (seq : Option Nat) (m : Mx) : Mx :=
  let n := cfgPage m b + 1
  { m with gl := if b then { m.gl with cfgB := seq, cfgAtB := n } else { m.gl with cfgA := seq, cfgAtA := n } }

/-- R541: a copy has been programmed and status-read: the island copy is replaced once the first has passed, and the other follows. -/
def cfgTurn (m : Mx) : Mx :=
  match sysW m 11, (sysW m 11).bind (·.ended) with
  | some w, some s =>
    let m := dropSys m 11
    if s.1 ≠ 0 then cfgFails (cfgCopyDone w.copyB none m)
    else
      let m := cfgCopyDone w.copyB (some (leAt m.gl.cfgNew 8 8)) m
      if w.later then { m with gl := { m.gl with wrBusy := false, wrFail := false } }
      else cfgCopyStart (!w.copyB) true { m with gl := { m.gl with island := some m.gl.cfgNew } }
  | _, _ => m

/-- R541, R543: PFAIL_N abandons a configuration write, as a warm reset does: the copy being written is lost. -/
def cfgCut (m : Mx) : Mx :=
  match sysW m 11 with
  | some w => cfgFails (cfgCopyDone w.copyB none (dropSys m 11))
  | none => m

end Sys2Proof.Machine
end

