-- ==== Sys2Proof/Machine/SeeingSave.lean ====
section
/-! DEFINITION. Seeing's saved image, its registers and its commands (09_seeing.md R360–R368). -/

namespace Sys2Proof.Machine

/-! ## Saving and loading (R360–R364) -/

def saveLoc (m : Mx) : Word := reg m (sgOff 0x40)
def saveDie (m : Mx) (b : Bool) : Nat := if b then fld (saveLoc m) 26 16 else fld (saveLoc m) 10 0
def savePer (m : Mx) : Nat := fld (reg m (sgOff 0x48)) 15 0

/-- Number of the next save. -/
def nextSave (m : Mx) : Nat :=
  1 + max (if m.sg.copyA.valid then m.sg.copyA.seq else 0) (if m.sg.copyB.valid then m.sg.copyB.seq else 0)

/-- R361: the image header but for its check. -/
def saveHeader (m : Mx) (seq : Nat) : List Byte :=
  leBytes 4 0x4E454553 ++ leBytes 2 1 ++ leBytes 2 0 ++ leBytes 8 seq ++ leBytes 8 m.md.time ++ leBytes 8 m.dm.dose ++
  List.replicate 988 0

/-- R362: copy B is written first. -/
def saveBFirst (m : Mx) : Bool :=
  m.sg.copyA.valid && (!m.sg.copyB.valid || decide (m.sg.copyB.seq < m.sg.copyA.seq))

def setSaveCopy (b : Bool) (c : Copy) (m : Mx) : Mx :=
  if b then { m with sg := { m.sg with copyB := c } } else { m with sg := { m.sg with copyA := c } }

/-- R360: a copy of the save begins: its block is erased and the 25 page-sets follow in table order; a block too small for them
fails it (R362). -/
def saveCopy (b later : Bool) (m : Mx) : Mx :=
  let d := saveDie m b
  let row := (reg m (sgOff 0x44)).toNat
  if ppb m d < 25 then setSys m 9 { die := d, copyB := b, later := later, ended := some (0x1500, 0) }
  else copyStart 9 d b later ((row, .erase) :: (List.range 25).map (fun i => (row + i, .table i))) m

/-- R360, R361: a save starts, unless one runs or the table has no place. -/
def startSave (m : Mx) : Mx :=
  if !bit (saveLoc m) 31 || m.sg.saving.isSome then m
  else
    let q := nextSave m
    saveCopy (saveBFirst m) false
      (sgPut 0x18FC00 (saveHeader m q) { m with sg := { m.sg with saving := some q, savedAt := m.md.time } })

/-- R362: the copy being written passes or is given up; the other stands. -/
def saveFailed (b : Bool) (m : Mx) : Mx :=
  let m := setSaveCopy b {} m
  let m := { m with sg := { m.sg with saving := none, savefail := true } }
  raise (log m .saveFailed (saveDie m b) (bitAt b 0)) 284

/-- R362: every page-set of a copy has passed: of the first, the other copy follows. -/
def saveTurn (m : Mx) : Mx :=
  match sysW m 9, m.sg.saving with
  | some w, some q =>
    if w.ended.map (·.1) = some 0 then
      let m := setSaveCopy w.copyB { valid := true, seq := q } m
      if w.later then m else saveCopy (!w.copyB) true (dropSys m 9)
    else m
  | _, _ => m

/-- R362: the save ends, with both copies written or with one failed. -/
def endSave (m : Mx) : Mx :=
  match sysW m 9, (sysW m 9).bind (·.ended) with
  | some w, some s =>
    let m := dropSys m 9
    if s.1 = 0 then { m with sg := { m.sg with saving := none, savefail := false, image := [] } }
    else saveFailed w.copyB { m with sg := { m.sg with image := [] } }
  | _, _ => m

/-- R362: PFAIL_N ends a save, or a warm reset cuts it (15_startup_reset_power.md R543): the copy being written is abandoned. A
copy already written through stands. -/
def saveCut (m : Mx) : Mx :=
  match m.sg.saving, sysW m 9 with
  | some _, some w => saveFailed w.copyB { dropSys m 9 with sg := { m.sg with image := [] } }
  | _, _ => m

/-- R363: a saved image is valid. -/
def imageOk (l : List Byte) : Bool :=
  (leAt l 0x18FC00 4 == 0x4E454553) && (leAt l 0x18FC04 2 == 1) && (leAt l 0x18FFFC 4 == crc32c (slice l 0 0x18FFFC))

def imageSeq (l : List Byte) : Nat := leAt l 0x18FC08 8

/-- The memory that holds a list of bytes from address 0. -/
def memOf (l : List Byte) : Mem := ((List.range l.length).zip l).filter (fun c => c.2 != 0)

def imageCopy (o : Option (List Byte)) : Copy :=
  match o with
  | some l => if imageOk l then { valid := true, seq := imageSeq l } else {}
  | none => {}

/-- Load one image. -/
def loadImage (b : Bool) (o : Option (List Byte)) (m : Mx) : Mx :=
  { m with sg := { m.sg with table := memOf ((o.getD []).take 0x190000), loaded := true, loadsrc := b } }

/-- R363: the load of a cold start. -/
def loadSeeing (a b : Option (List Byte)) (m : Mx) : Mx :=
  if !bit (saveLoc m) 31 then m
  else
    let ca := imageCopy a
    let cb := imageCopy b
    let m := { m with sg := { m.sg with copyA := ca, copyB := cb, savedAt := m.md.time } }
    if cb.valid && (!ca.valid || decide (ca.seq < cb.seq)) then loadImage true b m
    else if ca.valid then loadImage false a m
    else log m .noImage

/-! ## Registers (R366–R368) -/

/-- Reads of the SG block, by offset. -/
def sgRead (m : Mx) (k : Nat) : Word :=
  if k = 8 then word (bitAt m.sg.saving.isSome 31 + bitAt m.sg.loaded 30 + bitAt m.sg.loadsrc 29 + bitAt m.sg.savefail 28)
  else if k = 0x1C then m.sg.diverge
  else if k = 0x24 then m.sg.distev
  else if k = 0x28 then word m.sg.specrd
  else if k = 0x2C then word m.sg.moves
  else if k = 0x30 then word m.sg.dose
  else if k = 0x34 then word (m.sg.dose / 2 ^ 32)
  else if k = 0x3C then tableWord m
  else if k = 0 ∨ k = 0xC ∨ k = 0x10 ∨ k = 0x14 ∨ k = 0x18 ∨ k = 0x20 ∨ k = 0x38 ∨ (0x40 ≤ k ∧ k ≤ 0x48) then reg m (sgOff k)
  else 0

def clearSpec (m : Mx) : Mx := { m with sg := { m.sg with specrd := 0 } }
def clearMoves (m : Mx) : Mx := { m with sg := { m.sg with moves := 0 } }

/-- Writes of the SG block, by offset. -/
def sgWrite (k : Nat) (v : Word) (m : Mx) : Mx :=
  if k = 0 then setReg m (sgOff k) (v &&& 0xC0000000)
  else if k = 4 then onlyIf (bit v 0) startSave (onlyIf (bit v 1) clearMoves (onlyIf (bit v 2) clearSpec m))
  else if k = 0xC then checkedWrite ((fld v 15 8 != 0) && (fld v 7 0 != 0)) (sgOff k) 0xFFFFFF 0 v m
  else if k = 0x10 ∨ k = 0x18 then setReg m (sgOff k) (v &&& 0xFF)
  else if k = 0x14 ∨ k = 0x20 then setReg m (sgOff k) v
  else if k = 0x1C then { m with sg := { m.sg with diverge := if bit v 31 then m.sg.diverge &&& 0x7FFFFFFF else m.sg.diverge } }
  else if k = 0x24 then { m with sg := { m.sg with distev := if bit v 31 then m.sg.distev &&& 0x7FFFFFFF else m.sg.distev } }
  else if k = 0x38 then setReg m (sgOff k) (v &&& 0x801FFFFC)
  else if k = 0x3C then tableWrite v m
  else if k = 0x40 then checkedWrite (!sameGroup v) (sgOff k) 0 0x87FF07FF v m
  else if k = 0x44 then maskedWrite (sgOff k) 0 0xFFFFFFFF v m
  else if k = 0x48 then setReg m (sgOff k) (v &&& 0xFFFF)
  else m

/-! ## Meanings -/

/-- LEARNING_UPDATE (R346, R347). -/
def execLearningUpdate (s : State) : Res := act s learnNext

/-- SG_TDATA_WRITE (R341). -/
def execSgTdataWrite (val : Word) (s : State) : Res := act s (access (sgOff 0x3C) true (tableWrite val))

/-- SG_TDATA_READ (R341). -/
def execSgTdataRead (s : State) : Res := act s (access (sgOff 0x3C) false tableRead)

/-- SAVE (R360). -/
def execSave (s : State) : Res := act s (access (sgOff 4) true startSave)

/-- SAVE_PERIOD (R360): the period has passed since the last save. -/
def execSavePeriod (s : State) : Res :=
  act s (fun m => onlyIf ((savePer m != 0) && decide (m.sg.savedAt + 3600000000000 * savePer m ≤ m.md.time)) startSave m)

/-- SAVE_END (R362). -/
def execSaveEnd (_okFirst _okSecond : Told) (s : State) : Res := act s endSave

/-- CLRSPEC (R367). -/
def execClrSpec (s : State) : Res := act s (access (sgOff 4) true clearSpec)

/-- CLRMOVES (R367). -/
def execClrMoves (s : State) : Res := act s (access (sgOff 4) true clearMoves)

end Sys2Proof.Machine
end

