-- ==== Sys2Proof/Machine/NightLog.lean ====
section
/-! DEFINITION. The Night Log (14_dome_nightlog.md R516–R528): its records, the cursor, and persistence. -/

namespace Sys2Proof.Machine

def nlReg (m : Mx) (k : Nat) : Word := reg m (nlOff k)

/-- SEVF of a record. -/
def sevf (r : NlRec) : Nat := r.arr.sev % 8 + bitAt r.carried 3 + bitAt r.restored 4

/-- R516: the 30 bytes that the check covers. -/
def recBody (r : NlRec) : List Byte :=
  leBytes 4 r.seq ++ leBytes 8 r.arr.time ++ leBytes 2 r.arr.code.toNat ++ leBytes 1 (sevf r) ++ [r.arr.fmt] ++
  leBytes 4 r.arr.p0.toNat ++ leBytes 4 r.arr.p1.toNat ++ leBytes 4 r.arr.p2.toNat ++ leBytes 2 r.rep

/-- R516: the 32 bytes of a record. -/
def recBytes (r : NlRec) : List Byte := recBody r ++ leBytes 2 (crc16 (recBody r))

/-! ## Taking records (R518–R520) -/

/-- R519: an arrival merges into the newest record. -/
def merges (m : Mx) (r : NlRec) (a : Arrival) : Bool :=
  (r.arr.code == a.code) && (sevf r == a.sev % 8) && (r.arr.p0 == a.p0) && (r.arr.p1 == a.p1) && (r.arr.p2 == a.p2) &&
  !r.persisted && !r.closed && decide (a.time < r.arr.time + 1000000 * fld (nlReg m 0) 15 0)

/-- The lowest severity held. -/
def leastSev (l : List NlRec) : Nat := l.foldl (fun a r => min a r.arr.sev) 8

/-- R520: the record that gives up its place, if any may. -/
def victim (l : List NlRec) (sev : Nat) : Option Nat :=
  match l.find? (·.persisted) with
  | some r => some r.seq
  | none =>
    let s := leastSev l
    if s < sev then (l.find? (fun r => r.arr.sev == s)).map (·.seq) else none

/-- R520: a record for which no place is found is dropped and counted. -/
def dropRec (m : Mx) (a : Arrival) : Mx :=
  { m with nl := { m.nl with drops := satInc m.nl.drops 0xFFFFFFFF, dropsNew := m.nl.dropsNew + 1,
                             dropSev := max m.nl.dropSev a.sev } }

/-- R518: a record takes the next SEQ; an ALERT record raises NL_ALERT. -/
def appendRec (m : Mx) (l : List NlRec) (a : Arrival) : Mx :=
  let m := { m with nl := { m.nl with recs := l ++ [{ seq := m.nl.next, arr := a }],
                                      next := (m.nl.next + 1) % 2 ^ 32,
                                      alertDue := m.nl.alertDue || decide (4 ≤ a.sev) } }
  if 4 ≤ a.sev then raise m 296 else m

/-- R518–R520: place a record or merge it. -/
def placeRec (m : Mx) (a : Arrival) : Mx :=
  match m.nl.recs.getLast? with
  | some r =>
    if merges m r a then
      { m with nl := { m.nl with recs := m.nl.recs.dropLast ++ [{ r with rep := satInc r.rep 0xFFFF }] } }
    else if m.nl.recs.length < 32768 then appendRec m m.nl.recs a
    else match victim m.nl.recs a.sev with
      | some v => appendRec m (m.nl.recs.filter (fun r => r.seq != v)) a
      | none => dropRec m a
  | none => appendRec m [] a

/-! ## Persistence (R524–R527) -/

/-- Records not yet persisted, oldest first. -/
def unpersisted (m : Mx) : List NlRec := m.nl.recs.filter (fun r => !r.persisted)

/-- NL_LOGLOC names its dies. -/
def logValid (m : Mx) : Bool := bit (nlReg m 0x40) 31
def logDie (m : Mx) (copyB : Bool) : Nat := if copyB then fld (nlReg m 0x40) 26 16 else fld (nlReg m 0x40) 10 0

/-- R527: where a block is full, the next is taken: its ALERT records are carried, and once erased it opens with a legend. -/
def nextBlock (m : Mx) : Mx :=
  if m.nl.page ≠ 0 ∧ m.nl.page < min (ppb m (logDie m false)) (ppb m (logDie m true)) then m
  else
    let b := if m.nl.page = 0 then m.nl.blk else (m.nl.blk + 1) % max 1 (fld (nlReg m 0x48) 11 0)
    let old := tabGet [] m.nl.alerts b
    { m with nl := { m.nl with blk := b, page := 1, fresh := (true, true), sseq := m.nl.sseq + 1, alerts := tabSet m.nl.alerts b [],
                               carry := (old.drop (old.length - 2040)).map (fun r => { r with carried := true }) } }

/-- R525: the 256 bytes of a segment's header. -/
def segHeader (m : Mx) (flags sseq first nrec ncarry : Nat) : List Byte :=
  let p := m.dm.pkg.getD []
  let h := leBytes 4 0x474F4C4E ++ leBytes 2 1 ++ leBytes 1 flags ++ leBytes 1 0 ++ leBytes 8 sseq ++ leBytes 4 first ++
    leBytes 2 nrec ++ leBytes 2 ncarry ++ leBytes 8 m.md.time ++ leBytes 8 m.dm.dose ++ leBytes 4 (leAt p 0x24 4) ++
    leBytes 4 (leAt p 0x10 4) ++ List.replicate 204 0
  h ++ leBytes 4 (crc32c h)

/-- R525: copy A of a segment: its header, the carried records and the records taken. -/
def segImage (m : Mx) (sseq : Nat) (carry recs : List NlRec) : List Byte :=
  segHeader m 0 sseq (((unpersisted m).head?.map (·.seq)).getD m.nl.next) (carry.length + recs.length) carry.length ++
  (carry ++ recs).flatMap recBytes

/-- R525: copy B differs in HFLAGS, and so in HCRC. -/
def copyBImage (l : List Byte) : List Byte :=
  let h := l.take 6 ++ [l.getD 6 0 ||| 1] ++ (l.drop 7).take 245
  h ++ leBytes 4 (crc32c h) ++ l.drop 256

/-- R527: the legend of a block: no records, and the catalogue's text in their place. -/
def legendImage (m : Mx) (sseq : Nat) : List Byte :=
  let p := m.dm.pkg.getD []
  segHeader m 2 sseq (((unpersisted m).head?.map (·.seq)).getD m.nl.next) 0 0 ++ slice p (leAt p 0x1C 4) (leAt p 0x20 4)

/-- R526, R527: the copy of the segment whose turn it is goes to its die; a new block is erased and given its legend first. -/
def writeSegment (m : Mx) : Mx :=
  match m.nl.seg with
  | none => m
  | some g =>
    let d := logDie m g.copyB
    let row := (nlReg m 0x44).toNat + m.nl.blk * 2 ^ pgBits m d
    let lg := legendImage m (g.sseq - 1)
    let lead : List (Nat × SysOp) := if (if g.copyB then m.nl.fresh.2 else m.nl.fresh.1) then
        [(row, .erase), (row, .bytes (if g.copyB then copyBImage lg else lg))]
      else []
    sysStart 8 d (lead ++ [(row + g.page, .bytes g.image)]) m

/-- R524: a segment takes the oldest unpersisted records and closes them to merging. -/
def startSegment (m : Mx) : Mx :=
  if !domeRuns m || !logValid m || (unpersisted m).isEmpty then m
  else if m.nl.seg.isSome then { m with nl := { m.nl with due := true } }
  else
    let m := nextBlock m
    let taken := (unpersisted m).take (2040 - m.nl.carry.length)
    let seqs := taken.map (·.seq)
    writeSegment { m with nl := { m.nl with
        recs := m.nl.recs.map (fun r => if seqs.contains r.seq then { r with closed := true } else r),
        seg := some { sseq := m.nl.sseq + 1, seqs := seqs, page := m.nl.page, image := segImage m (m.nl.sseq + 1) m.nl.carry taken },
        sseq := m.nl.sseq + 1, due := false,
        alertDue := ((unpersisted m).drop (2040 - m.nl.carry.length)).any (fun r => decide (4 ≤ r.arr.sev)) } }

/-- R524: 2,040 unpersisted records start a segment. -/
def persistOnCount (m : Mx) : Mx :=
  if 2040 ≤ (unpersisted m).length ∧ m.nl.seg = none then startSegment m else m

/-- R520: one LOG_DROPPED record after a persistence. -/
def reportDrops (m : Mx) : Mx :=
  if m.nl.dropsNew = 0 then m
  else
    let n := m.nl.dropsNew
    let v := m.nl.dropSev
    log { m with nl := { m.nl with dropsNew := 0, dropSev := 0 } } .logDropped n v

/-- A segment has ended. -/
def endSegment (m : Mx) : Mx :=
  let m := reportDrops { m with nl := { m.nl with seg := none } }
  if m.nl.due then startSegment m else persistOnCount m

/-- R526: a copy has passed: its records count as persisted, and the block now holds its ALERT records. -/
def copyPassed (m : Mx) (g : NlSeg) : Mx :=
  let held := m.nl.recs.filter (fun r => g.seqs.contains r.seq && decide (4 ≤ r.arr.sev))
  { m with nl := { m.nl with
      recs := m.nl.recs.map (fun r => if g.seqs.contains r.seq then { r with persisted := true } else r),
      alerts := tabSet m.nl.alerts m.nl.blk (tabGet [] m.nl.alerts m.nl.blk ++ m.nl.carry ++ held),
      carry := [], page := m.nl.page + 1 } }

/-- R526: a copy of the segment has ended: it passed where both its STATUS and DETAIL are zero. -/
def segmentCopy (m : Mx) : Mx :=
  match m.nl.seg, (sysW m 8).bind (·.ended) with
  | some g, some s =>
    let m := dropSys m 8
    if s.1 = 0 then
      let f := m.nl.fresh
      if g.copyB then endSegment { m with nl := { m.nl with fresh := (f.1, false) } }
      else
        let m := copyPassed m g
        writeSegment { m with nl := { m.nl with fresh := (false, f.2), seg := some { g with copyB := true, image := copyBImage g.image } } }
    else
      let m := { m with nl := { m.nl with pfail := true, page := m.nl.page + bitAt (!g.copyB) 0 } }
      endSegment (raise (log m .persistFail (logDie m g.copyB) (bitAt g.copyB 0) (s.2 % 256)) 297)
  | _, _ => m

/-- 14_dome_nightlog.md R529, 15_startup_reset_power.md R543: the copy being written is abandoned; its page-set is
not used again. -/
def abandonSegment (m : Mx) : Mx :=
  { m with nl := { m.nl with seg := none, page := m.nl.page + bitAt (m.nl.seg.any (fun g => !g.copyB)) 0 } }

/-! ## The cursor (R522) -/

/-- Distance of a SEQ above the cursor, modulo 2^32. -/
def seqAbove (cur seq : Nat) : Nat := (seq + 2 ^ 32 - cur % 2 ^ 32) % 2 ^ 32

/-- The held record with the lowest SEQ at or above the cursor. -/
def atCursor (m : Mx) : Option NlRec :=
  let cur := (nlReg m 0x10).toNat
  m.nl.recs.foldl (fun b r =>
    if seqAbove cur r.seq < 2 ^ 31 then
      match b with
      | none => some r
      | some x => if seqAbove cur r.seq < seqAbove cur x.seq then some r else some x
    else b) none

/-- Word `j` of the capture. -/
def capWord (m : Mx) (j : Nat) : Word := word (leAt m.nl.cap (4 * j) 4)

/-- R522: a read of NL_REC0. -/
def rec0 (m : Mx) : Mx :=
  let cur := (nlReg m 0x10).toNat
  let m := match atCursor m with
    | none => { m with nl := { m.nl with cap := [], capSeq := none, cres := 3, lostn := 0 } }
    | some r =>
      let n := seqAbove cur r.seq
      { m with nl := { m.nl with cap := recBytes r, capSeq := some r.seq, cres := if n = 0 then 1 else 2,
                                 lostn := min n 0xFFFF } }
  answer m (capWord m 0)

/-- R522: a read of NL_REC7. -/
def rec7 (m : Mx) : Mx :=
  let m := answer m (capWord m 7)
  match m.nl.capSeq with
  | some q => setReg m (nlOff 0x10) (word (q + 1))
  | none => m

/-! ## Host records (R521) -/

/-- A write of 1 to NL_HCTRL.GO. -/
def hostRecord (m : Mx) : Mx :=
  let h := nlReg m 0x60
  if 4 ≤ fld h 18 16 then log m .hrecRefused (fld h 18 16)
  else arrive m { time := m.md.time, code := BitVec.ofNat 16 (32 * 1024 + fld h 9 0), sev := fld h 18 16,
                  fmt := BitVec.ofNat 8 (fld h 31 24), p0 := nlReg m 0x64, p1 := nlReg m 0x68, p2 := nlReg m 0x6C }

/-! ## Loss and return (R523, R528) -/

/-- R523: the array is lost; the island keeps the 512 newest records with their persisted state. -/
def logLost (m : Mx) : Mx :=
  let m := abandonSegment m
  let l := m.nl.island ++ m.nl.recs
  { m with nl := { m.nl with island := l.drop (l.length - 512), recs := [], queue := [],
                             cap := [], capSeq := none, cres := 0, lostn := 0, due := false, alertDue := false,
                             kept := some (m.nl.kept.getD (((m.nl.recs.head?.map (·.seq)).getD 0), min (unpersisted m).length 0xFFFF)) } }

/-! ### Segments as a start reads them -/

/-- R525: a header whose MAGIC, FMT and HCRC are right. -/
def headGood (r : SegRead) : Bool :=
  (leAt r.bytes 0 4 == 0x474F4C4E) && (leAt r.bytes 4 2 == 1) && (leAt r.bytes 0xFC 4 == crc32c (slice r.bytes 0 0xFC))

def segSseq (r : SegRead) : Nat := leAt r.bytes 8 8

/-- Of several headers the one with the highest SSEQ. -/
def newestOf (l : List SegRead) : Option SegRead :=
  l.foldl (fun b r => match b with
    | none => some r
    | some x => if segSseq x < segSseq r then some r else some x) none

/-- R528: the newest block is that of the legend with the highest SSEQ; in it, of either copy, the header with the highest SSEQ. -/
def newestSeg (l : List SegRead) : Option SegRead :=
  match newestOf (l.filter (fun r => headGood r && (leAt r.bytes 6 1).testBit 1)) with
  | some lg => newestOf (l.filter (fun r => headGood r && (r.blk == lg.blk)))
  | none => none

/-- SEQ of the last record of a segment; a legend, which has none of its own, names the record that would follow it. -/
def lastSeq (r : SegRead) : Nat :=
  let n := leAt r.bytes 0x14 2
  if n = leAt r.bytes 0x16 2 then (leAt r.bytes 0x10 4 + 2 ^ 32 - 1) % 2 ^ 32 else leAt r.bytes (256 + 32 * (n - 1)) 4

/-- R516: a record read from a segment. -/
def recOf (b : List Byte) : NlRec :=
  let s := leAt b 14 1
  { seq := leAt b 0 4, rep := leAt b 28 2, persisted := true, carried := s.testBit 3, restored := s.testBit 4,
    arr := { time := leAt b 4 8, code := BitVec.ofNat 16 (leAt b 12 2), sev := s % 8, fmt := BitVec.ofNat 8 (leAt b 15 1),
             p0 := word (leAt b 16 4), p1 := word (leAt b 20 4), p2 := word (leAt b 24 4) } }

/-- R527: the ALERT records that a block holds on flash, from the first good copy of each of its page-sets. -/
def blockAlerts (l : List SegRead) (b : Nat) : List NlRec :=
  let mine := l.filter (fun r => headGood r && (r.blk == b) && (r.page != 0))
  (mine.filter (fun r => (mine.find? (fun x => x.page == r.page)) == some r)).flatMap (fun r =>
    ((List.range (leAt r.bytes 0x14 2)).map (fun i => recOf (slice r.bytes (256 + 32 * i) 32))).filter (fun x => decide (4 ≤ x.arr.sev)))

/-- R523, R527, R528: the island's copies return, or the SEQ continues from flash, whose blocks' ALERT records are known again. -/
def logRestore (lost : Bool) (segs : List SegRead) (m : Mx) : Mx :=
  let m := { m with nl := { m.nl with kept := none } }
  if lost then
    let m := match newestSeg segs with
      | some g => { m with nl := { m.nl with
          next := (lastSeq g + 1) % 2 ^ 32, sseq := segSseq g, blk := g.blk, page := g.page + 1,
          alerts := segs.foldl (fun t r => tabSet t r.blk (blockAlerts segs r.blk)) m.nl.alerts } }
      | none => m
    log m .logRestart 1 m.nl.next
  else
    let m := { m with nl := { m.nl with recs := m.nl.island.map (fun r => { r with restored := true }) ++ m.nl.recs,
                                        island := [] } }
    log m .logRestart 2 m.nl.next

/-! ## Register reads and writes (R530–R533) -/

/-- Reads of the NL block, by offset within it. -/
def nlRead (m : Mx) (k : Nat) : Word :=
  if k = 4 then word (bitAt m.nl.pfail 31 + bitAt (m.nl.dropsNew != 0) 30 +
      (m.nl.kept.map (·.2)).getD (min (unpersisted m).length 0xFFFF))
  else if k = 8 then word ((m.nl.kept.map (·.1)).getD (match m.nl.recs with | [] => 0 | r :: _ => r.seq))
  else if k = 0xC then word m.nl.next
  else if k = 0x14 then word (2 ^ 30 * m.nl.cres + m.nl.lostn)
  else if 0x20 ≤ k ∧ k < 0x40 then capWord m ((k - 0x20) / 4)
  else if k = 0x54 then word m.nl.drops
  else if k = 0 ∨ k = 0x10 ∨ (0x40 ≤ k ∧ k ≤ 0x4C) ∨ (0x60 ≤ k ∧ k ≤ 0x6C) then nlReg m k
  else 0

/-- Writes of the NL block, by offset within it. -/
def nlWrite (k : Nat) (v : Word) (m : Mx) : Mx :=
  if k = 0 ∨ k = 0x4C then maskedWrite (nlOff k) 0xFFFF 0 v m
  else if k = 4 then { m with nl := { m.nl with pfail := m.nl.pfail && !bit v 31 } }
  else if k = 0x10 ∨ (0x64 ≤ k ∧ k ≤ 0x6C) then setReg m (nlOff k) v
  else if k = 0x40 then checkedWrite (!sameGroup v) (nlOff k) 0 0x87FF07FF v m
  else if k = 0x44 then maskedWrite (nlOff k) 0 0xFFFFFFFF v m
  else if k = 0x48 then checkedWrite (decide (2 ≤ fld v 11 0)) (nlOff k) 0 0xFFF v m
  else if k = 0x50 then onlyIf (bit v 0) startSegment m
  else if k = 0x60 then setReg m (nlOff k) (v &&& 0xFF0703FF)
  else if k = 0x70 then onlyIf (bit v 0) hostRecord m
  else m

/-! ## Meanings -/

/-- R518: the Night Log takes the next record of its queue; R524 follows. -/
def takeRecord (m : Mx) : Mx :=
  match m.nl.queue with
  | [] => m
  | a :: q => persistOnCount (placeRec { m with nl := { m.nl with queue := q } } a)

/-- NIGHT_LOG_RECORD (R518–R520). -/
def execNightLogRecord (s : State) : Res := act s takeRecord

/-- HCTRL_GO (R521). -/
def execHctrlGo (s : State) : Res := act s (access (nlOff 0x70) true hostRecord)

/-- REC0_READ (R522). -/
def execRec0Read (s : State) : Res := act s (access (nlOff 0x20) false rec0)

/-- REC7_READ (R522). -/
def execRec7Read (s : State) : Res := act s (access (nlOff 0x3C) false rec7)

/-- PERSIST (R524). -/
def execPersist (s : State) : Res := act s (access (nlOff 0x50) true startSegment)

/-- PERSIST_PERIOD (R524): nothing where the period is 0. -/
def execPersistPeriod (s : State) : Res :=
  act s (fun m => onlyIf (fld (nlReg m 0x4C) 15 0 != 0) startSegment m)

/-- ALERT_PERSIST (R524): within 1 s of an ALERT record. -/
def execAlertPersist (s : State) : Res := act s (fun m => onlyIf m.nl.alertDue startSegment m)

/-- SEGMENT_COPY_DONE (R526). -/
def execSegmentCopyDone (_ok _status : Told) (s : State) : Res := act s segmentCopy

end Sys2Proof.Machine
end

