-- ==== Sys2Proof/Machine/Microword.lean ====
section
/-! DEFINITION. The fields of a control-store word (06_microcode.md R238) and what makes a word illegal (R250). -/

namespace Sys2Proof.Machine

/-- Bits [hi:lo] of a control-store word as a number. -/
def mwField (w : Microword) (hi lo : Nat) : Nat := (w.toNat >>> lo) % 2 ^ (hi + 1 - lo)

def mwNxt (w : Microword) : Nat := mwField w 126 124
def mwTgt (w : Microword) : Nat := mwField w 123 111
def mwCond (w : Microword) : Nat := mwField w 110 104
def mwCinv (w : Microword) : Bool := w.getLsbD 103
def mwCyc (w : Microword) : Nat := mwField w 102 99
def mwBsrc (w : Microword) : Nat := mwField w 98 96
def mwBimm (w : Microword) : Nat := mwField w 95 88
def mwCnt (w : Microword) : Nat := mwField w 87 72
def mwTunit (w : Microword) : Nat := mwField w 71 70
def mwTval (w : Microword) : Nat := mwField w 69 64
def mwAlu (w : Microword) : Nat := mwField w 62 59
def mwDst (w : Microword) : Nat := mwField w 58 56
def mwAsrc (w : Microword) : Nat := mwField w 55 51
def mwImm (w : Microword) : Nat := mwField w 50 35
def mwGate (w : Microword) : Nat := mwField w 34 31
def mwXcode (w : Microword) : Nat := mwField w 30 23
def mwOdt (w : Microword) : Bool := w.getLsbD 22
def mwDly (w : Microword) : Nat := mwField w 21 14
def mwGarg (w : Microword) : Nat := mwField w 13 10
def mwRaw (w : Microword) : Bool := w.getLsbD 9

/-- Number of ones in bits [hi:lo]. -/
def mwOnes (w : Microword) (hi lo : Nat) : Nat :=
  ((List.range (hi + 1 - lo)).filter (fun i => w.getLsbD (lo + i))).length

/-- R238: the upper and the lower half each hold an even number of ones. -/
def parityHi (w : Microword) : Bool := mwOnes w 127 64 % 2 == 0
def parityLo (w : Microword) : Bool := mwOnes w 63 0 % 2 == 0

/-- R250: the word itself is illegal; `bus` tells whether the frame's context holds the bus. -/
def illegal (w : Microword) (bus : Bool) : Bool :=
  let c := mwCond w
  let y := mwCyc w
  let x := mwXcode w
  (decide (0x15 ≤ c) && decide (c < 0x40)) || decide (11 ≤ y) || decide (24 ≤ mwAsrc w) || decide (10 ≤ mwGate w) ||
  (mwNxt w == 7 && !([0, 0x22, 0x23, 0x24].contains x && (x != 0x24 || mwBimm w == 1 || mwBimm w == 2))) ||
  (y == 2 && (mwCnt w == 0 || decide (5 < mwCnt w) || decide (5 < mwBsrc w + mwCnt w))) ||
  ((y == 6 || y == 7) && (mwCnt w == 0 || decide (4 < mwCnt w))) || (y == 6 && mwBsrc w == 0) ||
  (y != 0 && !bus)

/-- The word a group's control store holds at an address; words beyond the image are zero (R258). -/
def wordAt (m : Mx) (g a : Nat) : Microword := tabGet 0 (cluster m g).store a

end Sys2Proof.Machine
end

