-- ==== Sys2Proof/Machine/Phy.lean ====
section
/-! DEFINITION. The flash PHYs (07_phy_calibration.md): bus modes and rates, training and rate sets, holds, faults,
thermal steps and the Ephemeris. -/

namespace Sys2Proof.Machine

/-! ## Configuration (R297–R299) -/

def phCfg (m : Mx) (g : Nat) : Word := reg m (phOff g 0)
def fvEn (m : Mx) (g : Nat) : Bool := bit (phCfg m g) 31
def frateOf (m : Mx) (g : Nat) : Nat := fld (phCfg m g) 27 26

/-- R296: FRATE as it acts: one written during a hold waits for the hold's end. -/
def frateNow (m : Mx) (g : Nat) : Nat := (phy m g).frate.getD (frateOf m g)
def smode (m : Mx) (g : Nat) : Nat := fld (phCfg m g) 17 16
def vq (m : Mx) (g : Nat) : Bool := bit (phCfg m g) 14
def srate (m : Mx) (g : Nat) : Nat := fld (phCfg m g) 12 8
def eyeMin (m : Mx) (g : Nat) : Nat := fld (reg m (phOff g 0x14)) 7 0
def eyeWarnLine (m : Mx) (g : Nat) : Nat := fld (reg m (phOff g 0x14)) 15 8

/-- R299, R87: a permitted PHgg_CFG. -/
def phCfgOk (v : Word) : Bool :=
  let s := fld v 17 16
  let r := fld v 12 8
  let q := bit v 14
  !(s == 2 && !q) && !((s == 1 || s == 3) && q) && !(bit v 31 && !q) && (fld v 20 18 != 7) &&
  (s == 0 || (r != 0 && decide (r ≤ if s = 1 then 8 else 18)))

/-! ## Dies, modes and rates (R86, R269, R270, R274) -/

def groupChans (g : Nat) : List Nat := (List.range 4).map (4 * g + ·)
def groupDies (g : Nat) : List Nat := (List.range 64).map (64 * g + ·)

/-- R269: present and not DEAD. -/
def populated (m : Mx) (d : Nat) : Bool := !(die m d).absent && ((die m d).state != 2) && chEnabled m (dieCh d)

def popDies (m : Mx) (g : Nat) : List Nat := (groupDies g).filter (populated m)

def capRate (m : Mx) (d : Nat) : Nat := (((die m d).cap).map (·.1)).getD 0
def capFv (m : Mx) (d : Nat) : Nat :=
  match (die m d).cap with
  | some (r, f) => if r = 0 then 0 else f
  | none => 0

/-- R269, R87, R299: the group's standard rate. SDR timing mode 0 has none in units of 200 MT/s: it reads 0 (log entry 130). -/
def stdRate (m : Mx) (g : Nat) : Nat :=
  if smode m g = 0 then 0
  else ((popDies m g).map (capRate m)).foldl (fun a r => if r = 0 then a else min a r) (srate m g)

/-- R270: the rate of a Fervon set. -/
def setRate : Nat → Nat
  | 0 => 32
  | 1 => 24
  | _ => 18

/-- R270: the rate set of a mode and rate. -/
def setIdx (mode rate : Nat) : Nat := if mode = 4 then (if rate = 32 then 0 else if rate = 24 then 1 else 2) else 3

/-- The set in use. -/
def curSet (p : Phy) : Nat := setIdx p.mode p.rate
def setBytes (p : Phy) (s : Nat) : List Byte := tabGet [] p.sets s

def isTrained (p : Phy) (s : Nat) : Bool := p.trained.getLsbD s

/-- R86, R281: Fervon rates that every die allows and whose set was accepted, the highest first. The capability code 3, to
which R274 gives no meaning, allows what code 1 does (log entry 131). -/
def fvRates (m : Mx) (g : Nat) : List Nat :=
  let p := phy m g
  ((List.range 3).filter (fun s => isTrained p s && (s != 0 || (popDies m g).all (fun d => capFv m d == 2)))).map setRate

/-- The highest allowed rate at most `r`. -/
def fvBelow (m : Mx) (g r : Nat) : Option Nat := (fvRates m g).find? (fun x => decide (x ≤ r))

/-- R290: the rate that PHgg_CFG.FRATE forces. -/
def forcedRate (m : Mx) (g : Nat) : Option Nat := if frateNow m g = 0 then none else some (setRate (frateNow m g - 1))

/-- The mode and rate that carry a wish for a Fervon rate: the next lower accepted rate, else the standard mode. -/
def fvWish (m : Mx) (g r therm : Nat) : Nat × Nat × Nat :=
  match fvBelow m g r with
  | some x => (4, x, therm)
  | none => (smode m g, stdRate m g, 0)

/-! ## Holding grants (R275, R284, R288) -/

/-- R288, 05_channel_engine.md R226: a hold of a channel's grants withdraws a park, as FREEZE does. -/
def holdChan (on : Bool) (g : Chan) : Chan := { g with held := on, owner := if on && !g.tenure then none else g.owner }

/-- R288: a frame that holds its bus at a LAUNCH word gives it up to a hold, as under 05_channel_engine.md R207: its launch is
issued at release. -/
def leaveLaunch (c : Nat) (m : Mx) : Mx :=
  match (chan m c).owner with
  | some k =>
    if (chan m c).tenure && (die m (dieOf c k)).frame.launchAt.isSome then releaseCe (dieOf c k) (endTenure (dieOf c k) m) else m
  | none => m

def holdChans (cs : List Nat) (on : Bool) (m : Mx) : Mx :=
  each cs (fun c m => let m := if on then leaveLaunch c m else m; setChan m c (holdChan on (chan m c))) m

/-- Hold the grants of a group. -/
def holdGroup (g : Nat) (m : Mx) : Mx := holdChans (groupChans g) true (setPhy m g { phy m g with hold := true })

/-- R288: every tenure of a held group has ended. -/
def quiet (m : Mx) (g : Nat) : Bool := (groupChans g).all (fun c => !(chan m c).tenure)

/-- R90, R289, R296: what a group is to take at its next boundary when a second wish meets one that is pending: a fall-back to
the standard mode stands, and the lower Fervon rate of the two goes with its thermal step. -/
def joinWish (old new : Nat × Nat × Nat) : Nat × Nat × Nat :=
  if old.1 ≠ 4 then old else if new.1 ≠ 4 then new
  else if old.2.1 < new.2.1 then old else if old.2.1 = new.2.1 then (4, old.2.1, max old.2.2 new.2.2) else new

/-- Ask for a mode and rate at the next bus-idle boundary. -/
def wish (g : Nat) (w : Nat × Nat × Nat) (m : Mx) : Mx :=
  let w := match (phy m g).want with
    | some o => joinWish o w
    | none => w
  holdGroup g (setPhy m g { phy m g with want := some w })

/-- Ask for a boundary that changes no rate. -/
def wishSame (g : Nat) (m : Mx) : Mx :=
  let p := phy m g
  match p.want with
  | some _ => m
  | none => wish g (p.mode, p.rate, p.therm) m

/-- R290: HOT. -/
def judgeHot (g : Nat) (m : Mx) : Mx :=
  let p := phy m g
  let h := (p.mode == 4) && (p.rate == 32) && (forcedRate m g == some 32) && decide (500 < p.temp)
  let m' := setPhy m g { p with hot := h }
  if h && !p.hot then log m' .hot g (unsigned 32 p.temp) else m'

/-- The group runs a mode and rate from now on: every change counts, and a step asked for, or a change out of Fervon mode or
among its rates, is recorded (R6, R284, R289, R298). A forced-tap write made during the hold that ends here waits (R296). -/
def runAt (g mode rate therm : Nat) (m : Mx) : Mx :=
  let p := phy m g
  let moved := rate != p.rate || mode != p.mode
  let m' := judgeHot g (setPhy m g { p with mode := mode, rate := rate, therm := therm, want := none,
                                            reached := if moved then m.md.time else p.reached,
                                            ratechg := if moved then satInc p.ratechg 0xFFFF else p.ratechg,
                                            forceTaps := if p.later then p.forceTaps else bit (reg m (phOff g 0xC)) 31,
                                            above := p.above && !(mode == 4 && decide (18 < rate)) })
  if moved && (p.want.isSome || p.mode == 4) then log m' .rateStep g p.rate rate else m'

/-! ## Rate sets (R279, R281, R292) -/

/-- Image version that a group runs, 0 with none (06_microcode.md R258). -/
def iverOf (m : Mx) (g : Nat) : Nat :=
  match imgOf m g with
  | some i => i.iver.toNat
  | none => 0

/-- A byte of a channel's block of a rate set. -/
def chByte (b : List Byte) (i k : Nat) : Nat := leAt b (0x10 + 0x40 * i + k) 1

/-- R292: offsets of a channel block that hold signed codes: both DFE taps and both duty-cycle corrections. -/
def isSignedTrim (k : Nat) : Bool := (decide (0x18 ≤ k) && decide (k < 0x28)) || k == 0x38 || k == 0x39

def trimAt (b : List Byte) (i k : Nat) : Int :=
  if isSignedTrim k then signed 8 (chByte b i k) else (chByte b i k : Int)

/-- R279: tolerance of an offset of a channel block; none where no agreement is asked. -/
def trimTol (k : Nat) : Option Nat :=
  if k < 0x28 then some 2 else if k < 0x30 then some 4 else if k < 0x38 then none
  else if k < 0x3C then some 2 else if k = 0x3C then some 0 else none

/-- R279: two runs agree on one channel. -/
def chAgree (a b : List Byte) (i : Nat) : Bool :=
  (List.range 64).all (fun k => match trimTol k with
    | some t => decide ((trimAt a i k - trimAt b i k).natAbs ≤ t)
    | none => true)

def runsAgree (a b : List Byte) : Bool := (List.range 4).all (chAgree a b)

/-- R279: the mean of two codes, rounded to the lower step. -/
def meanTrim (a b : List Byte) (i k : Nat) : Byte := BitVec.ofNat 8 (unsigned 8 ((trimAt a i k + trimAt b i k) / 2))

/-- R292: the header of a rate set as the group keeps it, with its drive codes. -/
def setHeader (m : Mx) (g s pu pd : Nat) : List Byte :=
  [BitVec.ofNat 8 (if s = 3 then stdRate m g else setRate s), BitVec.ofNat 8 (if s = 3 then smode m g else 4),
   BitVec.ofNat 8 pu, BitVec.ofNat 8 pd] ++ [BitVec.ofNat 8 (fld (phCfg m g) 22 21), BitVec.ofNat 8 (fld (phCfg m g) 20 18)] ++ List.replicate 10 0

/-- R279, R291: the set that a pair of runs gives; forced taps leave those of the cache as they are. -/
def meanSet (m : Mx) (g s : Nat) (a b : List Byte) : List Byte :=
  let old := setBytes (phy m g) s
  let mean (k : Nat) : Nat := (leAt a k 1 + leAt b k 1) / 2
  setHeader m g s (mean 2) (mean 3) ++ (List.range 4).flatMap (fun i => (List.range 64).map (fun k =>
    if (phy m g).forceTaps && decide (0x18 ≤ k) && decide (k < 0x28) then BitVec.ofNat 8 (chByte old i k)
    else if k < 0x3D then meanTrim a b i k else 0))

/-- R279: quantities on which two runs differ by more than the tolerance. -/
def misses (a b : List Byte) : Nat :=
  (List.range 4).foldl (fun n i => n + ((List.range 64).filter (fun k => match trimTol k with
    | some t => decide (t < (trimAt a i k - trimAt b i k).natAbs)
    | none => false)).length) 0

/-- R281: the nearest agreeing run of a set whose runs do not agree: the earlier run of the pair that misses agreement on the
fewest quantities (log entry 75). -/
def nearestRun : List (List Byte) → List Byte
  | [a, b, c] =>
    if misses b c < misses a b ∧ misses b c < misses a c then b else a
  | a :: _ => a
  | [] => []

/-- R279: the pair that is taken, out of two or three runs. -/
def takenPair : List (List Byte) → Option (List Byte × List Byte)
  | [a, b] => if runsAgree a b then some (a, b) else none
  | [a, b, c] =>
    if runsAgree a b then some (a, b) else if runsAgree a c then some (a, c)
    else if runsAgree b c then some (b, c) else none
  | _ => none

/-- R285: the least eye of a channel in a rate set. -/
def leastEye (b : List Byte) (i k : Nat) : Nat := (List.range 8).foldl (fun a j => min a (chByte b i (k + j))) 64

/-- Channels whose accepted eye is below EYEMIN. -/
def eyeFails (m : Mx) (g : Nat) (b : List Byte) : List Nat :=
  (List.range 4).filter (fun i => decide (leastEye b i 0x28 < eyeMin m g))

/-- Channels on which runs do not agree. -/
def disagree (l : List (List Byte)) : List Nat :=
  (List.range 4).filter (fun i => match l with
    | [a, b, c] => !(chAgree a b i || chAgree a c i || chAgree b c i)
    | [a, b] => !chAgree a b i
    | _ => true)

/-- Bits of a set of channels. -/
def chBits (l : List Nat) : BitVec 4 := BitVec.ofNat 4 (l.foldl (fun a i => a ||| 2 ^ i) 0)

/-- The set in use is applied: the eyes at training are those of its bytes (R298). -/
def applySet (g : Nat) (m : Mx) : Mx :=
  let p := phy m g
  let b := setBytes p (curSet p)
  if b = [] then m
  else
    let fill (t : Tab Nat) (k : Nat) := (List.range 4).foldl (fun t i => tabSet t i (leastEye b i k)) t
    let worst (i : Nat) : Nat := ((List.range 8).find? (fun j => chByte b i (0x28 + j) == leastEye b i 0x28)).getD 0
    setPhy m g { p with rdTrain := fill p.rdTrain 0x28, wrTrain := fill p.wrTrain 0x30, rdNow := fill p.rdNow 0x28,
                        worst := (List.range 4).foldl (fun t i => tabSet t i (worst i)) p.worst, stale := [] }

/-- R291: TAP1 (0) or TAP2 (8) of PHgg_DFE. -/
def forcedTap (m : Mx) (g lo : Nat) : Byte := BitVec.ofNat 8 (fld (reg m (phOff g 0xC)) (lo + 7) lo)

/-- R286, R287, R291: the trims that act on a channel's pins: the drive codes and its block of the set in use, but for a tenure
in progress since before they were moved; forced taps stand in Fervon mode in place of those of the block. -/
def actingTrims (m : Mx) (g i : Nat) : List Byte :=
  let p := phy m g
  let b := setBytes p (curSet p)
  let c := chan m (4 * g + i)
  let now := slice b 2 2 ++ slice b (0x10 + 0x40 * i) 64
  let l := match p.stale.find? (fun x => x.1 == i) with
    | some (_, k, t, old) => if c.tenure && c.owner == some k && c.since == t then old else now
    | none => now
  if p.forceTaps && p.mode == 4 then patch (patch l 0x1A (List.replicate 8 (forcedTap m g 0))) 0x22 (List.replicate 8 (forcedTap m g 8)) else l

/-- R286, R287: the set in use is moved: a channel in a tenure goes on with the trims it has until that tenure ends. -/
def moveSet (g : Nat) (b : List Byte) (m : Mx) : Mx :=
  let p := phy m g
  let busy := (List.range 4).filter (fun i => (chan m (4 * g + i)).tenure)
  let keep := busy.filterMap (fun i => (chan m (4 * g + i)).owner.map (fun k => (i, k, (chan m (4 * g + i)).since, actingTrims m g i)))
  setPhy m g { p with sets := tabSet p.sets (curSet p) b, stale := keep }

/-- R282: the deskews that a loop-back verify corrects. -/
def isDeskew (k : Nat) : Bool := decide (k < 0x10)

/-- A rate set with some of what was found on every channel. -/
def takeFound (sets : Nat → Bool) (b found : List Byte) : List Byte :=
  slice b 0 16 ++ (List.range 4).flatMap (fun i => (List.range 64).map (fun k =>
    BitVec.ofNat 8 (if sets k then chByte found i k else chByte b i k)))

/-- R282: no trim is moved by more than 8 steps. -/
def within8 (sets : Nat → Bool) (b found : List Byte) : Bool :=
  (List.range 4).all (fun i => (List.range 64).all (fun k => !sets k || decide ((trimAt found i k - trimAt b i k).natAbs ≤ 8)))

/-- R282: the verify of the set in use: its deskews are corrected, and it passes when no pad errs and no correction is above 8
steps. -/
def verify (g : Nat) (r : PhyRes) (m : Mx) : Mx × Bool :=
  let p := phy m g
  let b := setBytes p (curSet p)
  if r.set = [] ∨ b = [] then (m, r.ok)
  else (setPhy m g { p with sets := tabSet p.sets (curSet p) (takeFound isDeskew b r.set) }, r.ok && within8 isDeskew b r.set)

/-- R284, steps 5 to 8: the offsets of a channel block that a recalibration renews: duty cycle, and the receive and transmit
trims. -/
def isRecal (k : Nat) : Bool := decide (k < 0x18) || (decide (0x38 ≤ k) && decide (k < 0x3D))

/-- R284, steps 5 to 9: the drive codes and duty-cycle corrections found, and the trims as re-centred within 8 steps, on the
channels concerned; it passes as its verify does. -/
def recalSet (g : Nat) (is : List Nat) (r : PhyRes) (m : Mx) : Mx × Bool :=
  let p := phy m g
  let b := setBytes p (curSet p)
  if r.set = [] ∨ b = [] then (m, r.ok)
  else
    let n := takeFound isRecal b r.set
    let v := is.foldl (fun v i => patch v (0x10 + 0x40 * i) (slice n (0x10 + 0x40 * i) 64)) (patch b 2 (slice r.set 2 2))
    (setPhy m g { p with sets := tabSet p.sets (curSet p) v }, r.ok && within8 (fun k => decide (k < 0x18) || (decide (0x3A ≤ k) && decide (k < 0x3D))) b v)

/-- R279, R281: the result of a training of one set. -/
def trained (r : TrainRes) (m : Mx) : Mx :=
  let g := r.grp
  let p := phy m g
  let s := r.set
  let accept (b : List Byte) : Mx :=
    setPhy m g { p with sets := tabSet p.sets s b, trained := p.trained ||| BitVec.ofNat 4 (2 ^ s),
                        ttrain := m.md.time, tempTrain := p.temp, iver := iverOf m g }
  let fail (b : List Byte) (cs : List Nat) (m : Mx) : Mx :=
    let p := phy m g
    let p := { p with trained := p.trained &&& ~~~ BitVec.ofNat 4 (2 ^ s) }
    let p := if s = 3 then { p with sets := tabSet p.sets s b, fail := p.fail ||| chBits cs } else p
    each cs (fun i m => log m .setFailed g i s) (setPhy m g p)
  if 3 < s ∨ 31 < g then m
  else match takenPair r.runs with
    | some (a, b) =>
      let v := meanSet m g s a b
      let bad := eyeFails m g v
      if bad = [] then accept v else fail v bad m
    | none =>
      let b := nearestRun r.runs
      let cs := disagree r.runs
      fail (setHeader m g s (leAt b 2 1) (leAt b 3 1) ++ slice b 0x10 256) (if cs = [] then List.range 4 else cs) m

/-! ## Faults and recalibration (R283, R284) -/

/-- The word of a frame that is a DIN or a DOUT. -/
def moving (m : Mx) (d : Nat) : Bool :=
  let y := mwCyc (wordAt m (dieGrp d) (die m d).frame.pc)
  y == 3 || y == 4

/-- R284: a tenure is cut: a data cycle goes back to the first byte of its codeword frame and will continue through
CHGCOL; a command phase is restarted from its first command cycle. -/
def cutTenure (d : Nat) (m : Mx) : Mx :=
  let x := die m d
  let f := x.frame
  let m := endTenure d m
  if !f.active then m
  else
    let len := match x.cur with
      | some i => (match itemEnt m d i with | some e => eStride e | none => 0)
      | none => 0
    let f' : Frame := match f.cyc with
      | some c =>
        if moving m d then
          let back := if len = 0 then 0 else f.sptr.toNat % len
          { f with cyc := none, regain := true, sptr := f.sptr - BitVec.ofNat 24 back,
                   cut := some (c.left + back, f.stack.length) }
        else { x.mark.getD { f with cyc := none } with regain := true }
      | none => { x.mark.getD f with regain := true }
    busRequest d (setDie m d { x with frame := f', mark := none })

/-- Cut the tenure of a channel, if one is in progress. -/
def cutChannel (c : Nat) (m : Mx) : Mx :=
  match (chan m c).owner with
  | some k => if (chan m c).tenure then cutTenure (dieOf c k) m else m
  | none => m

/-- Why a PHY fault arises (R283). -/
inductive PhCause where
  | pll | loopBack | noDqs | eye | zq
  deriving DecidableEq, Repr

/-- R284, steps 1 to 3: a channel PHY fault. -/
def phyFault (g : Nat) (is : List Nat) (why : PhCause) (m : Mx) : Mx :=
  let p := phy m g
  let m := setPhy m g { p with recal := is.foldl insN p.recal, newRate := p.newRate || (p.recal == [] && p.want.isSome && p.hold) }
  let m := each is (fun i m => cutChannel (4 * g + i) (holdChans [4 * g + i] true m)) m
  raise (each is (fun i m => log m .phFault g i why.ctorIdx) m) 276

/-- One rate down: the next lower accepted Fervon rate, or the standard mode. -/
def stepDown (g : Nat) (m : Mx) : Mx :=
  let p := phy m g
  if p.mode = 4 then wish g (fvWish m g (p.rate - 1) p.therm) (log m .recalFailed g p.rate) else m

/-! ## RETRAIN and the end of a hold (R288, R296, R298) -/

/-- R289, R290: the rate a group is on its way to, with its thermal step. -/
def headed (p : Phy) : Nat × Nat :=
  match p.want with
  | some (4, r, h) => (r, h)
  | some _ => (0, 0)
  | none => if p.mode = 4 then (p.rate, p.therm) else (0, 0)

/-- 100 ms have passed since the later of two moments. -/
def coolFor (m : Mx) (since : Option Nat) (reached : Nat) : Bool :=
  match since with
  | some s => decide (max s reached + 100000000 ≤ m.md.time)
  | none => false

/-- R7, R289: the thermal step that a group's temperature asks for by itself: after a sample above 140.0 °C the group stays stepped
down until its samples have stayed at or below 135.0 °C for 100 ms, whatever mode it has run since. -/
def heat (m : Mx) (g : Nat) : Nat :=
  let p := phy m g
  if 560 < p.temp ∨ (p.above = true ∧ coolFor m p.cool135 p.reached = false) then 2 else if 500 < p.temp then 1 else 0

/-- R7, R290: the Fervon rate a group should run: below 140 °C a forced one, else what its thermal state allows. -/
def fvTarget (m : Mx) (g : Nat) : Nat × Nat :=
  let t := max (phy m g).therm (headed (phy m g)).2
  let t := max (heat m g) (if (phy m g).want.isSome then (headed (phy m g)).2 else t)
  if t = 2 then (18, 2)
  else match forcedRate m g with
    | some r => (r, 0)
    | none => if t = 1 then (24, 1) else (32, 0)

/-- R86, R281: the mode, rate and step that a group's configuration, its dies and its temperature give it. -/
def aim (m : Mx) (g : Nat) : Nat × Nat × Nat :=
  if (phy m g).mode = 4 then fvWish m g (fvTarget m g).1 (fvTarget m g).2 else (smode m g, stdRate m g, 0)

/-- R86: what follows where the populated dies of a group, or what they allow, have changed: its rate is chosen again. A rate
below the choice, to which a fault has stepped the group down, stays (R284); a wish that was the old choice becomes the new
one. -/
def rechoose (g : Nat) (was : Nat × Nat × Nat) (m : Mx) : Mx :=
  let a := aim m g
  let p := phy m g
  if a = was then m
  else if p.want.isSome then (if p.want = some was then setPhy m g { p with want := some a } else m)
  else if p.rate = was.2.1 ∨ a.2.1 < p.rate then (if a.2.1 = p.rate ∧ a.1 = p.mode then m else wish g a m)
  else m

/-- R86: a change of what a group's dies allow. -/
def withDies (g : Nat) (f : Mx → Mx) (m : Mx) : Mx := rechoose g (aim m g) (f m)

/-- R90, R275, R281: the dies of a group that leaves Fervon mode run its standard mode. -/
def leaveFervon (g : Nat) (m : Mx) : Mx :=
  each (popDies m g) (fun d m => if (die m d).mode = 4 then setDie m d { die m d with mode := smode m g } else m) m

/-- A group takes a mode and rate, its dies the standard mode where it leaves Fervon mode, and the set is applied. -/
def takeRate (g : Nat) (w : Nat × Nat × Nat) (m : Mx) : Mx :=
  let m := if w.1 = 4 then m else leaveFervon g m
  applySet g (runAt g w.1 w.2.1 w.2.2 m)

/-- Work of RETRAIN. -/
def doRetrain (g : Nat) (rs : List TrainRes) (m : Mx) : Mx :=
  let m := setPhy m g { phy m g with fail := 0, fvfail := false, retrain := none }
  let m := each (rs.filter (fun r => r.grp == g)) trained m
  let m := { m with ph := { m.ph with due := true } }
  takeRate g (if (phy m g).mode = 4 ∧ isTrained (phy m g) 3 then fvWish m g (fvTarget m g).1 (fvTarget m g).2
    else (smode m g, stdRate m g, 0)) m

/-- R296: once no hold stands, a write of FRATE or FORCE made during one asks for the next boundary. -/
def afterHold (g : Nat) (m : Mx) : Mx :=
  let p := phy m g
  if p.hold || p.recal != [] || !p.later then m
  else
    let m := setPhy m g { p with later := false, frate := none }
    wish g (if p.mode = 4 then aim m g else (p.mode, p.rate, p.therm)) m

/-- A hold ends: a waiting RETRAIN runs, and the grants are released but on channels under recalibration. -/
def releaseGroup (g : Nat) (m : Mx) : Mx :=
  let m := match (phy m g).retrain with
    | some rs => doRetrain g rs m
    | none => m
  let p := phy m g
  if p.want.isSome || p.resetDies != [] then m
  else afterHold g (holdChans ((List.range 4).filter (fun i => !p.recal.contains i) |>.map (4 * g + ·)) false
        (setPhy m g { p with hold := false }))

/-- R86: a wish as it can be met at the boundary: no rate above what the group's dies and its accepted sets then allow. -/
def settleWish (m : Mx) (g : Nat) (w : Nat × Nat × Nat) : Nat × Nat × Nat :=
  if w.1 = 4 then (if fvBelow m g w.2.1 = some w.2.1 then w else fvWish m g w.2.1 w.2.2) else (smode m g, stdRate m g, 0)

/-- R295: a set whose verify has failed as its group left P2 or started warm has been retrained by narrowed sweep; a Fervon set
that is not accepted is left for the next rate below (R281). -/
def retrained (g : Nat) (rs : List TrainRes) (m : Mx) : Mx :=
  let m := each rs trained { m with ph := { m.ph with due := true } }
  let p := phy m g
  if p.mode = 4 ∧ isTrained p (curSet p) = false then takeRate g (fvWish m g p.rate p.therm) m else applySet g m

/-- R281: a set whose verify has failed and of which no training is told is used no longer. -/
def dropSet (g : Nat) (m : Mx) : Mx :=
  let p := phy m g
  let m := each (List.range 4) (fun i m => log m .setFailed g i (curSet p))
    (setPhy m g { p with trained := p.trained &&& ~~~ BitVec.ofNat 4 (2 ^ curSet p),
                         fail := if curSet p = 3 then 0xF else p.fail })
  retrained g [] m

/-- R288: the bus-idle boundary. -/
def idleBoundary (g : Nat) (r : PhyRes) (m : Mx) : Mx :=
  let p := phy m g
  match p.want with
  | none => m
  | some w =>
    if !p.hold || !quiet m g || p.recal != [] then m
    else
      let v := verify g r (takeRate g (settleWish m g w) (setPhy m g { p with waking := false }))
      if v.2 then releaseGroup g v.1
      else if p.waking then releaseGroup g (if r.sweep = [] then dropSet g v.1 else retrained g r.sweep v.1)
      else phyFault g [0, 1, 2, 3] .loopBack v.1

/-- R284, step 9: the recalibration ends. One whose fault came during a rate change is made at the new rate, at the boundary that
the change waited for (R296). -/
def recalDone (g : Nat) (r : PhyRes) (m : Mx) : Mx :=
  if (phy m g).recal = [] ∨ ((phy m g).newRate = true ∧ quiet m g = false) then m
  else
    let m := match (phy m g).newRate, (phy m g).want with
      | true, some w => takeRate g (settleWish m g w) m
      | _, _ => m
    let v := recalSet g (phy m g).recal r (setPhy m g { phy m g with newRate := false })
    let m := v.1
    let p := phy m g
    let m := setPhy m g { p with recal := [], recals := satInc p.recals 0xFFFF, fresh := p.recal.foldl insN p.fresh }
    let m := if p.hold then m else holdChans (p.recal.map (4 * g + ·)) false m
    let m := if v.2 then m
      else if p.mode = 4 then stepDown g m
      else each p.recal (fun i m => log m .setFailed g i 3) (setPhy m g { phy m g with fail := (phy m g).fail ||| chBits p.recal })
    let p := phy m g
    if p.retrain.isSome && p.want.isNone && quiet m g then releaseGroup g (holdGroup g m)
    else if p.retrain.isSome && p.want.isNone then wishSame g m
    else if p.hold && p.want.isNone then releaseGroup g m
    else afterHold g m

/-- RETRAIN (R298, R296). -/
def retrain (g : Nat) (rs : List TrainRes) (m : Mx) : Mx :=
  let p := phy m g
  if p.hold || p.recal != [] then setPhy m g { p with retrain := some rs }
  else
  let m := setPhy m g { p with retrain := some rs, fail := 0, fvfail := false }
  if quiet m g then releaseGroup g (holdGroup g m)
  else wishSame g m

/-! ## Fervon entry (R275–R277) -/

/-- R275: the conditions of entry. -/
def fvAllowed (m : Mx) (g : Nat) : Bool :=
  fvEn m g && vq m g && isTrained (phy m g) 3 && (popDies m g).all (fun d => capFv m d != 0)

/-- R276: entry has failed: the dies leave Fervon mode and the group stays in its standard mode. -/
def fvFailed (g named : Nat) (m : Mx) : Mx :=
  let m := takeRate g (smode m g, stdRate m g, 0) m
  log (setPhy m g { phy m g with fvfail := true }) .fvFail g named

/-- The mode, rate and step that an entry is made for: a thermal step that is pending is made by it (R296). -/
def entryGoal (m : Mx) (g : Nat) : Nat × Nat :=
  match (phy m g).want with
  | some (4, r, h) => (r, h)
  | _ => fvTarget m g

/-- Every populated die enters; the Fervon sets are then trained where that is due, and the group runs the Fervon rate `t`, or its
standard mode where no Fervon set is accepted (R281), and verifies its set (R282). A number in `fails` that names no die stands for
a step of the PHY itself that fails (R277). -/
def enterFervon (g : Nat) (t : Nat × Nat) (r : FvRes) (sets : List TrainRes) (m : Mx) : Mx :=
  if kindAddr m g 15 = 0xFFFF then fvFailed g (iverOf m g) m
  else match (popDies m g).find? (fun d => r.fails.contains d) with
    | some d => fvFailed g d (each ((popDies m g).filter (fun x => !r.fails.contains x))
                  (fun x m => setDie m x { die m x with mode := 4 }) m)
    | none =>
      let m := each (popDies m g) (fun d m => setDie m d { die m d with mode := 4 }) m
      if r.fails.any (fun d => decide (2048 ≤ d)) then fvFailed g 2048 m
      else
        let m := each sets trained m
        let v := verify g r.fv (takeRate g (fvWish m g t.1 t.2) m)
        if v.2 then v.1 else fvFailed g 2048 v.1

/-- R277, steps 3 to 5: every die leaves Fervon mode, the standard set is applied and verified, and RECOVER selects the standard
mode on the reset dies; answers whether the verify passed. -/
def fallBack (g : Nat) (r : PhyRes) (m : Mx) : Mx × Bool :=
  let v := verify g r (takeRate g (smode m g, stdRate m g, 0) m)
  (each (phy m g).resetDies (fun d m => setDie m d { die m d with mode := smode m g }) v.1, v.2)

/-- R277: the reset dies become NORMAL. -/
def resetDiesDone (g : Nat) (m : Mx) : Mx :=
  let ds := (phy m g).resetDies
  each ds (fun d m => if (die m d).state = 1 then changeState d 0 4 m else m) (setPhy m g { phy m g with resetDies := [] })

/-- Fervon entry, or fall-back and re-entry. Where R275 no longer allows the entry, it fails as R276 has it, named by the first
reset die (log entry 133). -/
def fervonEntry (g : Nat) (r : FvRes) (m : Mx) : Mx :=
  let p := phy m g
  let again := p.resetDies != []
  if (cluster m g).halted || p.recal != [] then m
  else if !again && (p.mode == 4 || p.fvfail || !fvAllowed m g) then m
  else if !quiet m g then holdGroup g m
  else
    let m := holdGroup g m
    let t := entryGoal m g
    let f := if again then fallBack g r.std m else (m, true)
    let m := if f.2 && fvAllowed f.1 g then enterFervon g t r [] f.1 else fvFailed g (p.resetDies.headD 0) f.1
    releaseGroup g (resetDiesDone g m)

/-! ## Sensors and thermal steps (R6, R7, R93, R289, R290; 14_dome_nightlog.md R498, R500) -/

/-- R93: THERM_N. -/
def judgeThermN (m : Mx) : Mx :=
  let lim : Int := fld (reg m (doOff 0x9C)) 7 0
  let ts := (List.range 32).map (fun k => (sensor m k).cur)
  if ts.any (fun t => decide (4 * lim ≤ t)) then { m with gl := { m.gl with thermLow := true } }
  else if ts.all (fun t => decide (t ≤ 4 * (lim - 5))) then { m with gl := { m.gl with thermLow := false } }
  else m

/-- A reading of a sensor: current, least and greatest (14_dome_nightlog.md R495). -/
def sensorTake (k : Nat) (v : Int) (m : Mx) : Mx :=
  let s := sensor m k
  setSensor m k { s with cur := v, least := if s.seen then min s.least v else v,
                         most := if s.seen then max s.most v else v, seen := true }

/-- 14_dome_nightlog.md R500: a temperature reaches its limit, given in °C. -/
def tempWarn (k : Nat) (lim : Int) (m : Mx) : Mx :=
  let s := sensor m k
  if decide (4 * lim ≤ s.cur) && !s.warned && domeRuns m then
    raise (log (setSensor m k { s with warned := true }) .therm k (unsigned 32 s.cur)) 292
  else if s.cur ≤ 4 * (lim - 5) then setSensor m k { s with warned := false }
  else m

/-- R289: unbroken runs of samples at or below a limit. -/
def coolRun (m : Mx) (old : Option Nat) (lim t : Int) : Option Nat :=
  if lim < t then none else some (old.getD m.md.time)

/-- R289, R290: steps down at a sample. -/
def thermalStep (g : Nat) (t : Int) (m : Mx) : Mx :=
  let r := (headed (phy m g)).1
  if 560 < t ∧ 18 < r then wish g (fvWish m g 18 2) m
  else if 500 < t ∧ 24 < r ∧ frateNow m g = 0 then wish g (fvWish m g 24 1) m
  else m

/-- THERMAL_SAMPLE's work. -/
def thermalSample (g : Nat) (t : Int) (m : Mx) : Mx :=
  let p := phy m g
  let m := setPhy m g { p with
    temp := t, cool135 := coolRun m p.cool135 540 t, cool120 := coolRun m p.cool120 480 t,
    above := p.above || (p.mode == 4 && decide (560 < t)) }
  let m := tempWarn g (fld (reg m (doOff 0x98)) 15 8) (judgeThermN (sensorTake g t m))
  thermalStep g t (judgeHot g m)

/-- R289, R290: the return. -/
def thermalReturn (g : Nat) (m : Mx) : Mx :=
  let p := phy m g
  if p.mode ≠ 4 ∨ p.want ≠ none then m
  else if p.rate = 18 then
    (if coolFor m p.cool135 p.reached then
      (match forcedRate m g with
       | some r => if 18 < r ∨ p.therm = 2 then wish g (fvWish m g r 0) m else m
       | none => if (fvRates m g).contains 24 then wish g (4, 24, 1) m else m)
     else m)
  else if p.rate = 24 ∧ frateNow m g = 0 then
    (if coolFor m p.cool120 p.reached && (fvRates m g).contains 32 then wish g (4, 32, 0) m else m)
  else m

/-- A write of PHgg_CFG (R290, R299): a change of FRATE takes effect at the next boundary, or, made during a hold, at the first
after it (R296). -/
def phCfgWrite (g : Nat) (v : Word) (m : Mx) : Mx :=
  let old := frateOf m g
  let m := checkedWrite (phCfgOk v) (phOff g 0) 0x0C000000 0x807F5F00 v m
  let p := phy m g
  if frateOf m g = old then judgeHot g m
  else if p.hold || p.recal != [] then setPhy m g { p with later := true, frate := some (p.frate.getD old) }
  else if p.mode ≠ 4 then judgeHot g m
  else wish g (aim m g) m

/-- R291: forced taps within R267's ranges. -/
def tapsOk (v : Word) : Bool :=
  let a := signed 8 (fld v 7 0)
  let b := signed 8 (fld v 15 8)
  decide (-40 ≤ a) && decide (a ≤ 40) && decide (-20 ≤ b) && decide (b ≤ 20)

/-- R291, R296: a write of PHgg_DFE. Forcing holds at once, but during a hold it waits for the next boundary after it,
as the release of the taps does. -/
def dfeWrite (g : Nat) (v : Word) (m0 : Mx) : Mx :=
  let m := m0
  let p := phy m g
  let m := checkedWrite (tapsOk v) (phOff g 0xC) 0x8000FFFF 0 v m
  let on := bit (reg m (phOff g 0xC)) 31
  let was := bit (reg m0 (phOff g 0xC)) 31
  if on = p.forceTaps ∧ on = was then m
  else if p.hold || p.recal != [] then setPhy m g { phy m g with later := true }
  else if on = p.forceTaps then m
  else if on then setPhy m g { phy m g with forceTaps := true }
  else wishSame g m

/-! ## Tracking in service (R285–R287) -/

def track (m : Mx) (g : Nat) : Word := reg m (phOff g 0x10)

/-- One step of a code towards another, within its range (R267). -/
def stepToward (cur goal lo hi : Int) : Int :=
  let t := clampI lo hi goal
  if cur < t then cur + 1 else if t < cur then cur - 1 else cur

/-- R286: the new code of an offset of a channel block, one step towards what was found; transmit deskews follow the loop-back
check where it ran. -/
def trackTrim (b c : List Byte) (i k : Nat) (taps loop : Bool) : Byte :=
  let cur := trimAt b i k
  let goal := trimAt c i k
  let v := if k < 8 then stepToward cur goal 0 127
    else if k < 0x10 then (if loop then stepToward cur goal 0 127 else cur)
    else if k < 0x18 then stepToward cur goal 0 70
    else if k < 0x20 then (if taps then stepToward cur goal (-40) 40 else cur)
    else if k < 0x28 then (if taps then stepToward cur goal (-20) 20 else cur)
    else cur
  BitVec.ofNat 8 (unsigned 8 v)

/-- R286: a rate set moved by one step on every channel. -/
def trackSet (b c : List Byte) (taps : Bool) (loop : Nat → Bool) : List Byte :=
  slice b 0 16 ++ (List.range 4).flatMap (fun i => (List.range 64).map (fun k => trackTrim b c i k taps (loop i)))

/-- R286: a channel whose bus nobody holds or asks for, so that the loop-back check runs. -/
def busFree (m : Mx) (c : Nat) : Bool := !(chan m c).tenure && (chan m c).pend.isEmpty

/-- GRADUAL_APPLICATION's work. -/
def gradual (g : Nat) (centre : List Byte) (bad : BitVec 4) (m : Mx) : Mx :=
  let p := phy m g
  let b := setBytes p (curSet p)
  if fld (track m g) 15 0 = 0 ∨ p.hold = true ∨ p.recal ≠ [] then m
  else
    let m := if b = [] then m
      else moveSet g (trackSet b centre (p.mode == 4 && !p.forceTaps) (fun i => busFree m (4 * g + i))) m
    let fs := (List.range 4).filter (fun i => bad.getLsbD i && busFree m (4 * g + i))
    if fs = [] then m else phyFault g fs .loopBack m

/-- R283: a drive code that calibration could not bring within its range. -/
def zqBad (n : Nat) : Bool := n == 0 || decide (63 ≤ n)

/-- R287, R283: short calibration on the replica pads; a code at 0 or 63 is a fault of its pad's channel. -/
def shortZq (g : Nat) (pu pd : ZqRes) (m : Mx) : Mx :=
  let p := phy m g
  let b := setBytes p (curSet p)
  if fld (track m g) 31 16 = 0 then m
  else
    let m := if b = [] then m else moveSet g (patch b 2 [BitVec.ofNat 8 pu.code, BitVec.ofNat 8 pd.code]) m
    let is := (List.range 4).filter (fun i => (zqBad pu.code && pu.ch == i) || (zqBad pd.code && pd.ch == i))
    if is = [] then m else phyFault g is .zq m

/-- R285: the eye monitor's report of a channel's eight bits; answers EYEQ. -/
def eyeReport (c : Nat) (eyes : List Nat) (m : Mx) : Mx :=
  let g := c / 4
  let i := c % 4
  let p := phy m g
  let q := eyes.foldl min 64
  let low := decide (q < eyeWarnLine m g)
  let m' := setPhy m g { p with rdNow := tabSet p.rdNow i q, worst := tabSet p.worst i (eyes.findIdx (fun e => e == q)),
                                eyewarn := if low then p.eyewarn ||| chBits [i] else p.eyewarn &&& ~~~ chBits [i],
                                fresh := delN p.fresh i }
  if low && !p.eyewarn.getLsbD i then log m' .eyeWarn g i q else m'

/-- R283, R284: what a data-out shows of the eye: a figure below EYEMIN is a fault, or, right after a recalibration,
a step down. -/
def eyeJudge (c : Nat) (eyes : List Nat) (m : Mx) : Mx :=
  if eyes = [] then m
  else
    let g := c / 4
    let was := (phy m g).fresh.contains (c % 4)
    let m := eyeReport c eyes m
    if eyeMin m g = 0 ∨ eyeMin m g ≤ eyes.foldl min 64 then m
    else if was then
      (if (phy m g).mode = 4 then stepDown g m
       else log (setPhy m g { phy m g with fail := (phy m g).fail ||| chBits [c % 4] }) .setFailed g (c % 4) 3)
    else phyFault g [c % 4] .eye m

/-! ## PHY cycle steps (R278) -/

/-- Offsets of a channel block that a step sets. -/
def stepSets (step k : Nat) : Bool :=
  if step = 2 then k == 0x38 || k == 0x39
  else if step = 3 then decide (k < 8) || (decide (0x10 ≤ k) && decide (k < 0x18)) || k == 0x3A || k == 0x3C
  else if step = 4 then (decide (8 ≤ k) && decide (k < 0x10)) || k == 0x3B || (decide (0x30 ≤ k) && decide (k < 0x38))
  else if step = 5 then decide (0x18 ≤ k) && decide (k < 0x28)
  else if step = 6 then decide (0x28 ≤ k) && decide (k < 0x38)
  else if step = 7 then decide (k < 0x10)
  else false

/-- One channel's block with what a step found. -/
def stepSet (step i : Nat) (b found : List Byte) : List Byte :=
  let new := (List.range 64).map (fun k => if stepSets step k then BitVec.ofNat 8 (chByte found i k)
                                          else BitVec.ofNat 8 (chByte b i k))
  patch b (0x10 + 0x40 * i) new

/-- A PHY cycle of a die's channel: the step's number, what it found, and the work register BSRC names (W0 for BSRC 0, log
entry 132). -/
def phyCycle (d step : Nat) (found : List Byte) (w : Word) (m : Mx) : Mx :=
  let g := dieGrp d
  let p := phy m g
  let s := curSet p
  let b := slice (setBytes p s) 0 272
  let put (b : List Byte) : Mx := setPhy m g { p with sets := tabSet p.sets s b }
  if step = 8 then withDies g (fun m => setDie m d { die m d with cap := some (fld w 4 0, fld w 6 5) }) m
  else if 8 < step then log m .phyStep d step
  else if found = [] then m
  else if step = 0 then put (patch b 2 (slice found 2 2))
  else if step = 1 then
    let m := put (patch b 2 (slice found 2 2))
    if zqBad (leAt found 2 1) || zqBad (leAt found 3 1) then phyFault g [dieCh d % 4] .zq m else m
  else if step = 5 ∧ (p.mode ≠ 4 ∨ p.forceTaps = true) then m
  else if step = 6 then applySet g (put (stepSet step (dieCh d % 4) b found))
  else if step = 4 then
    let n := stepSet step (dieCh d % 4) b found
    let m := put n
    setPhy m g { phy m g with wrTrain := tabSet (phy m g).wrTrain (dieCh d % 4) (leastEye n (dieCh d % 4) 0x30) }
  else put (stepSet step (dieCh d % 4) b found)

/-! ## The Ephemeris (R292–R295) -/

def ephLoc (m : Mx) : Word := reg m (phEphOff 0)
def ephDie (m : Mx) (b : Bool) : Nat := if b then fld (ephLoc m) 26 16 else fld (ephLoc m) 10 0

/-- R294: a trim has moved beyond the tolerance from its record. -/
def hasMoved (p : Phy) : Bool :=
  p.sets.any (fun x => isTrained p x.1 && !runsAgree x.2 (tabGet [] p.recd x.1))

/-- R292: PRESENT of a group. -/
def presentBits (m : Mx) (g : Nat) : Nat :=
  (groupDies g).foldl (fun a d => if (die m d).absent then a else a ||| 2 ^ (4 * (dieCh d % 4) + dieTgt d)) 0

/-- R292: the Ephemeris record of a group but for its check. -/
def ephBody (m : Mx) (g seq : Nat) : List Byte :=
  let p := phy m g
  let set (s : Nat) : List Byte := if isTrained p s then slice (setBytes p s) 0 272 else List.replicate 272 0
  leBytes 4 0x4D485045 ++ leBytes 2 1 ++ leBytes 1 g ++ leBytes 1 p.trained.toNat ++ leBytes 8 seq ++
  leBytes 8 p.ttrain ++ leBytes 2 (presentBits m g) ++ leBytes 2 (unsigned 16 p.tempTrain) ++ leBytes 1 (bitAt (vq m g) 0) ++
  leBytes 1 (smode m g) ++ leBytes 1 (srate m g) ++ leBytes 1 0 ++
  leBytes 4 p.iver ++ List.replicate 28 0 ++ set 0 ++ set 1 ++ set 2 ++ set 3 ++
  List.replicate 892 0

def ephRecord (m : Mx) (g seq : Nat) : List Byte :=
  let b := ephBody m g seq
  b ++ leBytes 4 (crc32c b)

/-- R295: a record that fits its group. -/
def ephValid (m : Mx) (g : Nat) (l : List Byte) : Bool :=
  (leAt l 0 4 == 0x4D485045) && (leAt l 4 2 == 1) && (leAt l 6 1 == g) && (leAt l 0x7FC 4 == crc32c (slice l 0 0x7FC)) &&
  (leAt l 0x18 2 == presentBits m g) && (leAt l 0x1C 1 == bitAt (vq m g) 0) && (leAt l 0x1D 1 == smode m g) &&
  (leAt l 0x1E 1 == srate m g)

/-- R295: the record taken for a group from the two copies. -/
def ephChoice (m : Mx) (g : Nat) (a b : Option (List Byte)) : Option (List Byte) :=
  let rec_ (o : Option (List Byte)) : Option (List Byte) :=
    match o with
    | some l => let r := slice l (2048 * g) 2048; if ephValid m g r then some r else none
    | none => none
  match rec_ a, rec_ b with
  | some x, some y => if leAt x 8 8 < leAt y 8 8 then some y else some x
  | some x, none => some x
  | none, o => o

/-- The sets that a record holds for a group. -/
def recordSets (l : List Byte) : Tab (List Byte) :=
  (List.range 4).filter (fun s => (leAt l 7 1).testBit s) |>.map (fun s => (s, slice l (0x40 + 0x110 * s) 272))

/-- R295: load a group's cache from its record; a group without one is recorded. -/
def ephLoad (a b : Option (List Byte)) (g : Nat) (m : Mx) : Mx :=
  if !bit (ephLoc m) 31 then m
  else match ephChoice m g a b with
    | none => log (setPhy m g { phy m g with recd := [] }) .noEphemeris g
    | some r =>
      let sets := recordSets r
      setPhy m g { phy m g with sets := sets, recd := sets, ttrain := leAt r 0x10 8, tempTrain := signed 16 (leAt r 0x1A 2),
                                   iver := leAt r 0x20 4 }

/-- A copy of the Ephemeris as found: its sequence number. -/
def ephCopyOf (m : Mx) (o : Option (List Byte)) : Copy :=
  match o with
  | some l =>
    let ok := (List.range 32).filter (fun g => ephValid m g (slice l (2048 * g) 2048))
    if ok = [] then {} else { valid := true, seq := ok.foldl (fun a g => max a (leAt l (2048 * g + 8) 8)) 0 }
  | none => {}

/-- R294: the copy with the lower valid SEQ, or the invalid one, is written first; copy A where neither rule decides (log entry
134). -/
def ephBFirst (m : Mx) : Bool := m.ph.ephA.valid && (!m.ph.ephB.valid || decide (m.ph.ephB.seq < m.ph.ephA.seq))

def ephCopy (m : Mx) (b : Bool) : Copy := if b then m.ph.ephB else m.ph.ephA
def setEphCopy (b : Bool) (c : Copy) (m : Mx) : Mx :=
  if b then { m with ph := { m.ph with ephB := c } } else { m with ph := { m.ph with ephA := c } }

/-- R294: the next page-set of a copy's block; 0 where the block is full and must be erased. -/
def ephPage (m : Mx) (b : Bool) : Nat := if ppb m (ephDie m b) ≤ (ephCopy m b).page then 0 else (ephCopy m b).page

/-- R293, R294: a copy is appended at the next page-set of its block, which is erased first when it is full. -/
def ephStart (b later : Bool) (m : Mx) : Mx :=
  let row := (reg m (phEphOff 4)).toNat
  let lead : List (Nat × SysOp) := if ppb m (ephDie m b) ≤ (ephCopy m b).page then [(row, .erase)] else []
  copyStart 10 (ephDie m b) b later (lead ++ [(row + ephPage m b, .bytes m.ph.image)]) m

/-- R294: the copy being written has its page-set, passed or given up. -/
def ephDone (b : Bool) (seq : Option Nat) (m : Mx) : Mx :=
  let c := ephCopy m b
  let n := ephPage m b + 1
  setEphCopy b (match seq with | some q => { valid := true, seq := q, page := n } | none => { c with valid := false, page := n }) m

/-- R293: the 64 KiB of a write: the records of every group. -/
def ephImage (m : Mx) (q : Nat) : List Byte := (List.range 32).flatMap (fun g => ephRecord m g q)

/-- R294: when a write is made. -/
def ephWanted (m : Mx) : Bool :=
  bit (ephLoc m) 31 && (m.gl.pf == .none) && (sysW m 10).isNone &&
  (m.ph.due || ((m.ph.grp.any (fun x => hasMoved x.2)) &&
                decide ((m.ph.ephAt.map (· + 3600000000000)).getD 0 ≤ m.md.time)))

/-- EPHEMERIS_WRITE's work: the records are taken and the first copy begins. -/
def ephWrite (m : Mx) : Mx :=
  if !ephWanted m then m
  else
    let q := 1 + max (if m.ph.ephA.valid then m.ph.ephA.seq else 0) (if m.ph.ephB.valid then m.ph.ephB.seq else 0)
    ephStart (ephBFirst m) false { m with ph := { m.ph with
      due := false, image := ephImage m q, ephAt := if m.ph.due then m.ph.ephAt else some m.md.time } }

/-- R294: a copy has been programmed and status-read: the other follows only where the first has passed. -/
def ephTurn (m : Mx) : Mx :=
  match sysW m 10, (sysW m 10).bind (·.ended) with
  | some w, some s =>
    let m := dropSys m 10
    if s.1 ≠ 0 then ephDone w.copyB none m
    else
      let m := ephDone w.copyB (some (leAt m.ph.image 8 8)) m
      if w.later then m
      else
        let m := each (List.range 32) (fun g m =>
          setPhy m g { phy m g with recd := recordSets (slice m.ph.image (2048 * g) 2048) }) m
        ephStart (!w.copyB) true m
  | _, _ => m

/-- R294, R296: PFAIL_N abandons a write, as a warm reset does (15_startup_reset_power.md R543): the copy being written is lost. -/
def ephCut (m : Mx) : Mx :=
  match sysW m 10 with
  | some w => ephDone w.copyB none (dropSys m 10)
  | none => m

/-! ## Registers -/

/-- Reads of the PHY block, by offset within it. -/
def phRead (m : Mx) (off : Nat) : Word :=
  if 0x20000 ≤ off then (if off = 0x20000 ∨ off = 0x20004 then reg m (0x280000 + off) else 0)
  else
    let g := off / 0x1000
    let k := off % 0x1000
    let p := phy m g
    if k = 4 then
      word (2 ^ 29 * p.mode + 2 ^ 23 * p.rate + 2 ^ 21 * p.therm + bitAt (p.hold || p.recal != []) 20 + bitAt p.hot 19 +
            bitAt p.fvfail 18 + 2 ^ 14 * p.fail.toNat + 2 ^ 8 * p.eyewarn.toNat + 2 ^ 4 * p.trained.toNat)
    else if k = 0x18 then word (unsigned 16 p.temp)
    else if k = 0x1C then word (65536 * p.recals + p.ratechg)
    else if 0x20 ≤ k ∧ k < 0x30 ∧ k % 4 = 0 then
      (let i := (k - 0x20) / 4
       word (2 ^ 24 * tabGet 0 p.rdNow i + 2 ^ 16 * tabGet 0 p.rdTrain i + 2 ^ 8 * tabGet 0 p.wrTrain i + tabGet 0 p.worst i))
    else if 0x100 ≤ k ∧ k < 0x210 then word (leAt (setBytes p (curSet p)) (k - 0x100) 4)
    else if k = 0 ∨ k = 0xC ∨ k = 0x10 ∨ k = 0x14 then reg m (phOff g k)
    else 0

/-- Writes of the PHY block, by offset within it; RETRAIN's results come with its own command. -/
def phWrite (off : Nat) (v : Word) (m : Mx) : Mx :=
  if off = 0x20000 then
    checkedWrite (!(bit v 31 && dieGrp (fld v 10 0) == dieGrp (fld v 26 16))) (phEphOff 0) 0 0x87FF07FF v m
  else if off = 0x20004 then maskedWrite (phEphOff 4) 0 0xFFFFFFFF v m
  else if 0x20000 < off then m
  else
    let g := off / 0x1000
    let k := off % 0x1000
    if k = 0 then phCfgWrite g v m
    else if k = 8 then onlyIf (bit v 0) (retrain g []) m
    else if k = 0xC then dfeWrite g v m
    else if k = 0x10 then setReg m (phOff g k) v
    else if k = 0x14 then setReg m (phOff g k) (v &&& 0xFFFF)
    else m

/-! ## Meanings -/

def isGrp (g : Nat) : Bool := decide (g < 32)

/-- The core runs, so that PHYs do (15_startup_reset_power.md R549). -/
def phyOn (m : Mx) : Bool := m.gl.pstate != 3

/-- FERVON_ENTRY (R275–R277). -/
def execFervonEntry (grp : Nat) (fails : FvRes) (s : State) : Res := act s (onlyIf (isGrp grp) (fervonEntry grp fails))

/-- RECALIBRATION_DONE (R284). -/
def execRecalibrationDone (grp : Nat) (ok : PhyRes) (s : State) : Res := act s (onlyIf (isGrp grp) (recalDone grp ok))

/-- GRADUAL_APPLICATION (R286). -/
def execGradualApplication (grp : Nat) (centre : List Byte) (loopFail : BitVec 4) (s : State) : Res :=
  act s (onlyIf (isGrp grp && phyOn s.mx) (gradual grp centre loopFail))

/-- SHORT_ZQ (R287). -/
def execShortZq (grp : Nat) (pu pd : ZqRes) (s : State) : Res :=
  act s (onlyIf (isGrp grp && phyOn s.mx && [pu, pd].all (fun z => decide (z.code < 64) && decide (z.ch < 4))) (shortZq grp pu pd))

/-- BUS_IDLE_BOUNDARY (R288). -/
def execBusIdleBoundary (grp : Nat) (ok : PhyRes) (s : State) : Res := act s (onlyIf (isGrp grp) (idleBoundary grp ok))

/-- THERMAL_SAMPLE (R289). -/
def execThermalSample (grp : Nat) (temp : Int) (s : State) : Res :=
  act s (onlyIf (isGrp grp && phyOn s.mx) (thermalSample grp temp))

/-- THERMAL_RETURN (R289). -/
def execThermalReturn (grp : Nat) (s : State) : Res := act s (onlyIf (isGrp grp) (thermalReturn grp))

/-- FRATE (R290): PHgg_CFG written with its other fields as they stand. -/
def execFrate (grp rate : Nat) (s : State) : Res :=
  act s (onlyIf (isGrp grp) (access (phOff grp 0) true (fun m =>
    phCfgWrite grp ((phCfg m grp &&& 0xF3FFFFFF) ||| word (2 ^ 26 * (rate % 4))) m)))

/-- DFE_FORCE (R291). -/
def execDfeForce (grp : Nat) (val : Word) (s : State) : Res :=
  act s (onlyIf (isGrp grp) (access (phOff grp 0xC) true (dfeWrite grp val)))

/-- RETRAIN (R298). -/
def execRetrain (grp : Nat) (sets : List TrainRes) (s : State) : Res :=
  act s (onlyIf (isGrp grp) (access (phOff grp 8) true (retrain grp sets)))

/-- EPHEMERIS_WRITE (R294). -/
def execEphemerisWrite (_okA _okB : Told) (s : State) : Res := act s ephWrite

end Sys2Proof.Machine
end

