-- ==== Sys2Proof/Machine/Codec.lean ====
section
/-! DEFINITION. The codec (08_codec.md R300–R333): lanes and their orders, decoding with its statistics, encoding,
cluster faults and the takeover. -/

namespace Sys2Proof.Machine

/-! ## Registers (R331–R333) -/

def cxIter (m : Mx) : Word := reg m (cxGlobOff 0)
def hmax (m : Mx) : Nat := fld (cxIter m) 5 0
def smax (m : Mx) : Nat := fld (cxIter m) 21 16
def warnLine (m : Mx) (p : Nat) : Nat := fld (reg m (cxGlobOff (0x10 + 4 * (p - 1)))) 15 0
def erasLim (m : Mx) : Nat := fld (reg m (cxGlobOff 8)) 11 0

/-! ## Lanes -/

/-- The lowest free lane of a number of lanes. -/
def freeLane (l : Tab (Option CwRef)) (n : Nat) : Option Nat := (List.range n).find? (fun i => tabGet none l i == none)

/-- Lanes that hold a frame. -/
def busyLanes (l : Tab (Option CwRef)) : Nat := (l.filter (fun x => x.2.isSome)).length

/-- Drop an entry's frames from every order and lane (R330). -/
def dropFrames (eid : Nat) (m : Mx) : Mx :=
  let keep (l : List CwRef) : List CwRef := l.filter (fun x => x.eid != eid)
  let lane (l : Tab (Option CwRef)) : Tab (Option CwRef) := l.map (fun x => match x.2 with
    | some c => if c.eid = eid then (x.1, none) else x
    | none => x)
  { m with cx := { m.cx with cl := m.cx.cl.map (fun x =>
      (x.1, { x.2 with hq := keep x.2.hq, sq := keep x.2.sq, eq := keep x.2.eq,
                       hl := lane x.2.hl, sl := lane x.2.sl, el := lane x.2.el })) } }

/-! ## Where a frame lies in a reservation (R190, R300, R318) -/

/-- Frames of an entry before its extra frames: COPY's reservation is sized by the larger frame. -/
def extraBase (e : Ent) : Nat := e.cws.length * max (frameLen (eSrcProf e)) (frameLen (eDstProf e))

/-- Offset of the frame of codeword `i`, or of an extra frame (`x` 1 or 2). -/
def frameOff (e : Ent) (i x : Nat) : Nat :=
  if x = 0 then i * eStride e else extraBase e + (x - 1) * frameLen (eSrcProf e)

/-! ## Statistics (R321–R323) -/

/-- What a decode found. -/
structure DecRes where
  result : Nat
  iter   : Nat := 0
  corr   : Nat := 0
  synd0  : Nat := 0
  ones   : Nat := 0
  weak   : Nat := 0
  toOne  : Nat := 0                          -- corrected bits whose decoded value is 1
  mode   : Nat := 0
  plain  : List Byte := []
  deriving DecidableEq, Repr

/-- R335: value of a page just above level slot `s`. -/
def aboveSlot (below s : Nat) : Nat := (below + s + 1) % 2

/-- R323: FELL and ROSE of a level slot. -/
def fellRose (r : DecRes) (below s : Nat) : Nat × Nat :=
  if r.result ≠ 0 then (0, 0)
  else if aboveSlot below s = 1 then (r.toOne, r.corr - r.toOne) else (r.corr - r.toOne, r.toOne)

/-- R322: a statistics record. -/
def statBytes (e : Ent) (cw step : Nat) (lv : List Nat × Nat) (r : DecRes) : List Byte :=
  let n := lv.1.length
  let known := decide (r.result ≤ 1)
  leBytes 1 r.result ++ leBytes 1 (min 255 r.iter) ++ leBytes 1 (128 * lv.2 + n) ++ leBytes 1 cw ++
  leBytes 2 (if known then min 0xFFFF r.corr else 0xFFFF) ++ leBytes 2 (min 0xFFFF r.synd0) ++ leBytes 2 (min 0xFFFF r.ones) ++
  leBytes 2 (min 0xFFFF r.weak) ++ leBytes 4 ((List.range n).foldl (fun a s => a + (lv.1.getD s 1 - 1) * 16 ^ s) 0) ++
  ((List.range 8).map (fun s => if s < n then leBytes 2 (fellRose r lv.2 s).1 ++ leBytes 2 (fellRose r lv.2 s).2
                                else leBytes 4 0)).flatten ++
  leBytes 4 (if known then leAt r.plain 4124 4 else 0) ++ leBytes 4 (eArg0 e) ++ leBytes 2 step ++
  leBytes 1 (eSrcProf e) ++ leBytes 1 (if r.result = 3 ∨ r.result = 4 then 0xFF else r.mode) ++ leBytes 2 (eDie e) ++ leBytes 2 0

/-- Offsets a codeword was last sensed at. -/
def usedOffs (e : Ent) (cw : Nat) : List Int := tabGet (e.base.getD []) e.used cw

/-- R321: form a codeword's record, keep it for SCAN and pass it to Seeing. -/
def record (eid : Nat) (e : Ent) (cw step : Nat) (r : DecRes) (m : Mx) : Mx :=
  let lv := pageLevels m (eDie e) (eRow e)
  let m := setEnt m eid { e with stats := tabSet e.stats cw (statBytes e cw step lv r) }
  if r.result = 4 then m
  else
    let fr := (List.range lv.1.length).map (fellRose r lv.2)
    { m with sg := { m.sg with recs := m.sg.recs ++ [{
        result := r.result, die := eDie e, bg := bgOf m (eDie e) (eRow e), bin := e.bin, levels := lv.1,
        fell := fr.map (·.1), rose := fr.map (·.2), used := usedOffs e cw }] } }

/-! ## Decoding (R311, R314–R318) -/

/-- Bits of the decoded frame that are 1 where the frame as read was 0. -/
def toOnes (raw dec : List Byte) : Nat := onesOf ((raw.zip dec).map (fun x => (x.1 ^^^ x.2) &&& x.2))

/-- R315, R316: judge a proposal: it succeeds only as a codeword, found within the iterations allowed; a decode that fails has
run them all. -/
def judgeDecode (e : Ent) (cw mode lim weak : Nat) (raw : List Byte) (prop : List Byte × Nat) : DecRes :=
  let rows := parityRows (eSrcProf e)
  let s := unsatisfied rows raw
  let base : DecRes := { result := 2, iter := lim, synd0 := s, ones := onesOf raw, weak := weak, mode := mode }
  let dec := if s = 0 then raw else slice prop.1 0 (frameLen (eSrcProf e))
  if s = 0 ∨ (isCodeword rows dec ∧ prop.2 ≤ lim) then
    let plain := scramble (eRow e) (eCwi e cw) (dec.take 4128)
    let bad := !eRawMeta e && (crc32c (plain.take 4096) != leAt plain 4120 4)
    { base with result := if bad then 1 else 0, iter := min lim prop.2, corr := bitDiff raw dec, toOne := toOnes raw dec, plain := plain }
  else base

/-- R315: a hard decode of at most `lim` iterations. -/
def hardResult (e : Ent) (cw lim : Nat) (raw : List Byte) : DecRes :=
  judgeDecode e cw 0 lim 0 raw (Config.hardDecode (parityRows (eSrcProf e)) lim raw)

/-- Two frames, byte by byte. -/
def zipBytes (f : Byte → Byte → Byte) (a b : List Byte) : List Byte := (a.zip b).map (fun x => f x.1 x.2)

/-- R318: the input of a soft lane: the sign of every bit, which is the hard bit in mode 1 and the majority in mode 2, and the
bits on which the senses do not all agree, whose magnitude is weak. -/
def softInput (fs : List (List Byte)) : List Byte × List Byte :=
  match fs with
  | [a, b] => (a, zipBytes (· ^^^ ·) a b)
  | [a, b, c] =>
    (zipBytes (· ||| ·) (zipBytes (· &&& ·) a b) (zipBytes (· &&& ·) c (zipBytes (· ||| ·) a b)),
     zipBytes (· ||| ·) (zipBytes (· ^^^ ·) a b) (zipBytes (· ^^^ ·) a c))
  | _ => (fs.headD [], [])

/-- R318: the strong and the weak magnitude of a mode (R332). -/
def llrMags (llr : Word) (mode : Nat) : Nat × Nat :=
  if mode = 2 then (fld llr 11 8, fld llr 15 12) else (fld llr 3 0, fld llr 7 4)

/-- R318: a soft decode in a mode; CORR counts against the hard frame. -/
def softResult (e : Ent) (cw mode lim : Nat) (llr : Word) (fs : List (List Byte)) : DecRes :=
  let i := softInput fs
  let g := llrMags llr mode
  judgeDecode e cw mode lim (onesOf i.2) (fs.headD []) (Config.softDecode (parityRows (eSrcProf e)) lim i.1 i.2 g.1 g.2)

/-- R314: a frame judged erased. -/
def isErased (m : Mx) (raw : List Byte) : Bool := (erasLim m != 0) && decide (8 * raw.length - onesOf raw ≤ erasLim m)

/-- R359: what MARGIN may take from a delivered codeword. -/
def marginEntry (m : Mx) (e : Ent) (cw : Nat) (r : DecRes) : Nat × Nat × Nat × Int :=
  let l := ((pageLevels m (eDie e) (eRow e)).1).headD 1
  (r.corr, r.weak, l, (usedOffs e cw).getD (l - 1) 0)

/-- R350: the hard step with the least SYND0. -/
def bestSynd (e : Ent) (cw step synd0 : Nat) : Tab (Nat × Nat × List Int) :=
  match e.synd.find? (fun x => x.1 == cw) with
  | some (_, s, _, _) => if synd0 < s then tabSet e.synd cw (synd0, step, usedOffs e cw) else e.synd
  | none => tabSet e.synd cw (synd0, step, usedOffs e cw)

/-- R316, R317: what an outcome does to its codeword. -/
def applyResult (m : Mx) (e : Ent) (cw step : Nat) (r : DecRes) : Ent :=
  let e := { e with steps := tabSet e.steps cw (max step (stepOf e cw)) }
  if r.result = 0 then
    let w := warnLine m (eSrcProf e)
    let o := if w ≠ 0 ∧ w < r.corr then CwOut.warn r.corr else CwOut.good r.corr
    { setCw e cw o with marg := tabSet e.marg cw (marginEntry m e cw r) }
  else if r.result = 1 then setCw e cw .failMeta
  else if r.result = 3 then setCw e cw .erased
  else if r.mode = 0 then { e with synd := bestSynd e cw step r.synd0 } else e

/-- Finish one codeword's turn at the codec: record, outcome, and the plain bytes written back, the
parity staying as read (R300, R316). -/
def decoded (c : CwRef) (r : DecRes) (m : Mx) : Mx :=
  match ent m c.eid with
  | none => m
  | some e =>
    let m := record c.eid { e with sent := e.sent - 1 } c.cw c.step r m
    match ent m c.eid with
    | none => m
    | some e =>
      let m := setEnt m c.eid (applyResult m e c.cw c.step r)
      let m := if r.result ≤ 1 then resvWrite m (resOwner c.eid) (frameOff e c.cw 0) r.plain else m
      if r.result = 1 ∨ r.result = 2 then log m .decodeFailed (eDie e) c.cw c.step else m

/-- Count in a cluster what a decode was. -/
def countDecode (g : Nat) (soft : Bool) (r : DecRes) (m : Mx) : Mx :=
  let c := codec m g
  let lim := 0xFFFFFFFF
  setCodec m g (if r.result = 3 then { c with neras := satInc c.neras lim }
    else { c with ncw := satInc c.ncw lim, nfail := if r.result = 2 then satInc c.nfail lim else c.nfail,
                  nsoft := if soft then satInc c.nsoft lim else c.nsoft })

/-- Read a frame of an entry's reservation for the codec (port 1). -/
def readFrame (m : Mx) (eid : Nat) (e : Ent) (cw x : Nat) : List Byte × Bool × Mx :=
  resvRead m (resOwner eid) 12 (frameOff e cw x) (frameLen (eSrcProf e))

/-- R319, R314: a hard lane takes the oldest frame; one judged erased is settled at once. The Boolean says whether an
entry's codeword was settled. -/
def takeHard (g : Nat) (m : Mx) : Option Nat × Mx :=
  let k := codec m g
  match k.hq with
  | [] => (none, m)
  | c :: q =>
    match k.faulted, freeLane k.hl 16, ent m c.eid with
    | none, some l, some e =>
      let f := readFrame m c.eid e c.cw 0
      let m := setCodec f.2.2 g { codec f.2.2 g with hq := q }
      if isErased m f.1 then
        let r : DecRes := { result := 3, ones := onesOf f.1, synd0 := unsatisfied (parityRows (eSrcProf e)) f.1, mode := 0xFF }
        (some c.eid, decoded c r (countDecode g false r m))
      else
        let c := { c with at_ := m.md.time, bytes := [f.1], lim := hmax m }
        (none, setCodec m g { codec m g with hl := tabSet (codec m g).hl l (some c) })
    | none, some _, none => (none, setCodec m g { k with hq := q })
    | _, _, _ => (none, m)

/-- R318, R319: a soft lane takes the codeword asked for first, with its two or three senses. -/
def takeSoft (g : Nat) (m : Mx) : Mx :=
  let k := codec m g
  match k.sq with
  | [] => m
  | c :: q =>
    match k.faulted, freeLane k.sl 4, ent m c.eid with
    | none, some l, some e =>
      let a := readFrame m c.eid e c.cw 0
      let b := readFrame a.2.2 c.eid e c.cw 1
      let d := if c.mode = 2 then readFrame b.2.2 c.eid e c.cw 2 else ([], false, b.2.2)
      let c := { c with at_ := m.md.time, bytes := [a.1, b.1] ++ (if c.mode = 2 then [d.1] else []),
                        lim := smax m, llr := reg m (cxGlobOff 4) }
      let m := d.2.2
      setCodec m g { codec m g with sq := q, sl := tabSet (codec m g).sl l (some c) }
    | none, some _, none => setCodec m g { k with sq := q }
    | _, _, _ => m

/-- The frame a decode lane holds. -/
def laneRef (k : Codec) (soft : Bool) (l : Nat) : Option CwRef := tabGet none (if soft then k.sl else k.hl) l

/-- R315, R318, R330: what a lane makes of the frame it holds, by the limits and magnitudes it took it with. -/
def laneResult (e : Ent) (soft : Bool) (c : CwRef) : DecRes :=
  if soft then softResult e c.cw c.mode c.lim c.llr c.bytes else hardResult e c.cw c.lim (c.bytes.headD [])

/-- R315, R318: a decode ends; answers the entry whose codeword it was. -/
def endDecode (g : Nat) (soft : Bool) (l : Nat) (m : Mx) : Option Nat × Mx :=
  let k := codec m g
  match laneRef k soft l with
  | none => (none, m)
  | some c =>
    let m := setCodec m g (if soft then { k with sl := tabSet k.sl l none } else { k with hl := tabSet k.hl l none })
    match ent m c.eid with
    | none => (none, m)
    | some e =>
      let r := laneResult e soft c
      (some c.eid, decoded c r (countDecode g soft r m))

/-! ## Encoding (R312, R313, R320) -/

/-- A frame to encode has an uncorrectable byte, or was lost half written: its plain bytes are supplied again (R320,
R328): by the data mover for a PROGRAM, by a new read of the source for a COPY, from the parity store for a close, and for a
page-set of the complex's own from what it is made of. -/
def resupply (eid : Nat) (e : Ent) (m : Mx) : Mx :=
  let m := dropFrames eid m
  let e := { e with sent := 0 }
  if !isHostEid eid then supplyOwn eid m
  else if eOpc e = 2 then
    let m := zeroMeta eid e (setEnt m eid { e with stage := .xferIn })
    queueXfer (entryXfer m eid e (.entryIn eid) false (pageParts e (fun _ => true))) m
  else if eOpc e = 4 then
    setEnt m eid { e with dst := false, stage := .toPlace, cws := e.cws.map (fun _ => .pending), steps := [], base := none,
                          used := [], synd := [], marg := [], redo := [], seen := [], hard := 0, dieOut := none }
  else fillParity eid e (stripe m (eStripe e)) m

/-- Row that seeds a frame's randomiser (R308): a close's parity uses its stripe's row. -/
def encRow (m : Mx) (e : Ent) : Nat := if eOpc e = 0x11 then (stripe m (eStripe e)).row else wRow e
def encProf (m : Mx) (e : Ent) : Nat := if eOpc e = 0x11 then (stripe m (eStripe e)).profile else wProf e

/-- Index within its page of an encoder's frame. -/
def encCwi (e : Ent) (cw : Nat) : Nat := if eOpc e = 0x11 then cw % 4 else eCwi e cw

/-- R36, R158, R163: the stamp of a codeword: DCRC and PTIME, but under RAW_META. -/
def stamp (m : Mx) (e : Ent) (plain : List Byte) : List Byte :=
  if eRawMeta e then plain
  else patch plain 4120 (leBytes 4 (crc32c (plain.take 4096)) ++ leBytes 4 (m.md.time / 1000000000))

/-- The plain bytes that an encoder encodes: those of a PROGRAM or COPY are stamped, a member's as it passed the
accumulator (R36, R312); a parity member carries no stamp (R372). -/
def encPlain (m : Mx) (e : Ent) (plain : List Byte) : List Byte :=
  if (eOpc e = 2 ∨ eOpc e = 4) ∧ eStriped e = false then stamp m e plain else plain

/-- R312: an encoder takes the oldest frame's plain bytes. -/
def takeEncode (g : Nat) (m : Mx) : Mx :=
  let k := codec m g
  match k.eq with
  | [] => m
  | c :: q =>
    match k.faulted, freeLane k.el 8, ent m c.eid with
    | none, some l, some e =>
      let p := resvRead m (resOwner c.eid) 12 (c.cw * frameLen (encProf m e)) 4128
      let m := setCodec p.2.2 g { codec p.2.2 g with eq := q }
      if p.2.1 then resupply c.eid e m
      else setCodec m g { codec m g with el := tabSet (codec m g).el l (some { c with at_ := m.md.time, bytes := [encPlain m e p.1] }) }
    | none, some _, none => setCodec m g { k with eq := q }
    | _, _, _ => m

/-- R312: the encoded frame is written back; when the entry has no more frames to encode it may go to its die. -/
def endEncode (g l : Nat) (m : Mx) : Mx :=
  let k := codec m g
  match tabGet none k.el l with
  | none => m
  | some c =>
    let m := setCodec m g { k with el := tabSet k.el l none }
    match ent m c.eid with
    | none => m
    | some e =>
      let f := encodeFrame (parityRows (encProf m e)) (scramble (encRow m e) (encCwi e c.cw) (c.bytes.headD []))
      let m := resvWrite m (resOwner c.eid) (c.cw * frameLen (encProf m e)) f
      let m := setEnt m c.eid { e with sent := e.sent - 1, stage := if e.sent ≤ 1 then .toPlace else e.stage }
      if !isHostEid c.eid && decide (e.sent ≤ 1) then placeWrite c.eid m else m

/-! ## Cluster faults (R325–R330) -/

/-- R326: the first cluster after `g` without a fault. -/
def partner (m : Mx) (g : Nat) : Option Nat :=
  ((List.range 31).map (fun i => (g + i + 1) % 32)).find? (fun c => (codec m c).faulted.isNone)

/-- The frames a cluster's lanes hold. -/
def laneRefs (l : Tab (Option CwRef)) : List CwRef := l.filterMap (·.2)

/-- R327, R328: a cluster's frames, those held in lanes included, go back to an order in their original place. -/
def merge (l q : List CwRef) : List CwRef := l.foldl (fun q c => refIns { c with bytes := [] } q) q

/-- CXgg_FAULT after a fault: the first since VALID was cleared is held, and every one counts. -/
def faultReg (old : Word) (cause kind lane : Nat) : Word :=
  let n := satInc (fld old 7 0) 0xFF
  if bit old 31 then word (old.toNat / 256 * 256 + n)
  else word (2 ^ 31 + 2 ^ 24 * cause + 2 ^ 12 * kind + 2 ^ 8 * lane + n)

/-- R327: the takeover after a fault. -/
def takeover (g : Nat) (m : Mx) : Mx :=
  let k := codec m g
  let hq := merge (laneRefs k.hl) k.hq
  let sq := merge (laneRefs k.sl) k.sq
  let eq := merge (laneRefs k.el) k.eq
  match partner m g with
  | none => setCodec m g { k with hq := hq, sq := sq, eq := eq, hl := [], sl := [], el := [] }
  | some p =>
    let m := setCodec m g { k with hq := [], sq := [], eq := [], hl := [], sl := [], el := [] }
    let m := setCodec m p { codec m p with hq := merge hq (codec m p).hq, sq := merge sq (codec m p).sq,
                                           eq := merge eq (codec m p).eq }
    each (List.range 32) (fun i m =>
      if servedBy m i = g then setCodec m i { codec m i with served := some p } else m) m

/-- R325: a cluster has a fault. -/
def clusterFault (g cause kind lane : Nat) (m : Mx) : Mx :=
  let k := codec m g
  let first := k.faulted.isNone
  let m := setCodec m g { k with fault := faultReg k.fault cause kind lane, faulted := some (k.faulted.getD cause) }
  if !first then m
  else
    let m := takeover g m
    raise (log m .cxFault g cause (65536 * kind + 256 * lane + servedBy m g)) 277

/-- R325, R328: a parity error in a memory of the cluster ends a lane's work. A frame whose write-back had begun does not go to
the partner as it stands: `lost` takes it; KIND 3 names no lane where none holds a frame. -/
def laneBroken (g kind lane : Nat) (begun : Bool) (held : Option CwRef) (clear : Mx → Mx) (lost : CwRef → Mx → Mx) (m : Mx) : Mx :=
  match held with
  | none => clusterFault g 3 3 0 m
  | some c => if begun then lost c (clusterFault g 3 kind lane (clear m)) else clusterFault g 3 kind lane m

/-- R325: four times the longest time a lane may hold a frame, in ns rounded down, by kind: the times are R311's. -/
def laneLimit (m : Mx) (e : Ent) (kind : Nat) : Nat :=
  let n := 8 * frameLen (eSrcProf e)
  if kind = 0 then 4 * (8 + (hmax m - 8)) * n * 10 / 1024
  else if kind = 1 then 4 * (10 + (smax m - 10)) * n / 32
  else 4 * (8 * frameLen (encProf m e)) * 10 / 256

/-- The lanes of a kind: 0 hard, 1 soft, 2 encoders. -/
def lanesOf (k : Codec) (kind : Nat) : Tab (Option CwRef) := if kind = 0 then k.hl else if kind = 1 then k.sl else k.el

/-- R325: a lane has held a frame for too long. -/
def laneTimeout (g kind lane : Nat) (m : Mx) : Mx :=
  match tabGet none (lanesOf (codec m g) kind) lane with
  | none => m
  | some c =>
    match ent m c.eid with
    | none => m
    | some e => if c.at_ + laneLimit m e kind < m.md.time then clusterFault g 4 kind lane m else m

/-- R329: RESTORE starts the self-test of a faulted cluster; BIST_FAIL stands until cold reset. -/
def restoreStart (g : Nat) (m : Mx) : Mx :=
  let k := codec m g
  match k.faulted with
  | some c => if c = 5 then m else setCodec m g { k with test := true }
  | none => m

/-- R326: groups whose cluster has a fault, and had no cluster left to take them, go to their partner. -/
def serveStranded (m : Mx) : Mx :=
  each (List.range 32) (fun c m =>
    if (codec m c).faulted.isSome && (List.range 32).any (fun i => servedBy m i == c) then takeover c m else m) m

/-- R329: the self-test ends. -/
def restoreEnd (g : Nat) (pass : Bool) (m : Mx) : Mx :=
  let k := codec m g
  if !k.test then m
  else if pass then
    log (serveStranded (setCodec m g { k with test := false, faulted := none, served := none })) .cxRestored g
  else
    setCodec m g { k with test := false, faulted := some 5, fault := faultReg k.fault 5 3 0 }

/-! ## Register access (R331–R333) -/

/-- Reads of a cluster's registers and the global ones, by offset within the codec block. -/
def cxRead (m : Mx) (k : Nat) : Word :=
  if k < 0x20000 then
    let g := k / 0x1000
    let c := codec m g
    let f := k % 0x1000
    if f = 0 then
      word (bitAt c.faulted.isSome 31 + bitAt ((List.range 32).any (fun i => i != g && servedBy m i == g)) 30 + bitAt c.test 29 +
            2 ^ 16 * servedBy m g + 2 ^ 8 * busyLanes c.hl + 2 ^ 4 * busyLanes c.sl + busyLanes c.el)
    else if f = 8 then c.fault
    else if f = 0xC then word c.ncw
    else if f = 0x10 then word c.nfail
    else if f = 0x14 then word c.nsoft
    else if f = 0x18 then word c.neras
    else 0
  else
    let f := k - 0x20000
    if f = 0 ∨ f = 4 ∨ f = 8 ∨ (0x10 ≤ f ∧ f ≤ 0x20) then reg m (cxGlobOff f) else 0

/-- Writes of the codec block, by offset within it. -/
def cxWrite (k : Nat) (v : Word) (m : Mx) : Mx :=
  if k < 0x20000 then
    let g := k / 0x1000
    let f := k % 0x1000
    if f = 4 then onlyIf (bit v 0) (restoreStart g) m
    else if f = 8 then
      (if bit v 31 then setCodec m g { codec m g with fault := (codec m g).fault &&& 0x7FFFFFFF } else m)
    else m
  else
    let f := k - 0x20000
    if f = 0 then checkedWrite ((fld v 5 0 != 0) && (fld v 21 16 != 0)) (cxGlobOff f) 0x003F003F 0 v m
    else if f = 4 then
      checkedWrite ((fld v 3 0 != 0) && (fld v 7 4 != 0) && (fld v 11 8 != 0) && (fld v 15 12 != 0)) (cxGlobOff f) 0xFFFF 0 v m
    else if f = 8 then setReg m (cxGlobOff f) (v &&& 0xFFF)
    else if 0x10 ≤ f ∧ f ≤ 0x20 then setReg m (cxGlobOff f) (v &&& 0xFFFF)
    else m

/-! ## Meanings -/

/-- ENCODE (R312). -/
def execEncode (grp : Nat) (s : State) : Res := act s (onlyIf (decide (grp < 32)) (takeEncode grp))

/-- R312, R325: an encoder ends: it writes its frame back, or its checker refuses the frame, or a memory of its cluster fails. -/
def encoderEnds (g : Nat) (l : LaneEnd) (m : Mx) : Mx :=
  let k := codec m g
  let held := tabGet none k.el l.lane
  match l.flt with
  | .none => endEncode g l.lane m
  | .check => if held.isSome then clusterFault g 2 2 l.lane m else m
  | .memory b => laneBroken g 2 l.lane b held (fun m => setCodec m g { codec m g with el := tabSet (codec m g).el l.lane none })
      (fun c m => match ent m c.eid with | some e => resupply c.eid e m | none => m) m

/-- ENCODE_WRITE_BACK (R312). -/
def execEncodeWriteBack (grp : Nat) (lane : LaneEnd) (s : State) : Res :=
  act s (onlyIf (decide (grp < 32) && decide (lane.lane < 8)) (encoderEnds grp lane))

/-- SOFT_DECODE (R318, R319). -/
def execSoftDecode (grp : Nat) (s : State) : Res := act s (onlyIf (decide (grp < 32)) (takeSoft grp))

/-- LANE_TMO (R325). -/
def execLaneTmo (grp kind lane : Nat) (s : State) : Res :=
  act s (onlyIf (decide (grp < 32) && decide (kind < 3)) (laneTimeout grp kind lane))

/-- RESTORE (R329). -/
def execRestore (grp : Nat) (s : State) : Res :=
  act s (onlyIf (decide (grp < 32)) (access (cxOff grp 4) true (restoreStart grp)))

/-- RESTORE_TEST_DONE (R329). -/
def execRestoreTestDone (grp : Nat) (pass : Bool) (s : State) : Res :=
  act s (onlyIf (decide (grp < 32)) (restoreEnd grp pass))

end Sys2Proof.Machine
end

