-- ==== Sys2Proof/Machine/Stripes.lean ====
section
/-! DEFINITION. The stripe engine (10_stripes.md R369–R410): opening and binding, the accumulator, reconstruction,
REBUILD's walk, the journal and replay. -/

namespace Sys2Proof.Machine

def stReg (m : Mx) (k : Nat) : Word := reg m (stOff k)

/-! ## Opening and binding (R374, R375) -/

/-- A member table of 128 bytes. -/
def tableOf (l : List Byte) : List Nat := (List.range 64).map (fun i => leAt l (2 * i) 2)

/-- The position of a die in a table. -/
def posOf (t : List Nat) (d : Nat) : Option Nat :=
  (List.range 64).find? (fun i => mValid (memberAt t i) && mDie (memberAt t i) == d)

/-- A die and row that are a member of a stripe that is not FREE. -/
def taken (m : Mx) (d row : Nat) : Bool :=
  m.st.stripes.any (fun x => x.2.state != 0 && x.2.row == row && (posOf x.2.table d).isSome)

/-- R374: the cause at a position, in the order of the rule. -/
def posCause (m : Mx) (t : List Nat) (row npar i : Nat) : Option Nat :=
  let n := memberAt t i
  let low := ((List.range 64).find? (fun k => mValid (memberAt t k))).getD 0
  if !mValid n && n != 0 then some 5
  else if (i == 62 && !mValid n) || (i == 63 && mValid n != (npar == 2)) then some 2
  else if !mValid n then none
  else if mPlanes n == 0 || mPlanes n != mPlanes (memberAt t low) then some 3
  else if (List.range i).any (fun k => mValid (memberAt t k) && mDie (memberAt t k) == mDie n) then some 4
  else if taken m (mDie n) row then some 6
  else if (die m (mDie n)).absent then some 7
  else none

/-- R374: the first offending position and its cause. -/
def openCause (m : Mx) (t : List Nat) (row ndata npar : Nat) : Option (Nat × Nat) :=
  match (List.range 64).find? (fun i => (posCause m t row npar i).isSome) with
  | some i => some (i, (posCause m t row npar i).getD 0)
  | none => if ((List.range 62).filter (fun i => mValid (memberAt t i))).length = ndata then none else some (0, 1)

/-- A register that holds the first of its kind since VALID was cleared. -/
def holdFirst (old v : Word) : Word := if bit old 31 then old else v

/-- R374: a member table has arrived for a STRIPE_OPEN. -/
def openStripe (eid : Nat) (e : Ent) (l : List Byte) (m : Mx) : Mx :=
  let s := eStripe e
  let t := tableOf l
  let row := eArg1 e
  let npar := eArg0 e / 256 % 4
  if (stripe m s).state ≠ 0 then finish eid e 0x1000 0x0424 false m
  else
    match openCause m t row (eArg0 e % 256) npar with
    | some (i, c) =>
      let m := { m with st := { m.st with openerr := holdFirst m.st.openerr (word (2 ^ 31 + 256 * i + c)) } }
      finish eid e 0x1000 0x0410 false m
    | none =>
      let low := ((List.range 64).find? (fun k => mValid (memberAt t k))).getD 0
      let x : Stripe := { state := 1, ndata := eArg0 e % 256, npar := npar, planes := mPlanes (memberAt t low),
                          profile := eSrcProf e, row := row, topen := m.md.time, table := t }
      finish eid e 0 0 false (setStripe m s x)

/-- R375: why a member entry does not bind. -/
def bindFault (m : Mx) (e : Ent) : Option Nat :=
  let s := stripe m (eStripe e)
  let p := eSpos e
  let c := eOpc e = 4
  let d := if c then eDdie e else eDie e
  if s.state ≠ 1 then some 0x0424
  else if 62 ≤ p ∨ mValid (memberAt s.table p) = false ∨ s.bound.contains p ∨ hasBit s.passed p ∨ hasBit s.torn p then some 0x0426
  else if mDie (memberAt s.table p) ≠ d then some 0x0426
  else if (if c then eDrow e else eRow e) ≠ s.row ∨ (if c then eDplanes e else ePlanes e) ≠ mPlanes (memberAt s.table p) then
    some 0x0424
  else if eDstProf e ≠ s.profile then some 0x0427
  else none

/-- R375: bind a member entry to its position; answers whether it may go on. -/
def bind (eid : Nat) (e : Ent) (m : Mx) : Bool × Mx :=
  if !eStriped e then (true, m)
  else
    match bindFault m e with
    | some d => (false, freeResv (finish eid e 0x1000 d false m) (.entry eid))
    | none =>
      let s := eStripe e
      (true, setEnt (setStripe m s { stripe m s with bound := (stripe m s).bound ++ [eSpos e] }) eid
        { e with stripe := some (s, eSpos e) })

/-! ## The accumulator (R371–R373, R376) -/

/-- Combine one codeword's plain bytes into a stripe's parity: the first into a line is stored. -/
def foldSlot (s pos slot : Nat) (plain : List Byte) (m : Mx) : Mx :=
  if m.st.taken.contains (s, pos, slot) then m
  else
    let old (q : Bool) : List Byte := parityBytes m s q slot
    let p := xorBytes (old false) plain
    let q := xorBytes (old true) (gfScale (gfPow pos) plain)
    let put (t : Tab Mem) (l : List Byte) : Tab Mem := tabSet t s (memWrite (tabGet [] t s) (slot * 4128) l)
    { m with st := { m.st with parP := put m.st.parP p,
                               parQ := if (stripe m s).npar = 2 then put m.st.parQ q else m.st.parQ,
                               filled := if m.st.filled.contains (s, slot) then m.st.filled else m.st.filled ++ [(s, slot)],
                               taken := m.st.taken ++ [(s, pos, slot)] } }

/-- The plain bytes of an entry's codewords as the accumulator reads them, and whether one was uncorrectable. -/
def readPlain (eid : Nat) (e : Ent) (m : Mx) : List (List Byte) × Bool × Mx :=
  (List.range (eNcw e)).foldl (fun (x : List (List Byte) × Bool × Mx) i =>
    let r := resvRead x.2.2 (.entry eid) 10 (i * eStride e) 4128
    (x.1 ++ [r.1], x.2.1 || r.2.1, r.2.2)) ([], false, m)

/-- The stamp of codeword `i` of a member goes into its frame (R36). -/
def stampFrame (eid : Nat) (e : Ent) (i : Nat) (p : List Byte) (m : Mx) : Mx :=
  if eRawMeta e then m else resvWrite m (.entry eid) (i * eStride e + 4120) (slice p 4120 8)

/-- The codewords of a member, stamped, enter the accumulator in slot order; the stamps go into its frames (R36). A codeword
taken before is not taken again (08_codec.md R328): its frame is stamped with the new time, and the parity keeps the first
(DESIGN CHOICE, log entry 149). -/
def foldAll (eid s pos : Nat) (e : Ent) (ps : List (List Byte)) (m : Mx) : Mx :=
  each ((List.range ps.length).zip ps) (fun x m =>
    let p := stamp m e x.2
    foldSlot s pos (eSlot e x.1) p (stampFrame eid e x.1 p m)) m

/-- R376: a member's codewords pass in slot order; the position is PASSED, and the encoders take the frames, as they do
at once for an entry that is no member. Nothing enters the accumulator where a byte is uncorrectable: the plain bytes are
supplied again, as for an encoder (08_codec.md R320). A member supplied again after its stripe became FREE (R382) is stamped
as it was. -/
def pass (eid : Nat) (e : Ent) (m : Mx) : Mx :=
  match e.stripe with
  | none =>
    let r := readPlain eid e m
    if eStriped e = false then encodeAll eid e (eNcw e) (dieGrp (wDie e)) m
    else if r.2.1 then resupply eid e r.2.2
    else encodeAll eid e (eNcw e) (dieGrp (wDie e))
      (each ((List.range r.1.length).zip r.1) (fun x m => stampFrame eid e x.1 (stamp m e x.2) m) r.2.2)
  | some (s, pos) =>
    let r := readPlain eid e m
    if r.2.1 then resupply eid e r.2.2
    else
      let m := foldAll eid s pos e r.1 r.2.2
      let x := stripe m s
      let m := setStripe m s { x with bound := delN x.bound pos, passed := setBit x.passed pos }
      closeTurn s (encodeAll eid e (eNcw e) (dieGrp (wDie e)) m)

/-- The data of a program lies in the reservation: a striped member waits for its turn, another goes to the encoders. -/
def readyToPass (eid : Nat) (e : Ent) (m : Mx) : Mx :=
  if e.stripe.isSome then setEnt m eid { e with stage := .pass } else pass eid e m

/-! ## Programs of members (R378, R381) -/

/-- Stripe and position of a program that an entry has on a die. -/
def memberOf (e : Ent) (d : Nat) : Option (Nat × Nat) :=
  if eOpc e = 0x11 then (e.bind.find? (fun b => b.2 == d)).map (fun b => (eStripe e, b.1)) else e.stripe

/-- R378: LAUNCHED, before the confirm command. -/
def memberLaunched (e : Ent) (d : Nat) (m : Mx) : Mx :=
  match memberOf e d with
  | some (s, p) => setStripe m s { stripe m s with launched := setBit (stripe m s).launched p }
  | none => m

/-- R378: DONE or FAILED, at the status read. -/
def memberEnded (e : Ent) (d : Nat) (ok : Bool) (m : Mx) : Mx :=
  match memberOf e d with
  | some (s, p) =>
    let x := stripe m s
    setStripe m s (if ok then { x with done := setBit x.done p } else { x with failed := setBit x.failed p })
  | none => m

/-- R381: a parity member of a close has ended; the close ends with the last. -/
def parityEnded (eid : Nat) (e : Ent) (d : Nat) (status detail : Nat) (m : Mx) : Mx :=
  let m := memberEnded e d (status == 0) m
  let e := { e with bind := e.bind.filter (fun b => b.2 != d),
                    status := if e.status = 0 then status else e.status,
                    detail := if e.status = 0 then detail else e.detail }
  if e.bind.isEmpty then finish eid { e with arr := false } e.status e.detail false m else setEnt m eid e

/-! ## Finding the stripe of a read (R386, R384) -/

/-- An OPEN or CLOSING stripe that holds a die and row. -/
def openHolding (m : Mx) (d row : Nat) : Option (Nat × Nat) :=
  (m.st.stripes.filterMap (fun x =>
    if (x.2.state = 1 ∨ x.2.state = 2) ∧ x.2.row = row then (posOf x.2.table d).map (fun p => (x.1, p)) else none)).head?

def mapOn (m : Mx) : Bool := bit (stReg m 0x18) 31

/-- R384: address of the map entry of a die and row. -/
def mapAddr (m : Mx) (d row : Nat) : Nat :=
  let nb := fld (stReg m 0x18) 20 16
  let sh := fld (stReg m 0x18) 12 8
  (stReg m 0x10).toNat / 4096 * 4096 + 2 ^ 32 * (stReg m 0x14).toNat + 8 * (d * 2 ^ nb + (row >>> sh) % 2 ^ nb)

/-- R384: a map entry: its table, profile and parity members; `bad` where VALID stands beside a field out of range. -/
structure MapEnt where
  valid : Bool
  bad   : Bool
  table : Nat
  prof  : Nat
  npar  : Nat
  deriving DecidableEq, Repr

def mapEnt (v : Nat) : MapEnt :=
  let prof := v / 16 % 8
  let npar := v / 4 % 4
  let fine := (v / 2 % 2 == 0) && decide (1 ≤ prof) && decide (prof ≤ 5) && (npar == 1 || npar == 2)
  { valid := v.testBit 0 && fine, bad := v.testBit 0 && !fine, table := v / 128 * 128, prof := prof, npar := npar }

/-! ## Reconstruction (R386–R390) -/

def job (m : Mx) (eid : Nat) : Option Job := (m.st.jobs.find? (fun x => x.1 == eid)).map (·.2)
def setJob (m : Mx) (eid : Nat) (j : Job) : Mx := { m with st := { m.st with jobs := tabSet m.st.jobs eid j } }
def dropJob (m : Mx) (eid : Nat) : Mx := { m with st := { m.st with jobs := m.st.jobs.filter (fun x => x.1 != eid) } }

/-- Settle codewords of an entry with one outcome. -/
def settleCws (eid : Nat) (cs : List Nat) (o : CwOut) (m : Mx) : Mx :=
  match ent m eid with
  | some e => setEnt m eid (cs.foldl (fun e c => setCw e c o) e)
  | none => m

/-- Codewords for which step 16 does not apply (R386, R351). -/
def noStripe (eid : Nat) (cs : List Nat) (m : Mx) : Mx := settleCws eid cs .failDecode (dropJob m eid)

/-- Codewords whose reconstruction has failed (R351, R389). -/
def rebuildFails (eid : Nat) (cs : List Nat) (m : Mx) : Mx :=
  match ent m eid with
  | some e => settleCws eid cs .failRebuild
      (setEnt m eid { e with steps := cs.foldl (fun t c => tabSet t c rebuildStep) e.steps })
  | none => m

/-- R388, R393: a member that a reconstruction does not wait for; a REBUILD waits for a SUSPECT die and for a lock. -/
def memberLost (m : Mx) (eid d : Nat) : Bool :=
  if (ent m eid).any (fun e => eOpc e == 0x12) then (die m d).state == 2 || (die m d).absent
  else (die m d).state != 0 || (die m d).absent || lockOut (die m d) (eidRing eid)

/-- R387, R393: make the read of one member for the slots of a job. -/
def askMember (eid : Nat) (e : Ent) (row : Nat) (pos d : Nat) (m : Mx) : Mx :=
  match job m eid with
  | none => m
  | some j =>
    let sl := j.slots.map (·.1)
    if memberLost m eid d then setJob m eid { j with erased := j.erased ++ sl.map (fun s => (pos, s)) }
    else
      let id := m.st.nextM
      let planes := sl.foldl (fun a s => a ||| 2 ^ (s / 4)) 0
      let flags := bitAt (eSoft e) 5 + bitAt (decide (62 ≤ pos)) 4
      let x : Ent := { raw := mkRaw 1 flags d planes row (sl.foldl min 15 % 4) sl.length j.profile (eArg0 e),
                       stage := .waitRes, cws := sl.map (fun _ => .pending), slots := sl, serves := eid, arr := true }
      let m := { m with st := { m.st with nextM := id + 1 } }
      let m := setJob m eid { j with members := tabSet j.members id (pos, d) }
      askResv (setEnt m (memEid id) x) (.member id) 3 ((sl.length + 2 * bitAt (eSoft e) 0) * frameLen j.profile)

/-- Parity positions of a job that its table does not hold: nothing can be read there, so their slots are erasures. -/
def noParity (j : Job) (mem : List (Nat × Nat)) : List Nat :=
  if j.inOpen.isSome then [] else ((List.range j.npar).map (62 + ·)).filter (fun p => !mem.any (fun x => x.1 == p))

/-- R387, R388: the stripe is known: make the member reads. -/
def startJob (eid : Nat) (e : Ent) (j : Job) (planes : Nat) (mem : List (Nat × Nat)) (m : Mx) : Mx :=
  if (wPlanes e ||| planes) ≠ planes then noStripe eid j.cws m
  else
    let sl := j.cws.map (fun c => (eSlot e c, c))
    let j := { j with ready := true, slots := sl,
                      erased := (noParity j mem).flatMap (fun p => sl.map (fun s => (p, s.1))),
                      parts := (mem.map (·.1)).filter (fun p => p < 62) }
    each mem (fun x m => askMember eid e (eRow e) x.1 x.2 m) (log (setJob m eid j) .recon (eDie e) (eRow e))

/-- Members of a table other than one position, of which `p` holds. -/
def otherMembers (t : List Nat) (pos : Nat) (p : Nat → Bool) : List (Nat × Nat) :=
  ((List.range 64).filter (fun i => mValid (memberAt t i) && i != pos && p i)).map (fun i => (i, mDie (memberAt t i)))

/-- R384, R389, R393: the data mover reads stripe-map memory for an entry, on the entry's port (01_architecture.md R21, R22). The
read counts as begun here: a later write of the map's base or EN does not touch it (R410; DESIGN CHOICE, log entry 165). -/
def stFetch (eid : Nat) (e : Ent) (o : XOwner) (a n : Nat) (m : Mx) : Mx :=
  queueXfer { entryXfer m eid e o false (flatParts a 0 n) with lines := [] } m

/-- R386: step 16 for codewords of a READ or COPY source. -/
def reconstruct (eid : Nat) (cs : List Nat) (m : Mx) : Mx :=
  match ent m eid with
  | none => m
  | some e =>
    match openHolding m (eDie e) (eRow e) with
    | some (s, p) =>
      let x := stripe m s
      if 62 ≤ p ∨ hasBit x.passed p = false then noStripe eid cs m
      else startJob eid e { cws := cs, pos := p, profile := x.profile, npar := x.npar, inOpen := some s } x.planes
        (otherMembers x.table p (fun i => decide (i < 62) && hasBit x.passed i)) m
    | none =>
      if !mapOn m then noStripe eid cs m
      else
        stFetch eid e (.stMap eid) (mapAddr m (eDie e) (eRow e)) 8 (setJob m eid { cws := cs })

/-- R384, R389: the map entry has arrived, or its read has failed. -/
def mapArrived (eid : Nat) (c : Option Nat) (data : List Byte) (m : Mx) : Mx :=
  match job m eid, ent m eid with
  | some j, some e =>
    match c with
    | some f => rebuildFails eid j.cws (log (dropJob m eid) .mapFetch f)
    | none =>
      let x := mapEnt (leAt data 0 8)
      let m := if x.bad then log m .mapBad (eDie e) (eRow e) else m
      if !x.valid then noStripe eid j.cws m
      else stFetch eid e (.stTable eid) x.table 128 (setJob m eid { j with profile := x.prof, npar := x.npar })
  | _, _ => m

/-- R386, R387: the member table has arrived, or its read has failed. -/
def tableArrived (eid : Nat) (c : Option Nat) (data : List Byte) (m : Mx) : Mx :=
  match job m eid, ent m eid with
  | some j, some e =>
    match c with
    | some f => rebuildFails eid j.cws (log (dropJob m eid) .mapFetch f)
    | none =>
      let t := tableOf data
      match posOf t (eDie e) with
      | none => noStripe eid j.cws m
      | some p =>
        if 62 ≤ p then noStripe eid j.cws m
        else startJob eid e { j with pos := p } (mPlanes (memberAt t p))
               (otherMembers t p (fun i => decide (i < 63) || j.npar == 2)) m
  | _, _ => m

/-- R394: the highest step of a REBUILD's member reads. -/
def noteStep (eid n : Nat) (m : Mx) : Mx :=
  if m.st.walk.any (fun x => x.1 == eid) then
    let w := tabGet {} m.st.walk eid
    { m with st := { m.st with walk := tabSet m.st.walk eid { w with step := max w.step n } } }
  else m

/-- A member read has ended: its slots are delivered or counted as erasures; no job wants it, it is discarded. -/
def memberDone (id : Nat) (m : Mx) : Mx :=
  match ent m (memEid id) with
  | none => m
  | some x =>
    let m := match job m x.serves with
      | none => m
      | some j =>
        match (j.members.find? (fun y => y.1 == id)).map (·.2) with
        | none => m
        | some (pos, _) =>
          noteStep x.serves (x.steps.foldl (fun a s => max a s.2) 0) <| (List.range x.cws.length).foldl (fun m i =>
            match job m x.serves with
            | none => m
            | some j =>
              if (cwAt x i).delivered then
                let r := resvRead m (.member id) 10 (frameOff x i 0) 4128
                if r.2.1 then setJob r.2.2 x.serves { j with erased := j.erased ++ [(pos, eSlot x i)] }
                else setJob r.2.2 x.serves { j with got := tabSet j.got (16 * pos + eSlot x i) r.1 }
              else setJob m x.serves { j with erased := j.erased ++ [(pos, eSlot x i)] }) m
    dropEnt (freeResv m (.member id)) (memEid id)

/-- P or Q of a slot for a job: from the parity store as it stands when the slot is solved, or as read. The members that the job
reads were fixed as it began (DESIGN CHOICE, log entry 164). -/
def jobParity (m : Mx) (j : Job) (slot : Nat) (q : Bool) : Option (List Byte) :=
  match j.inOpen with
  | some s => if q ∧ j.npar ≠ 2 then none else some (parityBytes m s q slot)
  | none => (j.got.find? (fun x => x.1 == 16 * (if q then 63 else 62) + slot)).map (·.2)

def jobGot (j : Job) (pos slot : Nat) : Option (List Byte) := (j.got.find? (fun x => x.1 == 16 * pos + slot)).map (·.2)

/-- P′ or Q′: the parity without the data members read (R389). -/
def residue (j : Job) (slot : Nat) (q : Bool) (par : List Byte) : List Byte :=
  j.parts.foldl (fun a p => match jobGot j p slot with
    | some d => xorBytes a (if q then gfScale (gfPow p) d else d)
    | none => a) par

/-- R389: solve position `x` of a slot, or none where a member it needs is still to come. -/
def solve (m : Mx) (j : Job) (slot : Nat) : Option (List Byte) :=
  let miss := j.parts.filter (fun p => (jobGot j p slot).isNone)
  let p' := (jobParity m j slot false).map (residue j slot false)
  let q' := (jobParity m j slot true).map (residue j slot true)
  let x := j.pos
  match miss with
  | [] =>
    (match p', q' with
     | some p, _ => some p
     | none, some q => if j.erased.contains (62, slot) then some (gfScale (gfPowInv x) q) else none
     | none, none => none)
  | [y] =>
    if !j.erased.contains (y, slot) then none
    else
      (match p', q' with
       | some p, some q =>
         let lo := min x y
         let hi := max x y
         let g := gfPow (hi - lo)
         let dlo := gfScale (gfInv (g ^^^ 1)) (xorBytes (gfScale g p) (gfScale (gfPowInv lo) q))
         some (if x = lo then dlo else xorBytes p dlo)
       | _, _ => none)
  | _ => none

/-- R389: erasures of a slot, the failing codeword among them. -/
def erasures (j : Job) (slot : Nat) : Nat := 1 + (j.erased.filter (fun x => x.2 == slot)).length

/-- R389: a slot is lost. -/
def slotLost (eid : Nat) (e : Ent) (slot cw : Nat) (m : Mx) : Mx :=
  let m := rebuildFails eid [cw] { m with st := { m.st with lost := satInc m.st.lost 0xFFFF } }
  raise (log m .stLost (eRow e) (eDie e) slot) 285

/-- R389, R390: a slot is solved: its DCRC is checked and its plain bytes lie in the entry's frame. -/
def slotSolved (eid : Nat) (e : Ent) (cw : Nat) (plain : List Byte) (m : Mx) : Mx :=
  if !eRawMeta e && (crc32c (plain.take 4096) != leAt plain 4120 4) then
    rebuildFails eid [cw] (log m .decodeFailed (eDie e) cw rebuildStep)
  else
    let m := resvWrite m (.entry eid) (frameOff e cw 0) plain
    let m := setEnt m eid (setCw { e with steps := tabSet e.steps cw rebuildStep } cw (.good 0))
    { m with st := { m.st with recon := satInc m.st.recon 0xFFFF } }

/-- Remove a settled slot from its job; the job ends with its last. -/
def slotEnds (eid slot : Nat) (m : Mx) : Mx :=
  match job m eid with
  | none => m
  | some j =>
    let l := j.slots.filter (fun x => x.1 != slot)
    if l.isEmpty then dropJob m eid else setJob m eid { j with slots := l }

/-! ## The walk of a REBUILD (R391–R395) -/

/-- R393: the next row of the walk. -/
def nextRow (m : Mx) (d r : Nat) : Nat :=
  let b := pgBits m d
  (if r % 2 ^ b + 1 < ppb m d then r + 1 else (r / 2 ^ b + 1) * 2 ^ b) % 2 ^ 32

def rbCheck (e : Ent) : Bool := (eArg1 e).testBit 31
def rbCount (e : Ent) : Nat := eArg1 e / 2 ^ 16 % 2 ^ 15
def rbDdie (e : Ent) : Nat := eArg1 e % 2 ^ 11

def walkOf (m : Mx) (eid : Nat) : RbWalk := tabGet {} m.st.walk eid
def setWalk (m : Mx) (eid : Nat) (w : RbWalk) : Mx := { m with st := { m.st with walk := tabSet m.st.walk eid w } }

/-- Number of slots a mask names. -/
def maskCount (n : Nat) : Nat := ((List.range 16).filter (fun k => n.testBit k)).length

/-- R394: a record. -/
def walkBytes (w : RbWalk) : List Byte :=
  leBytes 4 w.row ++ leBytes 1 w.outcome ++ leBytes 1 w.neras ++ leBytes 1 w.step ++ leBytes 1 0 ++
  leBytes 2 w.gone ++ leBytes 2 w.second ++ leBytes 4 0

/-- R394: the data mover writes the record of the page-set in hand. -/
def walkRecord (eid : Nat) (e : Ent) (w : RbWalk) (m : Mx) : Mx :=
  let w := { w with at_ := .record, lost := w.lost + maskCount w.gone, mask := w.mask ||| w.gone }
  queueXfer { entryXfer m eid e (.stRec eid) true (flatParts (eDptr e + 16 * w.n) 0 16) with inl := walkBytes w }
    (setWalk (setEnt m eid { e with step := max e.step w.step }) eid w)

/-- R395: how a REBUILD completes, from the total of lost slots. -/
def walkEnd (eid : Nat) (e : Ent) (w : RbWalk) (m : Mx) : Mx :=
  let e := { e with cwfail := w.mask, margin := 0, corrMax := 0, corrSum := 0 }
  if w.lost = 0 then finish eid e 0 0 false m else finish eid e 0x3000 (min w.lost 0xFFFF) false m

/-- R395: the record has been written, or its write has failed with a cause. -/
def recordDone (eid : Nat) (e : Ent) (c : Option Nat) (m : Mx) : Mx :=
  let w := walkOf m eid
  match c, w.fin with
  | some f, _ => finish eid e 0x1200 (0x20 + f) false m
  | none, some s => finish eid e s.1 s.2 false m
  | none, none =>
    if w.n + 1 < rbCount e then setWalk m eid { w with at_ := .idle, n := w.n + 1, row := nextRow m (eDie e) w.row }
    else walkEnd eid e w m

/-- REBUILD_WALK_STEP's work: the next page-set begins with its map entry (R393), but where an open stripe holds it. -/
def walkStep (eid : Nat) (m : Mx) : Mx :=
  match ent m eid with
  | none => m
  | some e =>
    let w := walkOf m eid
    if eOpc e ≠ 0x12 ∨ e.stage ≠ .stripeWork ∨ w.at_ ≠ .idle ∨ w.held = false then m
    else
      let w := { w with planes := 0, neras := 0, step := 0, gone := 0, second := 0, fin := none }
      if (openHolding m (eDie e) w.row).isSome then walkRecord eid e { w with outcome := 5 } m
      else if !mapOn m then walkRecord eid e { w with outcome := 4 } m
      else stFetch eid e (.stMap eid) (mapAddr m (eDie e) w.row) 8 (setWalk m eid { w with at_ := .entry })

/-- R393, R394: a page-set's map entry has arrived. -/
def walkEntry (eid : Nat) (e : Ent) (c : Option Nat) (data : List Byte) (m : Mx) : Mx :=
  let w := walkOf m eid
  let x := mapEnt (leAt data 0 8)
  if c.isSome then walkRecord eid e { w with outcome := 7 } m
  else if !x.valid then walkRecord eid e { w with outcome := 4 } (if x.bad then log m .mapBad (eDie e) w.row else m)
  else if x.prof ≠ e.rbProf then walkRecord eid e { w with outcome := 6 } m
  else
    stFetch eid e (.stTable eid) x.table 128
      (setJob (setWalk m eid { w with at_ := .table }) eid { cws := [], profile := x.prof, npar := x.npar })

/-- R393, R394: a page-set's member table has arrived: its member reads are made, DIE's own among them in CHECK. -/
def walkTable (eid : Nat) (e : Ent) (c : Option Nat) (data : List Byte) (m : Mx) : Mx :=
  let w := walkOf m eid
  let t := tableOf data
  match c, job m eid, posOf t (eDie e) with
  | none, some j, some p =>
    let planes := mPlanes (memberAt t p)
    if 62 ≤ p ∨ planes = 0 then walkRecord eid e { w with outcome := 8 } (dropJob m eid)
    else
      let sl := maskSlots planes
      let mem := otherMembers t (if rbCheck e then 64 else p) (fun i => decide (i < 63) || j.npar == 2)
      let j := { j with pos := p, ready := true, slots := sl.map (fun s => (s, s)), parts := (mem.map (·.1)).filter (fun i => i < 62),
                        erased := (noParity j mem).flatMap (fun q => sl.map (fun s => (q, s))) }
      each mem (fun x m => askMember eid e w.row x.1 x.2 m) (setJob (setWalk m eid { w with at_ := .slots, planes := planes }) eid j)
  | none, some _, none => walkRecord eid e { w with outcome := 8 } (dropJob m eid)
  | _, _, _ => walkRecord eid e { w with outcome := 7 } (dropJob m eid)

/-- Every member of a slot has delivered it or counts as an erasure. -/
def slotReady (j : Job) (slot : Nat) : Bool :=
  (j.parts ++ (List.range j.npar).map (62 + ·)).all (fun p => (jobGot j p slot).isSome || j.erased.contains (p, slot))

/-- R393: where the frame of a slot lies in the workspace. -/
def slotOff (e : Ent) (w : RbWalk) (slot : Nat) : Nat := (maskSlots w.planes).idxOf slot * frameLen e.rbProf

/-- R393: the plain bytes of a lost slot: zeros, and a DCRC that no read without RAW_META takes for theirs. -/
def lostSlot (now : Nat) : List Byte :=
  List.replicate 4120 0 ++ leBytes 4 (0xFFFFFFFF - crc32c (List.replicate 4096 0)) ++ leBytes 4 now

/-- R389, R393: a slot of a REBUILD is lost. -/
def walkLost (eid : Nat) (e : Ent) (w : RbWalk) (slot : Nat) (m : Mx) : Mx :=
  let m := setWalk { m with st := { m.st with lost := satInc m.st.lost 0xFFFF } } eid { w with gone := w.gone ||| 2 ^ slot }
  raise (log m .stLost w.row (eDie e) slot) 285

/-- R393: REPLACE of one slot, whose plain bytes `p` have been solved, or which is lost; one whose DCRC does not match is lost
(R389, log entry 135). PTIME is stamped anew. -/
def walkReplace (eid : Nat) (e : Ent) (w : RbWalk) (slot : Nat) (p : Option (List Byte)) (m : Mx) : Mx :=
  let now := m.md.time / 1000000000
  let good := match p with
    | some l => eRawMeta e || (crc32c (l.take 4096) == leAt l 4120 4)
    | none => false
  if good then
    let m := resvWrite m (.entry eid) (slotOff e w slot) (patch (p.getD []) 4124 (leBytes 4 now))
    setWalk { setEnt m eid { e with rebuilt := true } with st := { m.st with recon := satInc m.st.recon 0xFFFF } } eid w
  else walkLost eid e w slot (resvWrite m (.entry eid) (slotOff e w slot) (lostSlot now))

/-- R393: P and Q recomputed from the data members of a slot equal the parity members read. -/
def parityHolds (j : Job) (slot : Nat) : Bool :=
  let get (p : Nat) : List Byte := (jobGot j p slot).getD []
  let zero := List.replicate 4128 (0 : Byte)
  (get 62 == j.parts.foldl (fun a p => xorBytes a (get p)) zero) &&
  (j.npar != 2 || get 63 == j.parts.foldl (fun a p => xorBytes a (gfScale (gfPow p) (get p))) zero)

/-- R393: one slot of a REBUILD, once no member of it is still to come. -/
def walkSlot (eid : Nat) (e : Ent) (j : Job) (slot : Nat) (m : Mx) : Mx :=
  let n := (j.erased.filter (fun x => x.2 == slot)).length
  let w := walkOf m eid
  if rbCheck e then
    let w := { w with neras := max w.neras n }
    if j.npar < n then walkLost eid e w slot m
    else setWalk m eid (if n = 0 ∧ parityHolds j slot = false then { w with second := w.second ||| 2 ^ slot } else w)
  else
    let w := { w with neras := max w.neras (n + 1), second := if n = 0 then w.second else w.second ||| 2 ^ slot }
    walkReplace eid e w slot (if j.npar < n + 1 then none else solve m j slot) m

/-- R393: the page-set that REPLACE programs on DDIE, at the same row and planes, its metadata as it lies in the workspace. -/
def walkProgram (eid : Nat) (e : Ent) (w : RbWalk) (m : Mx) : Mx :=
  let d := rbDdie e
  let n := 4 * planeCount w.planes
  let x : Ent := { raw := mkRaw 2 16 d w.planes w.row 0 n e.rbProf 0, serves := eid, arr := true }
  encodeAll (rbEid eid) x n (dieGrp d) (setWalk m eid { w with at_ := .program })

/-- The last slot of a page-set is settled: REPLACE programs it, CHECK writes its record. -/
def walkSolved (eid : Nat) (m : Mx) : Mx :=
  match ent m eid with
  | none => m
  | some e =>
    let w := walkOf m eid
    if rbCheck e then walkRecord eid e { w with outcome := if w.gone ≠ 0 then 3 else if w.second ≠ 0 then 2 else 1 } m
    else walkProgram eid e w m

/-- R393–R395: the destination program has ended with a STATUS and DETAIL; a shutdown that waited for it ends the entry
(03_queues.md R122). -/
def rbProgrammed (eid : Nat) (s : Nat × Nat) (m : Mx) : Mx :=
  match ent (dropEnt m (rbEid eid)) eid with
  | none => dropEnt m (rbEid eid)
  | some e =>
    let m := dropEnt m (rbEid eid)
    let w := walkOf m eid
    match e.cut with
    | some d => finishCut eid e 0x0200 d true m
    | none =>
      if s.1 = 0 then walkRecord eid e { w with outcome := if w.gone = 0 then 0 else 3 } m
      else walkRecord eid e { w with outcome := 9, fin := some s } m

/-- SLOT_SOLVE's work on one slot of an entry (R389, R393). -/
def solveSlot (eid slot : Nat) (m : Mx) : Mx :=
  match job m eid, ent m eid with
  | some j, some e =>
    match j.slots.find? (fun x => x.1 == slot) with
    | none => m
    | some (_, cw) =>
      if eOpc e = 0x12 then
        (if !slotReady j slot then m
         else
           let m := slotEnds eid slot (walkSlot eid e j slot m)
           if (job m eid).isNone then walkSolved eid m else m)
      else if j.npar < erasures j slot then slotEnds eid slot (slotLost eid e slot cw m)
      else
        match solve m j slot with
        | some plain => slotEnds eid slot (slotSolved eid e cw plain m)
        | none => m
  | _, _ => m

/-! ## The journal (R398–R402) -/

def jen (m : Mx) : Bool := bit (stReg m 0) 31
def jper (m : Mx) : Nat := fld (stReg m 0) 15 0

/-- Journal die `j`. -/
def jdieOf (m : Mx) (j : Nat) : Nat :=
  if j % 2 = 0 then fld (stReg m (0x24 + 4 * (j / 2))) 10 0 else fld (stReg m (0x24 + 4 * (j / 2))) 26 16

/-- R399: the journal dies of copies A and B of a stripe's record. -/
def copyDies (m : Mx) (s : Nat) (t : List Nat) : List Nat :=
  let o := (List.range 8).map (fun i => (s + i) % 8)
  let out := o.filter (fun j => (posOf t (jdieOf m j)).isNone)
  (out ++ o.filter (fun j => (posOf t (jdieOf m j)).isSome)).take 2

/-- Journal dies that hold a copy of this half. -/
def jDies (m : Mx) (b : Bool) : List Nat :=
  m.st.plates.foldl (fun l x =>
    match (copyDies m x.1 x.2.table)[if b then 1 else 0]? with
    | some j => insN l j
    | none => l) []

/-- R396: the record of a stripe. -/
def plateBytes (s : Nat) (x : Stripe) : List Byte :=
  let b := leBytes 1 s ++ leBytes 1 x.state ++ leBytes 1 x.ndata ++ leBytes 1 x.npar ++ leBytes 1 x.profile ++
    leBytes 1 (bitAt x.pfail 0 + bitAt x.restored 1) ++ leBytes 2 0 ++ leBytes 4 x.row ++ leBytes 4 0 ++ leBytes 8 x.topen ++
    leBytes 8 x.passed.toNat ++ leBytes 8 x.launched.toNat ++ leBytes 8 x.done.toNat ++ leBytes 8 x.failed.toNat ++
    leBytes 8 x.torn.toNat ++ ((List.range 64).map (fun i => leBytes 2 (memberAt x.table i))).flatten ++ List.replicate 60 0
  b ++ leBytes 4 (crc32c b)

/-- R400: the page-set of journal die `j` in a half of a checkpoint: the header, then the die's Plate records. -/
def ckptImage (m : Mx) (k : Ckpt) (j : Nat) : List Byte :=
  let recs := k.plates.filter (fun x => (copyDies m x.1 x.2.table)[if k.copyB then 1 else 0]? == some j)
  let map := k.plates.foldl (fun a x => a ||| 2 ^ x.1) 0
  let h := leBytes 4 0x54414C50 ++ leBytes 2 1 ++ leBytes 1 j ++ leBytes 1 (bitAt k.copyB 0 + bitAt k.final 1) ++
    leBytes 8 k.seq ++ leBytes 8 k.at_ ++ leBytes 2 recs.length ++ List.replicate 6 0 ++ leBytes 16 map ++ List.replicate 204 0
  h ++ leBytes 4 (crc32c h) ++ recs.flatMap (fun x => plateBytes x.1 x.2)

/-- R398, R401: row of the block that a journal die uses. -/
def jRow (m : Mx) (j : Nat) : Nat := (stReg m (if tabGet false m.st.jdblk j then 0x20 else 0x1C)).toNat

/-- R401: a journal die's copy begins; a block whose erase is still owed is erased first. -/
def jStart (j : Nat) (m : Mx) : Mx :=
  match m.st.ckpt with
  | none => m
  | some k =>
    let lead : List (Nat × SysOp) := if m.st.jerase.contains j ∧ (sysW m (16 + j)).isNone then [(jRow m j, .erase)] else []
    sysStart j (jdieOf m j) (lead ++ [(jRow m j + tabGet 0 m.st.jpage j, .bytes (ckptImage m k j))]) m

/-- R403: a die stays busy with an erase that it does not suspend. -/
def eraseRuns (m : Mx) (d : Nat) : Bool := ((die m d).busy.any (fun b => b.op == .erase)) && !(die m d).offers.2

/-- R403: a journal die that skips its FINAL copy: it stays busy with an erase, or the erase of the journal's own block is
unfinished there (log entry 151). -/
def skipsFinal (m : Mx) (j : Nat) : Bool := eraseRuns m (jdieOf m j) || (sysW m (16 + j)).isSome

/-- R401, R403: the copies of one half of a checkpoint begin on their journal dies, those that skip a FINAL one apart. -/
def ckptHalf (k : Ckpt) (l : List Nat) (m : Mx) : Mx :=
  let go := l.filter (fun j => !(k.final && skipsFinal m j))
  each go jStart { m with st := { m.st with ckpt := some { k with todo := go, skipped := k.skipped || decide (go.length < l.length) } } }

/-- R401, R402: once no copy of the half is to come, copies B follow where every copy A has passed, and then the checkpoint has
ended; its SEQ counts where every copy passed. -/
def ckptTurn (m : Mx) : Mx :=
  let m := match m.st.ckpt with
    | some k => if k.todo.isEmpty && !k.failed && !k.copyB then ckptHalf { k with copyB := true, todoB := [] } k.todoB m else m
    | none => m
  match m.st.ckpt with
  | some k =>
    if !k.todo.isEmpty then m
    else if k.failed || k.skipped then { m with st := { m.st with ckpt := none } }
    else { m with st := { m.st with ckpt := none, jseq := k.seq, jfail := false } }
  | none => m

/-- R401: a checkpoint starts, FINAL or not: it takes the records as they stand, and its copies A begin. -/
def startCkpt (final : Bool) (m : Mx) : Mx :=
  if !jen m || (m.st.ckpt.isSome && !final) then m
  else
    let q := m.st.jnext + 1
    let m := { m with st := { m.st with jnext := q, changed := false, ckptAt := m.md.time } }
    ckptTurn (ckptHalf { seq := q, final := final, todo := [], todoB := jDies m true, at_ := m.md.time, plates := m.st.plates }
      (jDies m false) m)

/-- R401: a journal die has used one page-set, its program passed or not; with fewer than 2 left, it goes on in its other
block, whose erase is owed from then on. -/
def jAppend (j : Nat) (m : Mx) : Mx :=
  let n := tabGet 0 m.st.jpage j + 1
  let b := tabGet false m.st.jdblk j
  if ppb m (jdieOf m j) < n + 2 then
    { m with st := { m.st with jpage := tabSet m.st.jpage j 0, jdblk := tabSet m.st.jdblk j (!b), jblk := !b,
                               jerase := insN m.st.jerase j } }
  else { m with st := { m.st with jpage := tabSet m.st.jpage j n, jblk := b } }

/-- R401: the erase that a journal die owes begins, where the die's next copy does not make it. -/
def jErase (j : Nat) (m : Mx) : Mx :=
  if m.st.jerase.contains j && !(sysW m j).any (fun w => w.ops.any (fun o => o.2 == .erase)) then sysStart (16 + j) (jdieOf m j) [(jRow m j, .erase)] m else m

/-- R402: a journal copy has failed. -/
def jFailed (j : Nat) (m : Mx) : Mx :=
  raise (log { m with st := { m.st with jfail := true } } .jrnlFailed (jdieOf m j)) 286

/-- R401, R402: a journal die's copy has ended. -/
def ckptCopy (j : Nat) (ok : Bool) (m : Mx) : Mx :=
  match m.st.ckpt with
  | none => m
  | some k =>
    if !k.todo.contains j then m
    else
      let m := jAppend j m
      let m := if ok then m else jFailed j m
      ckptTurn { m with st := { m.st with ckpt := some { k with todo := delN k.todo j, failed := k.failed || !ok } } }

/-- R401, R402: a journal die's copy has been status-read, or its erase has failed. -/
def copyEnded (j : Nat) (m : Mx) : Mx :=
  match sysW m j, (sysW m j).bind (·.ended) with
  | some w, some s =>
    let m := dropSys m j
    let m := if w.ops.all (fun o => o.2 != .erase) then { m with st := { m.st with jerase := delN m.st.jerase j } } else m
    jErase j (ckptCopy j (s.1 == 0) m)
  | _, _ => m

/-- R401, R402: the erase that a journal die owed has ended. -/
def eraseEnded (k : Nat) (m : Mx) : Mx :=
  match (sysW m k).bind (·.ended) with
  | some s =>
    let m := dropSys m k
    if s.1 = 0 then { m with st := { m.st with jerase := delN m.st.jerase (k - 16) } } else jFailed (k - 16) m
  | none => m

/-- R194: a program or erase of the complex's own has ended with a STATUS and DETAIL. -/
def writeEnded (eid : Nat) (s : Nat × Nat) (m : Mx) : Mx :=
  if 2 ^ 33 ≤ eid then rbProgrammed (eid - 2 ^ 33) s m
  else
    let k := eid - 2 ^ 32
    let m := sysEnded k s m
    if 16 ≤ k then eraseEnded k m else if k = 9 then saveTurn m else if k = 10 then ephTurn m else if k = 11 then cfgTurn m else m

/-- A checkpoint in progress is given up; the page-sets it had begun are not used again. -/
def dropCkpt (m : Mx) : Mx :=
  match m.st.ckpt with
  | some k => each k.todo (fun j m => dropSys (jAppend j m) j) { m with st := { m.st with ckpt := none } }
  | none => m

/-- R402: PFAIL_N has fallen: the copies of a checkpoint in progress are abandoned, which counts as their failure. -/
def abandonCkpt (m : Mx) : Mx := each ((m.st.ckpt.map (·.todo)).getD []) jFailed (dropCkpt m)

/-- R401, R403: the FINAL checkpoint of a power-fail sequence begins, once. -/
def finalCkpt (m : Mx) : Mx := startCkpt true { m with st := { m.st with ckpt := none, finalAsked := true } }

/-- R403: the Plate records are settled with RFLAGS.PFAIL set. -/
def settlePlates (m : Mx) : Mx :=
  { m with st := { m.st with
      stripes := m.st.stripes.map (fun x => if x.2.state = 1 ∨ x.2.state = 2 then (x.1, { x.2 with pfail := true }) else x),
      plates := m.st.plates.map (fun x => (x.1, { x.2 with pfail := true })) } }

/-! ## Replay (R404–R406) -/

/-- R396: a Plate record's stripe, where its check is right. -/
def plateOf (l : List Byte) : Option (Nat × Stripe) :=
  if leAt l 0xFC 4 ≠ crc32c (slice l 0 0xFC) then none
  else some (leAt l 0 1, { state := leAt l 1 1, ndata := leAt l 2 1, npar := leAt l 3 1, profile := leAt l 4 1,
                           row := leAt l 8 4, topen := leAt l 0x10 8, table := tableOf (slice l 0x40 128),
                           planes := mPlanes (memberAt (tableOf (slice l 0x40 128)) 62),
                           passed := BitVec.ofNat 64 (leAt l 0x18 8), launched := BitVec.ofNat 64 (leAt l 0x20 8),
                           done := BitVec.ofNat 64 (leAt l 0x28 8), failed := BitVec.ofNat 64 (leAt l 0x30 8),
                           torn := BitVec.ofNat 64 (leAt l 0x38 8) })

/-- R400: a checkpoint page-set whose header is right: its SEQ, OPENMAP and records. -/
def ckptPage (l : List Byte) : Option (Nat × Nat × List (Nat × Stripe)) :=
  if leAt l 0 4 ≠ 0x54414C50 ∨ leAt l 4 2 ≠ 1 ∨ leAt l 0xFC 4 ≠ crc32c (slice l 0 0xFC) then none
  else some (leAt l 8 8, leAt l 0x20 16, (List.range (leAt l 0x18 2)).filterMap (fun n => plateOf (slice l (0x100 + 256 * n) 256)))

/-- R404: the records to restore and the source of each (2 journal, 3 with every position probed), the stripes named
and not found, and the newest SEQ. -/
def fromJournal (pages : List (List Byte)) : List (Nat × Stripe × Nat) × List Nat × Nat :=
  let ps := pages.filterMap ckptPage
  let top := ps.foldl (fun a x => max a x.1) 0
  let open_ := ((ps.find? (fun x => x.1 == top)).map (fun x => x.2.1)).getD 0
  let find (seq : Option Nat) (s : Nat) : Option Stripe :=
    (ps.filterMap (fun x => if seq.isNone || seq == some x.1 then (x.2.2.find? (fun y => y.1 == s)).map (fun y => (x.1, y.2))
                            else none)
      |>.foldl (fun (b : Option (Nat × Stripe)) y => match b with
        | none => some y
        | some z => if z.1 < y.1 then some y else some z) none).map (·.2)
  let ss := (List.range 128).filter (fun s => open_.testBit s)
  (ss.filterMap (fun s => match find (some top) s with
      | some x => some (s, x, 2)
      | none => (find none s).map (fun x => (s, { x with launched := 0, done := 0, failed := 0 }, 3))),
   ss.filter (fun s => (find none s).isNone), top)

/-- R401, R404: every copy of a checkpoint is on the journal dies: of each stripe it names, a record in a page-set of copy A and one
in a page-set of copy B. -/
def allCopies (pages : List (List Byte)) (seq : Nat) : Bool :=
  let ps := pages.filterMap (fun l => (ckptPage l).bind (fun x => if x.1 = seq then some ((leAt l 7 1).testBit 0, x.2) else none))
  let open_ := ((ps.head?).map (fun x => x.2.1)).getD 0
  ((List.range 128).filter (fun s => open_.testBit s)).all (fun s =>
    [false, true].all (fun b => ps.any (fun x => x.1 == b && x.2.2.any (fun r => r.1 == s))))

/-- R409: SEQ of the newest checkpoint whose every copy is found, 0 where there is none (log entry 150). -/
def wholeSeq (pages : List (List Byte)) : Nat :=
  ((pages.filterMap ckptPage).map (·.1)).foldl (fun a q => if a < q ∧ allCopies pages q = true then q else a) 0

/-- R405: the senses of a read or probe, with elapsed dose 0, and the statistics of its codewords (01_architecture.md R32;
09_seeing.md R343, R354). -/
def probeSensed (x : Stripe) (pos : Nat) (p : Probe) (m : Mx) : Mx :=
  let d := mDie (memberAt x.table pos)
  let m := each (List.range p.senses) (fun _ m => senseCount d x.row (planeCount x.planes) false m) m
  { m with sg := { m.sg with recs := m.sg.recs ++ p.recs.map (fun r => { r with die := d, bg := bgOf m d x.row, bin := 0 }) } }

/-- R405: what a read or probe decides. -/
def applyProbe (s : Nat) (probes : List Probe) (pos : Nat) (m : Mx) : Mx :=
  let r : Option Probe := probes.find? (fun p => p.stripe == s && p.pos == pos)
  let m := match r with
    | some p => probeSensed (stripe m s) pos p m
    | none => m
  let x := stripe m s
  match r.map Probe.res with
  | some (.whole sl) =>
    let m := setStripe m s { x with passed := setBit x.passed pos, done := setBit x.done pos }
    each sl (fun y m => foldSlot s pos y.1 (slice y.2 0 4128) m) m
  | some .erased => m
  | _ => setStripe m s { x with torn := setBit x.torn pos }

/-- R404–R406: restore one stripe. -/
def restoreStripe (probes : List Probe) (r : Nat × Stripe × Nat) (m : Mx) : Mx :=
  let x := r.2.1
  let par (b : BitVec 64) : BitVec 64 := b &&& BitVec.ofNat 64 (2 ^ 62 + 2 ^ 63)
  let m := setStripe (freeStripe r.1 m) r.1
    { x with state := 1, restored := true, passed := 0, bound := [], torn := 0, launched := par x.launched,
             done := par x.done, failed := par x.failed, pfail := false }
  let m := each (dataPos x) (fun p m => applyProbe r.1 probes p m) m
  let t := (stripe m r.1).torn.toNat
  log m .replayed (r.1 + 256 * r.2.2) (t % 2 ^ 32) (t / 2 ^ 32)

/-- R404–R406: replay from the island where it holds the records, else from the journal. -/
def replay (island : Bool) (pages : List (List Byte)) (probes : List Probe) (m : Mx) : Mx :=
  let j := fromJournal pages
  let useJ := !island && jen m
  let src := if island then m.st.plates.map (fun x => (x.1, x.2, 1)) else if useJ then j.1 else []
  let m := { m with st := { m.st with stripes := m.st.stripes.filter (fun x => x.2.state == 3), plates := [] } }
  let m := if useJ then { m with st := { m.st with jseq := wholeSeq pages, jnext := j.2.2 } } else m
  let m := each src (restoreStripe probes) m
  let m := if useJ then each j.2.1 (fun s m => log m .notRestored s) m else m
  let m := { m with st := { m.st with src := src.foldl (fun a x => max a x.2.2) 0, replay := false } }
  raise m 287

/-! ## Registers (R408–R410) -/

/-- Reads of the stripe engine, by offset. -/
def stRead (m : Mx) (k : Nat) : Word :=
  if k < 0x1000 then
    (if k = 8 then word (bitAt m.st.replay 31 + 2 ^ 29 * m.st.src + bitAt m.st.jfail 28 + bitAt m.st.jblk 27 +
        (m.st.stripes.filter (fun x => x.2.state == 1 || x.2.state == 2)).length)
     else if k = 0xC then m.st.openerr
     else if k = 0x34 then word m.st.jseq
     else if k = 0x38 then word (m.st.jseq / 2 ^ 32)
     else if k = 0x3C then word (65536 * m.st.recon + m.st.lost)
     else if k = 0 ∨ (0x10 ≤ k ∧ k ≤ 0x30) then stReg m k
     else 0)
  else if k < 0x3000 then
    let x := stripe m ((k - 0x1000) / 0x40)
    let f := k % 0x40
    let half (b : BitVec 64) : Word := word (if f % 8 = 0 then b.toNat else b.toNat / 2 ^ 32)
    if f = 0 then word (2 ^ 29 * x.state + bitAt x.restored 28 + 2 ^ 16 * x.ndata + 2 ^ 14 * x.npar + 2 ^ 8 * x.planes + x.profile)
    else if f = 4 then word x.row
    else if f = 8 ∨ f = 0xC then half x.passed
    else if f = 0x10 ∨ f = 0x14 then half x.launched
    else if f = 0x18 ∨ f = 0x1C then half x.done
    else if f = 0x20 ∨ f = 0x24 then half x.failed
    else if f = 0x28 ∨ f = 0x2C then half x.torn
    else 0
  else 0

/-- R410: the eight journal dies lie in eight distinct groups. -/
def jDistinct (m : Mx) : Bool := decide (((List.range 8).map (fun j => dieGrp (jdieOf m j))).Nodup)

/-- Writes of the stripe engine, by offset. -/
def stWrite (k : Nat) (v : Word) (m : Mx) : Mx :=
  if k = 0 then checkedWrite (!(bit v 31 && !jDistinct m)) (stOff k) 0xFFFF 0x80000000 v m
  else if k = 4 then onlyIf (bit v 0) (startCkpt false) m
  else if k = 0xC then { m with st := { m.st with openerr := if bit v 31 then m.st.openerr &&& 0x7FFFFFFF else m.st.openerr } }
  else if k = 0x10 then setReg m (stOff k) (v &&& 0xFFFFF000)
  else if k = 0x14 then setReg m (stOff k) v
  else if k = 0x18 then checkedWrite (decide (fld v 20 16 ≤ 16)) (stOff k) 0x801F1F00 0 v m
  else if k = 0x1C ∨ k = 0x20 then maskedWrite (stOff k) 0 0xFFFFFFFF v m
  else if 0x24 ≤ k ∧ k ≤ 0x30 then maskedWrite (stOff k) 0 0x07FF07FF v m
  else m

/-! ## Meanings -/

/-- MEMBER_PASS (R376, R37): a bound member whose codewords all lie in its reservation. -/
def execMemberPass (ring idx : Nat) (s : State) : Res :=
  act s (fun m => match ent m (eidOf ring idx) with
    | some e => onlyIf (e.stage == .pass) (pass (eidOf ring idx) e) m
    | none => m)

/-- REBUILD_WALK_STEP (R393–R395). -/
def execRebuildWalkStep (ring idx : Nat) (_env : Told) (s : State) : Res := act s (walkStep (eidOf ring idx))

/-- CHECKPOINT_PERIOD (R401). -/
def execCheckpointPeriod (s : State) : Res :=
  act s (fun m => onlyIf (m.st.changed && (jper m != 0) && decide (m.st.ckptAt + 1000000 * jper m ≤ m.md.time)) (startCkpt false) m)

/-- CHKPT (R401). -/
def execChkpt (s : State) : Res := act s (access (stOff 4) true (startCkpt false))

/-- CHECKPOINT_COPY_DONE (R401, R402). -/
def execCheckpointCopyDone (jdie : Nat) (_ok : Told) (s : State) : Res := act s (onlyIf (decide (jdie < 8)) (copyEnded jdie))

end Sys2Proof.Machine
end

