-- ==== Sys2Proof/Machine/Ladder.lean ====
section
/-! DEFINITION. The retry ladder (09_seeing.md R348–R353) and what follows a read whose codewords are settled: delivery,
the statistics of a SCAN, the second half of a COPY, the end of a member read. -/

namespace Sys2Proof.Machine

/-! ## Where the data of settled codewords goes (R34, R136, R162, R166) -/

/-- Offset of a SCAN's statistics records in its reservation (04_commands.md R190). -/
def statOff (e : Ent) : Nat := extraBase e + 2 * bitAt (eSoft e) 0 * frameLen (eSrcProf e)

/-- The statistics records of a SCAN, in the order of its codewords. -/
def scanRecords (m : Mx) (e : Ent) : List Byte :=
  ((List.range e.cws.length).map (fun i => match e.stats.find? (fun x => x.1 == i) with
    | some x => x.2
    | none => statBytes e i (stepOf e i) (pageLevels m (eDie e) (eRow e)) { result := 4, mode := 0xFF })).flatten

/-- R162: the source of a COPY is recovered: the frames take the destination's layout, and the program follows. -/
def copyOnward (eid : Nat) (e : Ent) (m : Mx) : Mx :=
  let e := { summarise e (fun i => (cwAt e i).delivered) with status := (outcome e.cws).1 }
  if frameLen (eSrcProf e) = frameLen (eDstProf e) then readyToPass eid { e with dst := true } (setEnt m eid { e with dst := true })
  else queueXfer (entryXfer m eid e (.copyMove eid) false []) (setEnt m eid { e with stage := .xferMid })

/-- R31: the delivered codewords of a READ go to host memory. -/
def sendOut (eid : Nat) (e : Ent) (parts : List Part) (m : Mx) : Mx :=
  queueXfer (entryXfer m eid e (.entryOut eid) true parts) (setEnt m eid { e with stage := .xferOut })

/-- R136, R35: every codeword of an entry is settled: what can be delivered goes out, or the entry's outcome is final. -/
def deliverOut (eid : Nat) (e : Ent) (m : Mx) : Mx :=
  if eOpc e = 4 then
    (if e.cws.all CwOut.delivered then copyOnward eid e m else finishRead eid e m)
  else if eOpc e = 0x20 then
    (if eLen e = 0 then finishScan eid e m
     else sendOut eid e [{ side := dataSide e, runs := lenRuns e (statOff e) }]
            (resvWrite m (.entry eid) (statOff e) (scanRecords m e)))
  else if e.cws.any CwOut.delivered then sendOut eid e (pageParts e (fun i => (cwAt e i).delivered)) m
  else finishRead eid e m

/-- The same, where a die failed the sense: with no stripe to reconstruct from, no codeword has been decoded (R563) and the
entry takes the die's own outcome. -/
def deliverAny (eid : Nat) (e : Ent) (m : Mx) : Mx :=
  match e.dieOut with
  | some (st, dt) =>
    if eOpc e ≠ 0x20 ∧ e.cws.all (fun o => o == .failDecode) then finishCut eid (withCws { e with steps := [] }) st dt e.admitted m
    else deliverOut eid e m
  | none => deliverOut eid e m

/-- A read's codewords are settled: an entry's, a member read's, or a read-ahead's. -/
def settled (eid : Nat) (e : Ent) (m : Mx) : Mx :=
  if isHostEid eid then deliverAny eid e m
  else if eid < 2 ^ 31 then memberDone (eid - 2 ^ 30) m
  else dropAhead (eid - 2 ^ 31) m

/-! ## Steps (R348–R351) -/

/-- Codewords of an entry that are not settled. -/
def unsettled (e : Ent) : List Nat := (List.range e.cws.length).filter (fun i => !(cwAt e i).settled)

/-- R353: whether an entry walks the ladder. -/
def walks (eid : Nat) (e : Ent) : Bool :=
  if 2 ^ 31 ≤ eid then false else if eOpc e = 0x20 then (eArg1 e).testBit 30 else true

/-- Make a re-read of codewords at a step; `soft` is 0 for a hard step, 3 for the centre, 1 or 2 for a soft mode. -/
def askReread (eid : Nat) (e : Ent) (cs : List Nat) (step soft : Nat) (offs : List Int) (m : Mx) : Mx :=
  let m := setEnt m eid { e with arr := true, stage := .decode }
  addAhead (eDie e) (.reread eid cs step soft offs) (log m .retryStep (eDie e) step)

/-- Whether a codeword has a hard step left (R348). -/
def hardLeft (m : Mx) (e : Ent) (c : Nat) : Bool := decide (stepOf e c < 14) && decide (stepOf e c < ladderSteps m (eDie e))

/-- R349: the next hard step, which every codeword still failing takes together; one whose delivery failed after the others had
gone on (R452) takes first the steps they have taken. -/
def hardStep (eid : Nat) (e : Ent) (hs : List Nat) (m : Mx) : Mx :=
  let j := hs.foldl (fun a c => min a (stepOf e c)) 13
  let ps := hs.filter (fun c => stepOf e c == j)
  let k := j + 1
  let offs := ladderOffs m (eDie e) k (e.base.getD [])
  askReread eid { e with hard := k, steps := ps.foldl (fun t c => tabSet t c k) e.steps,
                         used := ps.foldl (fun t c => tabSet t c offs) e.used } ps k 0 offs m

/-- R350: centre of a codeword's soft steps: the step and the offsets. -/
def centre (e : Ent) (c : Nat) : Nat × List Int :=
  match e.synd.find? (fun x => x.1 == c) with
  | some (_, _, k, o) => (k, o)
  | none => (if stepOf e c < 14 then stepOf e c else e.hard, usedOffs e c)

/-- R350: mode 1's own sense. -/
def softOne (eid : Nat) (e : Ent) (c : Nat) (m : Mx) : Mx :=
  let up := softUp m (eDie e) (bgOf m (eDie e) (eRow e))
  askReread eid { e with steps := tabSet e.steps c 14, softUsed := true, up := up } [c] 14 1
    (softOffs m (eDie e) (eRow e) up (usedOffs e c)) m

/-- R350: the next soft step of a codeword. -/
def softStep (eid : Nat) (e : Ent) (c : Nat) (m : Mx) : Mx :=
  let k := centre e c
  if stepOf e c = 14 then
    askReread eid { e with steps := tabSet e.steps c 15 } [c] 15 2 (softOffs m (eDie e) (eRow e) (!e.up) k.2) m
  else
    let e := { e with used := tabSet e.used c k.2 }
    if k.1 = stepOf e c then softOne eid e c m
    else askReread eid { e with steps := tabSet e.steps c 14, softUsed := true } [c] 14 3 k.2 m

/-- R328, R452: codewords are sensed again at the thresholds they had, which counts as no step: those of one hard step together,
one of a soft step by itself, from its centre on. -/
def redoTurn (eid : Nat) (e : Ent) (c : Nat) (m : Mx) : Mx :=
  if stepOf e c < 14 then
    let g := e.redo.filter (fun x => decide (stepOf e x = stepOf e c ∧ usedOffs e x = usedOffs e c))
    askReread eid { e with redo := e.redo.filter (fun x => !g.contains x) } g (stepOf e c) 0 (usedOffs e c) m
  else
    let k := centre e c
    askReread eid { e with redo := e.redo.filter (· != c), steps := tabSet e.steps c 14, used := tabSet e.used c k.2 } [c] 14 3 k.2 m

/-- R351: every step short of 16 has failed. -/
def stepSixteen (eid : Nat) (e : Ent) (ps : List Nat) (m : Mx) : Mx :=
  let m := if isHostEid eid && (eOpc e == 1 || eOpc e == 4) then reconstruct eid ps m else settleCws eid ps .failDecode m
  match ent m eid with
  | some e => if (unsettled e).isEmpty then settled eid e m else m
  | none => m

/-- R388, R199: the die of a read takes no step of it any more; a member read waits for no recovery and for no lock. -/
def stepless (m : Mx) (eid : Nat) (e : Ent) : Bool :=
  (die m (eDie e)).state == 2 || (decide (2 ^ 30 ≤ eid) && decide (eid < 2 ^ 31) && memberLost m e.serves (eDie e))

/-- R348: the next step of an entry's failing codewords, or what follows once every codeword is settled. Nothing
happens while array work, the codec or a reconstruction still has one of them. -/
def ladderTurn (eid : Nat) (m : Mx) : Mx :=
  match ent m eid with
  | none => m
  | some e =>
    if e.stage ≠ .decode ∨ e.arr ∨ e.sent ≠ 0 ∨ (job m eid).isSome then m
    else
      let ps := unsettled e
      let hs := ps.filter (hardLeft m e)
      if ps.isEmpty then settled eid e m
      else if e.dieOut.isNone ∧ stepless m eid e = false ∧ !e.redo.isEmpty then redoTurn eid e (e.redo.headD 0) m
      else if e.dieOut.isSome ∨ stepless m eid e = true ∨ walks eid e = false then stepSixteen eid e ps m
      else if !hs.isEmpty then hardStep eid e hs m
      else
        match (if eSoft e && sgDelta m != 0 then ps.find? (fun c => stepOf e c < 15) else none) with
        | some c => softStep eid e c m
        | none => stepSixteen eid e ps m

/-- R452: codewords that the data mover found uncorrectable in the buffer: the first time sensed again at the same
thresholds, or reconstructed again, and not counted as a step; the second time a failed step. -/
def bufferFailed (eid : Nat) (cs : List Nat) (m : Mx) : Mx :=
  match ent m eid with
  | none => m
  | some e =>
    let n (c : Nat) : Nat := tabGet 0 e.uerr c
    let again := cs.filter (fun c => n c = 0 ∧ stepOf e c < 16)
    ladderTurn eid (setEnt m eid { cs.foldl (fun e c => setCw e c (if n c ≠ 0 ∧ 16 ≤ stepOf e c then .failRebuild else .pending)) e with
      stage := .decode, uerr := cs.foldl (fun t c => tabSet t c (n c + 1)) e.uerr,
      redo := e.redo.filter (fun c => !cs.contains c) ++ again, marg := e.marg.filter (fun x => !cs.contains x.1) })

/-! ## Meanings -/

/-- HARD_DECODE (R314, R319): a lane takes a frame; one judged erased is settled at once. -/
def execHardDecode (grp : Nat) (s : State) : Res :=
  act s (onlyIf (decide (grp < 32)) (fun m =>
    let r := takeHard grp m
    match r.1 with
    | some e => ladderTurn e r.2
    | none => r.2))

/-- R328: a frame was lost while its decoded bytes were written back: its page is sensed again at the same thresholds, which
counts as no step. -/
def senseAgain (c : CwRef) (m : Mx) : Mx :=
  match ent m c.eid with
  | none => m
  | some e =>
    ladderTurn c.eid (setEnt m c.eid { e with sent := e.sent - 1, redo := e.redo ++ [c.cw] })

/-- R315, R325: a decode lane ends: with its result, or its checker refuses a frame reported as good, or a memory of its cluster
fails. -/
def laneEnds (g : Nat) (soft : Bool) (l : LaneEnd) (m : Mx) : Mx :=
  let held := laneRef (codec m g) soft l.lane
  let good := match held with
    | some c => (ent m c.eid).any (fun e => decide ((laneResult e soft c).result ≤ 1))
    | none => false
  match l.flt with
  | .memory b => laneBroken g (bitAt soft 0) l.lane b held
      (fun m => let k := codec m g
        setCodec m g (if soft then { k with sl := tabSet k.sl l.lane none } else { k with hl := tabSet k.hl l.lane none }))
      senseAgain m
  | f =>
    if f = .check ∧ good = true then clusterFault g 1 (bitAt soft 0) l.lane m
    else
      let r := endDecode g soft l.lane m
      match r.1 with
      | some e => ladderTurn e r.2
      | none => r.2

/-- DECODE_RESULT (R315–R317, R321). -/
def execDecodeResult (grp : Nat) (soft : Bool) (lane : LaneEnd) (s : State) : Res :=
  act s (onlyIf (decide (grp < 32)) (laneEnds grp soft lane))

/-- SLOT_SOLVE (R389). -/
def execSlotSolve (ring idx slot : Nat) (s : State) : Res :=
  act s (fun m => ladderTurn (eidOf ring idx) (solveSlot (eidOf ring idx) slot m))

end Sys2Proof.Machine
end

