-- ==== Sys2Proof/Machine/Channel.lean ====
section
/-! DEFINITION. The channel engines (05_channel_engine.md R194–R232): placing and starting work items, what the end of
each means, die states, suspension, locks and the channel function reset. -/

namespace Sys2Proof.Machine

/-! ## Starting work items (R196, R199, R214; 06_microcode.md R235, R257, R262) -/

/-- Entry kind of an opcode (R257). -/
def opcKind (e : Ent) : Nat :=
  match eOpc e with
  | 0x01 => 2 | 0x20 => 2
  | 0x04 => if e.dst then 4 else 2
  | 0x05 => 3 | 0x02 => 4 | 0x06 => 4 | 0x11 => 4 | 0x03 => 5 | 0x08 => 6 | 0x09 => 7 | 0x0A => 8 | 0x0B => 9
  | _ => 31

/-- Start address of an exported routine. -/
def exportAddr (m : Mx) (g n : Nat) : Option Nat :=
  match imgOf m g with
  | some i => (i.exports.find? (fun x => x.1 == n)).map (·.2)
  | none => none

/-- A feature address reserved to microcode (R171). -/
def featReserved (m : Mx) (g a : Nat) : Bool :=
  match imgOf m g with
  | some i => i.feats.getLsbD (a % 256)
  | none => false

/-- R262: a CALL or FEATURE_SET that the loaded image does not allow. -/
def startRefused (m : Mx) (g : Nat) (e : Ent) : Bool :=
  (eOpc e == 0x18 && (exportAddr m g (eArg0 e % 65536)).isNone) || (eOpc e == 0x09 && featReserved m g (eArg0 e % 256))

/-- Where an item's frame starts; an orphan that runs again after a machine check reads the die's status (log entry 124). -/
def itemAddr (m : Mx) (d : Nat) (i : Item) : Nat :=
  let g := dieGrp d
  match i with
  | .entry _ =>
    (match itemEnt m d i with
     | some e => if eOpc e = 0x18 then (exportAddr m g (eArg0 e % 65536)).getD 0xFFFF else kindAddr m g (opcKind e)
     | none => 0xFFFF)
  | .group _ => kindAddr m g 2
  | .reread _ _ _ _ _ => kindAddr m g 2
  | .member _ => kindAddr m g 2
  | .write eid => (match ent m eid with | some e => kindAddr m g (opcKind e) | none => 0xFFFF)
  | .recover => kindAddr m g 10
  | .spec => kindAddr m g 11
  | .suspend => kindAddr m g 12
  | .resume => kindAddr m g 13
  | .restart _ => kindAddr m g 16
  | .orphan _ _ => kindAddr m g 6
  | .grpInit => kindAddr m g 0
  | .dieInit => kindAddr m g 1

/-- The group's channel engines may start work: its image is loaded and no stop stands (R253, R261). -/
def groupOpen (m : Mx) (g : Nat) : Bool :=
  let c := cluster m g
  !c.halted && !c.quiesce && !c.load && c.img.isSome

/-- R261, step 1: while a group quiesces, the reads of a suspension already made still run (log entry 125). -/
def mayStart (m : Mx) (d : Nat) : Bool :=
  let c := cluster m (dieGrp d)
  groupOpen m (dieGrp d) || ((die m d).held.isSome && !c.halted && !c.load && c.img.isSome)

/-- R253, R261: the channel's thread has run its GRP_INIT kind; frame 0 runs it (log entry 126). -/
def threadReady (m : Mx) (c : Nat) : Bool :=
  let x := die m (dieOf c 0)
  !x.ahead.contains .grpInit && x.cur != some .grpInit

/-- R214: one READ may be grouped with another. -/
def groups (a b : Ent) : Bool :=
  (eOpc a == 1) && (eOpc b == 1) && (planeCount (ePlanes a % 16) == 1) && (planeCount (ePlanes b % 16) == 1) &&
  (eRow a == eRow b) && (eArg0 a == eArg0 b) && (eProfile a == eProfile b) && (eArg1 a == eArg1 b) &&
  !eTimed a && !ePinned a && !eTimed b && !ePinned b

/-- R214: the READs that stand directly behind the first and group with it, each in a plane of its own. -/
def groupOf (m : Mx) (a : Ent) (used : Nat) : List Item → List Nat
  | .entry e :: t =>
    (match ent m e with
     | some b => if groups a b && (used &&& ePlanes b) == 0 then e :: groupOf m a (used ||| ePlanes b) t else []
     | none => [])
  | _ => []

/-- The queue from an item on. -/
def queueFrom (x : Die) (i : Item) : List Item := x.queue.dropWhile (fun j => j != i)

/-- An entry, grouped where R214 allows with those that stand directly behind it. -/
def withGroup (m : Mx) (d : Nat) (behind : List Item) (i : Item) : Item :=
  match i with
  | .entry e =>
    (match ent m e with
     | some a =>
       let t := groupOf m a (ePlanes a) behind
       if mpGrp m (dieCh d) && !t.isEmpty then .group (e :: t) else i
     | none => i)
  | _ => i

/-- Whether an entry of the queue may start in the die's state (R199, R200). -/
def startable (m : Mx) (x : Die) (i : Item) : Bool :=
  match i with
  | .entry e =>
    (match ent m e with
     | some a => (x.state == 0) || (x.state == 1 && onSuspect a) || (x.state == 2 && (eOpc a == 8 || eOpc a == 0xB))
     | none => false)
  | _ => true

/-- Internal items that run while an operation is suspended (R212; 10_stripes.md R387). -/
def isRead (i : Item) : Bool :=
  match i with
  | .reread _ _ _ _ _ => true
  | .member _ => true
  | _ => false

/-- A write of the complex's own, which starts on no SUSPECT die (R199). -/
def isWrite (i : Item) : Bool :=
  match i with
  | .write _ => true
  | _ => false

/-- 11_meridian_transit.md R435: a write of the Plate journal. -/
def isJournal (i : Item) : Bool :=
  match i with
  | .write eid => decide (2 ^ 32 ≤ eid) && decide (eid < 2 ^ 32 + 8)
  | _ => false

/-- Internal items of a die that its lock lets proceed (R221). -/
def aheadOf (m : Mx) (d : Nat) : List Item := (die m d).ahead.filter (lockLets m d)

/-- R196, R212: the item a context starts next. Behind a suspended operation those are the reads of its suspension, and, in the
power-fail sequence, a write of the journal (10_stripes.md R403). -/
def nextItem (m : Mx) (d : Nat) : Option Item :=
  let x := die m d
  if x.held.isSome then
    if x.state ≠ 0 then none
    else if m.gl.pf = .running then (aheadOf m d).find? isJournal
    else match (aheadOf m d).find? (fun i => isRead i && x.suspInt.contains i) with
    | some i => some i
    | none => x.suspLeft.head?.map (fun e => withGroup m d ((x.suspLeft.drop 1).map Item.entry) (.entry e))
  else
    match aheadOf m d with
    | i :: _ =>
      if (isRead i || isWrite i) && x.state == 1 then x.queue.find? (startable m x)
      else if i == .spec && !x.queue.isEmpty then none
      else some i
    | [] => if x.state = 0 then x.queue.head?.map (withGroup m d (x.queue.drop 1)) else x.queue.find? (startable m x)

/-- Entries of an item. -/
def itemEntries (i : Item) : List Nat :=
  match i with
  | .entry e => [e]
  | .group es => es
  | _ => []

/-- WORK_ITEM_START's work. -/
def startNext (d : Nat) (m : Mx) : Mx :=
  if (die m d).cur.isSome || !mayStart m d || !chEnabled m (dieCh d) then m
  else
    match nextItem m d with
    | none => m
    | some i =>
      if i ≠ .grpInit ∧ threadReady m (dieCh d) = false then m
      else if isWrite i && (die m d).state == 2 then
        writeEnded ((itemEid d i).getD 0) (0x2500, 1) (setDie m d { die m d with ahead := (die m d).ahead.erase i })
      else
      let refused := match itemEnt m d i with
        | some e => startRefused m (dieGrp d) e
        | none => false
      if refused then
        (match i with
         | .entry eid =>
           (match ent m eid with
            | some e => leavePlace d i (finish eid { e with arr := false } 0x1000 0x0230 false m)
            | none => m)
         | _ => m)
      else if itemAddr m d i = 0xFFFF then m
      else
        let x := die m d
        let m := setDie m d { x with ahead := x.ahead.erase i, suspInt := x.suspInt.erase i, suspLeft := x.suspLeft.filter (fun e => !(itemEntries i).contains e) }
        let m := if x.held.isSome then m else setDie m d { die m d with suspN := 0 }
        startItem d (itemAddr m d i) i m

/-! ## Placing entries (R152, R195, R302) -/

/-- R156, R302: the checks of an entry against its die's geometry. -/
def geomFault (m : Mx) (d : Nat) (e : Ent) : Option Nat :=
  let o := eOpc e
  if o = 5 then (if rawLen m d < eCol e + eLen e then some 0x0220 else none)
  else if o = 6 then (if rawLen m d < eLen e then some 0x0220 else none)
  else if o = 1 ∨ o = 2 ∨ o = 4 ∨ o = 0x20 then (if rawLen m d < 4 * frameLen (wProf e) then some 0x0427 else none)
  else none

/-- One entry reaches the context of a die. A SCAN that ends here with DIE_DEAD, without a sense, writes no records (DESIGN CHOICE,
log entry 162). -/
def placeOn (d eid : Nat) (e : Ent) (m : Mx) : Mx :=
  let exempt := eOpc e = 8 ∨ eOpc e = 0xB
  let x := die m d
  if x.absent ∧ exempt then finish eid e 0x2400 2 false m
  else if x.state = 2 ∧ ¬exempt then finishCut eid e 0x2500 1 e.admitted m
  else match geomFault m d e with
    | some f => finish eid e 0x1000 f false (freeResv m (.entry eid))
    | none => reachCtx d eid e m

/-- R381: the parity programs of a close reach their dies; a dead die ends its member. -/
def placeParity (eid : Nat) (m : Mx) : Mx :=
  match ent m eid with
  | none => m
  | some e =>
    each e.bind (fun b m =>
      match ent m eid with
      | none => m
      | some e =>
        if (die m b.2).state = 2 then parityEnded eid e b.2 0x2500 1 m
        else if rawLen m b.2 < 4 * frameLen (stripe m (eStripe e)).profile then
          finish eid { e with arr := false } 0x1000 0x0427 false (freeResv m (.entry eid))
        else reachCtx b.2 eid e m) (setEnt m eid { e with arr := true })

/-- ENTRY_PLACE's work. -/
def placeEntry (eid : Nat) (m : Mx) : Mx :=
  match ent m eid with
  | none => m
  | some e =>
    if e.stage ≠ .toPlace then m
    else if eOpc e = 0x11 then placeParity eid m
    else placeOn (wDie e) eid e m

/-! ## The end of a work item (R196, R245) -/

/-- STATUS and DETAIL of an exit. -/
def exitStatus (xc bimm : Nat) (st : Byte) : Nat × Nat :=
  if xc = 0x22 then (0x2200, st.toNat) else if xc = 0x23 then (0x2300, st.toNat)
  else if xc = 0x24 then (0x2400, bimm) else (0, 0)

/-- 10_stripes.md R386: a die failed the sense of a read that a stripe may cover. -/
def mayRebuild (m : Mx) (e : Ent) : Bool :=
  (eOpc e == 1 || (eOpc e == 4 && !e.dst)) && ((openHolding m (eDie e) (eRow e)).isSome || mapOn m)

/-- A read's sense has ended: frames that never came are not read (08_codec.md R321), and the ladder judges the rest. -/
def senseEnded (eid : Nat) (e : Ent) (m : Mx) : Mx :=
  let gone := (unsettled e).filter (fun c => !e.seen.contains c)
  ladderTurn eid (settleCws eid gone .failDecode (setEnt m eid { e with arr := false, stage := .decode }))

/-- A die has failed a read's sense: each codeword fails step 0 and goes to step 16 (R386, R199). -/
def senseFailed (eid : Nat) (e : Ent) (st dt : Nat) (m : Mx) : Mx :=
  ladderTurn eid (setEnt m eid { e with arr := false, stage := .decode, dieOut := some (st, dt) })

/-- 08_codec.md R321: a die has failed a SCAN's sense: its records still go to host memory, and then the entry ends. -/
def scanFailed (eid : Nat) (e : Ent) (st dt : Nat) (m : Mx) : Mx :=
  deliverOut eid { e with arr := false, dieOut := some (st, dt) }
    (setEnt m eid { e with arr := false, dieOut := some (st, dt) })

/-- The result bytes of a STATUS, FEATURE_GET or CALL go to host memory. -/
def sendResult (eid : Nat) (e : Ent) (bs : List Byte) (m : Mx) : Mx :=
  let m := if bs.isEmpty then m else resvWrite m (.entry eid) 0 bs
  sendOut eid e [{ side := .flat (eDptr e), runs := lenRuns e 0 }] m

/-- 07_phy_calibration.md R277: a die of a Fervon group, reset to SDR timing mode 0, shows ready. -/
def fervonReset (d : Nat) (m : Mx) : Mx :=
  let p := phy m (dieGrp d)
  if p.mode ≠ 4 then m
  else holdGroup (dieGrp d) (setPhy m (dieGrp d) { p with resetDies := insN p.resetDies d })

/-- R122: the array work of an entry that a shutdown has cut has ended on a die; a close ends with its last program. -/
def cutEnded (d eid : Nat) (e : Ent) (detail xc : Nat) (m : Mx) : Mx :=
  let m := if eOpc e = 2 ∨ eOpc e = 0x11 ∨ (eOpc e = 4 ∧ e.dst) then memberEnded e d (xc == 0) m else m
  let m := if eOpc e = 0xB ∧ eArg0 e = 0 ∧ xc ≠ 0x24 then fervonReset d m else m
  let b := e.bind.filter (fun b => b.2 != d)
  if eOpc e = 0x11 ∧ !b.isEmpty then setEnt m eid { e with bind := b, arr := true }
  else finishCut eid { e with bind := b } 0x0200 detail true (dropFrames eid m)

/-- The array part of an entry has ended with an exit code. -/
def entryEnded (d eid xc bimm : Nat) (f : Frame) (m : Mx) : Mx :=
  match ent m eid with
  | none => m
  | some e =>
    let s := exitStatus xc bimm f.status
    let e := { e with arr := false }
    match e.cut with
    | some dt => cutEnded d eid e dt xc m
    | none =>
      if eOpc e = 0x11 then parityEnded eid { e with arr := true } d s.1 s.2 m
      else if eOpc e = 1 ∨ eOpc e = 0x20 ∨ (eOpc e = 4 ∧ e.dst = false) then
        (if xc = 0 then senseEnded eid e m
         else if xc = 0x24 ∧ mayRebuild m e then senseFailed eid e s.1 s.2 (dropFrames eid m)
         else if eOpc e = 0x20 then scanFailed eid e s.1 s.2 (dropFrames eid m)
         else finishCut eid e s.1 s.2 false (dropFrames eid m))
      else if xc ≠ 0 then
        let m := if eOpc e = 0xB ∧ eArg0 e = 0 ∧ xc ≠ 0x24 then fervonReset d m else m
        finish eid e s.1 s.2 false (if eOpc e = 2 ∨ eOpc e = 4 then memberEnded e d false m else m)
      else if eOpc e = 2 then finish eid e 0 0 false (memberEnded e d true m)
      else if eOpc e = 4 then finish eid e e.status 0 false (memberEnded e d true m)
      else if eOpc e = 5 then sendOut eid e [{ side := dataSide e, runs := lenRuns e 0 }] m
      else if eOpc e = 8 then
        let m := if f.srdy && (die m d).state == 1 then toNormal d 4 m else m
        sendResult eid e ([f.status, BitVec.ofNat 8 (die m d).state] ++ List.replicate 6 0) m
      else if eOpc e = 0xA then sendResult eid e (leBytes 4 f.feat.toNat) m
      else if eOpc e = 0x18 ∧ (eArg0 e).testBit 31 then sendResult eid e [] m
      else finish eid e 0 0 false (if eOpc e = 0xB ∧ eArg0 e = 0 then fervonReset d m else m)

/-- A re-read has ended (09_seeing.md R349, R350). -/
def rereadEnded (eid : Nat) (cs : List Nat) (step soft xc : Nat) (m : Mx) : Mx :=
  match ent m eid with
  | none => m
  | some e =>
    let e := { e with arr := false }
    if e.cut.isSome then finishCut eid e 0x0200 (e.cut.getD 0) true (dropFrames eid m)
    else if xc ≠ 0 then
      let e := if soft = 0 then e else { e with steps := cs.foldl (fun t c => tabSet t c 15) e.steps }
      ladderTurn eid (setEnt m eid e)
    else if soft = 3 ∧ stepless m eid e = false then softOne eid e (cs.headD 0) m
    else if soft = 3 then ladderTurn eid (setEnt m eid e)
    else if soft = 0 then ladderTurn eid (setEnt m eid e)
    else each cs (fun c m => sendCw 1 eid { eid := eid, cw := c, step := step, mode := soft, grp := dieGrp (eDie e) } m)
           (setEnt m eid e)

/-- A member read's sense has ended. -/
def memberSensed (id xc : Nat) (m : Mx) : Mx :=
  match ent m (memEid id) with
  | none => m
  | some e =>
    if xc = 0 then senseEnded (memEid id) e m
    else
      let m := dropFrames (memEid id) (setEnt m (memEid id) { e with arr := false, stage := .decode, sent := 0 })
      ladderTurn (memEid id) (settleCws (memEid id) (unsettled e) .failDecode m)

/-- R388: member reads that wait for their die, to begin or to read again, end as erasures once the die is no longer NORMAL or a
lock of another ring stands. -/
def failMembers (d : Nat) (m : Mx) : Mx :=
  let of (id : Nat) : Option Nat := match ent m (memEid id) with
    | some e => if memberLost m e.serves d then some id else none
    | none => none
  let lost (i : Item) : Option Nat := match i with
    | .member id => of id
    | .reread e _ _ _ _ => if 2 ^ 30 ≤ e ∧ e < 2 ^ 31 then of (e - 2 ^ 30) else none
    | _ => none
  let ids := (die m d).ahead.filterMap lost
  if ids.isEmpty then m
  else
    let m := setDie m d { die m d with ahead := (die m d).ahead.filter (fun i => (lost i).isNone) }
    each ids (fun id m => memberSensed id 0x24 m) m

/-- R197: a die becomes SUSPECT. -/
def suspectDie (d why : Nat) (m : Mx) : Mx := failMembers d (toSuspect d why m)

/-- A read-ahead's item has ended: with its data-out taken, its codewords are decoded for their statistics (R218). -/
def specEnded (d xc : Nat) (m : Mx) : Mx :=
  match ent m (specEid d), (die m d).spec with
  | some e, some a => if xc = 0 ∧ a.out then senseEnded (specEid d) e m else dropAhead d (dropFrames (specEid d) m)
  | _, _ => dropAhead d m

/-- R198: die recovery has shown the die ready, and microcode has selected its interface again. -/
def recovered (d : Nat) (m : Mx) : Mx :=
  let m := setDie m d { die m d with recAgain := false, mode := if (phy m (dieGrp d)).mode = 4 then 0 else (phy m (dieGrp d)).mode }
  if (die m d).state ≠ 1 then m
  else if (phy m (dieGrp d)).mode = 4 then fervonReset d m else changeState d 0 4 m

/-- What the end of an item means, apart from SUSPEND, RESUME and die recovery. -/
def workEnded (d : Nat) (i : Item) (xc bimm : Nat) (f : Frame) (m : Mx) : Mx :=
  match i with
  | .entry e => leavePlace d i (entryEnded d e xc bimm f m)
  | .group es => each es (fun e m => leavePlace d (.entry e) (entryEnded d e xc bimm f m)) m
  | .reread e cs step soft _ => rereadEnded e cs step soft xc m
  | .member id => memberSensed id xc m
  | .write e => writeEnded e (exitStatus xc bimm f.status) m
  | .spec => specEnded d xc m
  | .dieInit => if populated m d && capRate m d == 0 then log m .noRate d else m
  | .orphan row w => if w = .write ∧ (xc = 0x22 ∨ xc = 0x23) then log m .orphanFailed d row else m
  | _ => m

/-! ## Die death (R199, R200) -/

/-- An entry queued for a die that has become DEAD. -/
def deadEntry (d eid : Nat) (m : Mx) : Mx :=
  match ent m eid with
  | none => m
  | some e =>
    if eOpc e = 8 ∨ eOpc e = 0xB then m
    else if eOpc e = 0x11 then parityEnded eid e d 0x2500 1 (unplace d eid m)
    else if eOpc e = 1 ∧ mayRebuild m e then senseFailed eid e 0x2500 1 (unplace d eid m)
    else finishCut eid { e with arr := false } 0x2500 1 e.admitted (unplace d eid m)

/-- An internal item that waits on a die that has become DEAD. -/
def deadItem (i : Item) (m : Mx) : Mx :=
  match i with
  | .reread e _ _ _ _ => (match ent m e with | some x => ladderTurn e (setEnt m e { x with arr := false }) | none => m)
  | .member id => memberSensed id 0x24 m
  | .write e => writeEnded e (0x2500, 1) m
  | _ => m

/-- Entries of a die, in its queue and wait list. -/
def dieEntries (x : Die) : List Nat := x.queue.flatMap itemEntries ++ x.wait

/-- Entries that a context runs, or holds suspended or aside. -/
def running (x : Die) : List Nat :=
  (x.cur.toList ++ (x.held.map (·.1)).toList ++ (x.aside.map (·.1)).toList).flatMap itemEntries

/-- R197, R199: a die becomes DEAD; what runs on it runs on to its end. -/
def dieDead (d why : Nat) (m : Mx) : Mx :=
  let m := dropAhead d (withDies (dieGrp d) (changeState d 2 why) m)
  let x := die m d
  let m := setDie m d { x with ahead := x.ahead.filter (fun i => i == .grpInit), recAgain := false }
  let m := each x.ahead deadItem m
  each ((dieEntries x).filter (fun e => !(running x).contains e)) (deadEntry d) m

/-- R198: a run of the RECOVER kind has ended; after a second that fails the die is DEAD. -/
def recoverEnded (d xc : Nat) (m : Mx) : Mx :=
  if xc = 0 then recovered d m
  else if (die m d).state ≠ 1 then m
  else if (die m d).recAgain then dieDead d 5 m
  else addFirst d .recover (setDie m d { die m d with recAgain := true })

/-- R245: an item has ended with an exit code; a die that gave no result in time becomes SUSPECT (R201). -/
def itemEnded (d : Nat) (i : Item) (xc bimm : Nat) (f : Frame) (bz : Option Busy) (m : Mx) : Mx :=
  let m := if xc = 0x24 then suspectDie d 1 (log m .dieTimeout d bimm) else m
  match i with
  | .suspend =>
    if xc = 0 then m
    else (match (die m d).held with
      | some (j, g) => workEnded d j xc bimm g (setDie m d { die m d with held := none, heldBusy := none, suspLeft := [], suspInt := [] })
      | none => m)
  | .resume =>
    (match (die m d).held with
     | some (j, g) =>
       let old := (die m d).heldBusy.map (fun b => { b with since := m.md.time, next := m.md.time })
       let m := setDie m d { die m d with held := none, heldBusy := none }
       if xc = 0 then setDie m d { die m d with cur := some j, frame := g, busy := if bz.isSome then bz else old }
       else workEnded d j xc bimm g m
     | none => m)
  | .recover => recoverEnded d xc m
  | _ => workEnded d i xc bimm f m

/-! ## Marks and recovery (R197, R198) -/

/-- R197: a MARK write. -/
def markDie (d mark : Nat) (m : Mx) : Mx :=
  let x := die m d
  if x.absent then log m .markRefused d mark
  else if mark = 1 ∧ x.state = 0 then suspectDie d 3 m
  else if mark = 2 ∧ x.state ≠ 2 then dieDead d 6 m
  else if mark = 3 ∧ x.state = 2 then
    let m := withDies (dieGrp d) (changeState d 1 7) m
    addFirst d .recover m
  else log m .markRefused d mark

/-- A status byte that shows ready (R203). -/
def showsReady (b : Option Byte) : Bool :=
  match b with
  | some v => v.getLsbD 6
  | none => false

/-- R204, R208: the arbiter would grant a context of this die now, were it to ask. -/
def busFor (m : Mx) (d : Nat) : Bool :=
  let g := chan m (dieCh d)
  !g.tenure && !g.freeze && !g.held && g.pend.all (fun q => q.ctx ≤ dieCtx d)

/-- 11_meridian_transit.md R424, R429: the request of die recovery, of the kind RESET and class 3. -/
def recoverReq (m : Mx) (d : Nat) : TrReq :=
  let p := psetOf m (dieCh d)
  let pr := profileOf m p 4
  { die := d, kind := 4, cls := 3, rail := railOf m (dieCh d), segs := pr.1, made := m.tr.slot, ord := m.tr.ord, launch := none,
    journal := false, bad := if pr.2 then some (p, 4) else none }

/-- R427, R428: Transit admits the request of die recovery in the current slot. -/
def recoverFits (m : Mx) (d : Nat) : Bool :=
  let q := recoverReq m d
  mayAdmit m q && unitFits m m.tr.slot [q] && !unitBlocked m m.tr.slot (unitsOf m.tr.reqs) [q]

/-- The reservation of die recovery: admitted, anchored, and released at the first boundary after its end (R426). -/
def recoverHold (d : Nat) (m : Mx) : Mx :=
  let q := recoverReq m d
  endHold d (anchorHold d (admitUnit m.tr.slot [q] { m with tr := { m.tr with ord := m.tr.ord + 1 } }))

/-- The RESET command of R198 on the bus, which parks on the context when its tenure ends. -/
def resetCmd (d : Nat) (m : Mx) : Mx :=
  let m := endTenure d (takeBus m (dieCh d) (dieCtx d))
  setChan m (dieCh d) { chan m (dieCh d) with drive := { cyc := 1, bytes := [0xFF] } }

/-- R198: die recovery, whole: RESET once Transit admits it and the bus is granted, the wait, the status byte, and once more if need be. WORK_ITEM_START
starts the same work in a frame. -/
def recoverDie (d : Nat) (first second : Option Byte) (m : Mx) : Mx :=
  let x := die m d
  if x.state ≠ 1 ∨ x.cur ≠ none ∨ x.held ≠ none ∨ x.ahead.head? ≠ some .recover ∨ mayStart m d = false ∨ threadReady m (dieCh d) = false ∨
     busFor m d = false ∨ chEnabled m (dieCh d) = false ∨ recoverFits m d = false then m
  else
    let m := resetCmd d (setDie (recoverHold d m) d { x with ahead := x.ahead.drop 1, busy := none })
    if showsReady first || (!x.recAgain && showsReady second) then recovered d m else dieDead d 5 m

/-! ## Readiness (R202) -/

/-- Dies of a channel that are busy. -/
def busyDies (m : Mx) (c : Nat) : List Nat := ((List.range 16).map (dieOf c)).filter (fun d => (die m d).busy.isSome)

/-- R202: readiness of a busy die is judged by polling. -/
def polling (m : Mx) (d : Nat) (b : Busy) : Bool :=
  (pollIval m (dieCh d) != 0) && (b.poll || rbIgn m (dieCh d) || decide (2 ≤ (busyDies m (dieCh d)).length))

/-- R202: a die that is being polled stays under polling until it shows ready, whatever is written meanwhile. -/
def notePolling (c : Nat) (m : Mx) : Mx :=
  each (busyDies m c) (fun d m => match (die m d).busy with
    | some b => if polling m d b then setDie m d { die m d with busy := some { b with poll := true } } else m
    | none => m) m

/-- R202: another die of the channel becomes busy: a lone die's judgement passes to polling. -/
def joinPolling (d : Nat) (m : Mx) : Mx :=
  match (die m d).busy with
  | some b =>
    if b.poll then m
    else if rbIgn m (dieCh d) then setDie m d { die m d with busy := some { b with poll := true } }
    else setDie m d { die m d with busy := some { b with
      poll := true, next := max (b.since + firstPoll m (dieCh d) b.op) m.md.time } }
  | none => m

/-- R202: a die becomes busy with an operation, its first poll falling due after `first`. -/
def startBusy (d : Nat) (b : Busy) (first : Nat) (m : Mx) : Mx :=
  let others := (busyDies m (dieCh d)).filter (fun x => x != d)
  let m := if pollIval m (dieCh d) = 0 then m else each others joinPolling m
  setDie m d { die m d with busy := some { b with since := m.md.time, next := m.md.time + first,
                                                  poll := (pollIval m (dieCh d) != 0) && !others.isEmpty } }

/-- Time spent busy, suspensions excluded (R201). -/
def busyTime (m : Mx) (b : Busy) : Nat := b.spent + (m.md.time - b.since)

/-- R201: the operation's limit has passed. -/
def pastLimit (m : Mx) (d : Nat) : Bool :=
  match (die m d).busy with
  | some b => decide (opLimit m (dieCh d) b.op < busyTime m b)
  | none => false

/-- R202: a poll falls due, or, in RB_N judgement, the operation's limit has passed; a limit that passes under FREEZE is judged
after it (R208). None falls due between SUSPENSION and the suspend command, from which the first poll is dated. -/
def pollDue (d : Nat) (m : Mx) : Mx :=
  match (die m d).busy with
  | none => m
  | some b =>
    let x := die m d
    if x.pfErase || (x.cur == some .suspend && !x.frame.waited) then m
    else if polling m d b then
      (if b.next ≤ m.md.time then
        setDue d false (setDie m d { x with busy := some { b with next := b.next + pollIval m (dieCh d) } })
       else m)
    else if pastLimit m d && !(chan m (dieCh d)).freeze then setDue d false m
    else m

/-- R202: a rise of RB_N counts for every busy die where polling is off, else for a lone one in RB_N judgement. -/
def rbRise (c : Nat) (m : Mx) : Mx :=
  each ((busyDies m c).filter (fun d => match (die m d).busy with
      | some b => !polling m d b && !(die m d).pfErase
      | none => false))
    (fun d m => setDue d true m) m

/-! ## Suspension (R212) -/

/-- An operation that may be suspended. -/
def suspendable (e : Ent) : Bool := eOpc e == 2 || eOpc e == 6 || eOpc e == 3 || eOpc e == 0x11

/-- R212: the reads behind the busy entry that a suspension would carry out. -/
def suspReads (m : Mx) (d : Nat) (i : Item) : List Nat :=
  (((queueFrom (die m d) i).drop 1).takeWhile (fun j => match j with
    | .entry e => (match ent m e with | some x => isPlainRead x | none => false)
    | _ => false)).flatMap itemEntries |>.take 4

/-- 10_stripes.md R387: internal reads that a suspension made now would carry out; they count among its four. -/
def suspInner (m : Mx) (d : Nat) : List Item := ((aheadOf m d).filter isRead).take 4

/-- R212: reads of the queue that a suspension made now would carry out, beside internal ones. -/
def suspTakes (m : Mx) (d eid : Nat) : List Nat := (suspReads m d (.entry eid)).take (4 - (suspInner m d).length)

/-- R212: the channel engine asks, of a die that offers it, for a suspension of the operation in progress. -/
def suspWanted (m : Mx) (d : Nat) : Bool :=
  let x := die m d
  match x.cur, x.busy with
  | some (.entry eid), some b =>
    (match ent m eid with
     | none => false
     | some e =>
       suspendable e && ((b.op == .program && x.offers.1) || (b.op == .erase && x.offers.2)) && decide (x.suspN < suspMax m (dieCh d)) && x.held.isNone &&
       !((suspTakes m d eid).isEmpty && (suspInner m d).isEmpty))
  | _, _ => false

/-- R212: SUSPENSION: the context changes to the SUSPEND kind; the operation counts as busy until its die is suspended (R201). -/
def suspend (d : Nat) (m : Mx) : Mx :=
  let x := die m d
  match x.cur, x.busy with
  | some (.entry eid), some b =>
    if !suspWanted m d || !x.frame.waiting || !groupOpen m (dieGrp d) then m
    else
      let m' := setDie m d { x with held := some (.entry eid, x.frame), suspN := x.suspN + 1,
                                    heldBusy := some b, suspLeft := suspTakes m d eid, suspInt := suspInner m d }
      startItem d (itemAddr m' d .suspend) .suspend m'
  | _, _ => m

/-- R212: the channel engine asks for the resume: the reads are done, or the die's state lets none start (R199). -/
def resumeWanted (m : Mx) (d : Nat) : Bool :=
  let x := die m d
  x.held.isSome && (x.state != 0 || (x.suspLeft.isEmpty && !(aheadOf m d).any (fun i => isRead i && x.suspInt.contains i)))

/-- R212: the suspended operation is resumed once its reads are done. -/
def resumeOp (d : Nat) (m : Mx) : Mx :=
  let x := die m d
  if !resumeWanted m d || x.cur.isSome || !mayStart m d then m
  else startItem d (itemAddr m d .resume) .resume m

/-! ## Locks (R220–R225) -/

/-- R220: ACQUIRE. -/
def acquireLock (a : Agent) (d r : Nat) (m : Mx) : Mx :=
  if (a = .host ∧ 255 < r) ∨ 263 < r then log m .lockRefused d r
  else if (die m d).lock ≠ .none then log m .lockRefused d r
  else failMembers d (lockTurn d (setDie m d { die m d with lock := .pending r, broken := none }))

/-- R220, R222: RELEASE. By host firmware, a ring above 255 leaves only a record; with no lock standing, the owner of one that
has been broken leaves nothing, and any other ring a record (log entry 146). -/
def releaseLock (a : Agent) (d r : Nat) (m : Mx) : Mx :=
  let drop (o : Nat) : Mx := if o = r then placeFreed d (setDie m d { die m d with lock := .none }) else log m .lockRefused d r
  if a = .host ∧ 255 < r then log m .lockRefused d r
  else match (die m d).lock with
  | .none => if (die m d).broken = some r then m else log m .lockRefused d r
  | .pending o => drop o
  | .held o => drop o

/-- What remains of an item without one of its entries. -/
def without (eid : Nat) (i : Item) : Option Item :=
  match i with
  | .entry e => if e = eid then none else some i
  | .group es =>
    (match es.filter (fun e => e != eid) with
     | [] => none
     | l => some (.group l))
  | .reread e _ _ _ _ => if e = eid then none else some i
  | .write e => if e = eid then none else some i
  | _ => some i

/-- R124: what an entry's operation becomes once the entry has left it. -/
def orphanOf (m : Mx) (eid : Nat) : Item :=
  match ent m eid with
  | none => .orphan 0 .other
  | some e =>
    .orphan (if eOpc e = 0x11 then (stripe m (eStripe e)).row else wRow e)
      (if suspendable e || (eOpc e == 4 && e.dst) then .write else if eOpc e = 0xB ∧ eArg0 e = 0 then .fullReset else .other)

/-- R124: an entry leaves a context: an operation its die is busy with stays as an orphan, a frame that is not waiting
for the die stops. -/
def detach (eid d : Nat) (m : Mx) : Mx :=
  let x := die m d
  let o := orphanOf m eid
  let m := setDie m d { x with
    queue := x.queue.filter (fun i => i != .entry eid), wait := x.wait.filter (fun e => e != eid),
    suspLeft := x.suspLeft.filter (fun e => e != eid), ahead := x.ahead.filterMap (without eid),
    held := x.held.map (fun h => ((without eid h.1).getD o, h.2)) }
  let m := setDie m d { die m d with aside := x.aside.filter (fun h => (without eid h.1).isSome || h.2.ahead) }
  let m := setDie m d { die m d with aside := (die m d).aside.map (fun h => ((without eid h.1).getD o, h.2)) }
  let m := match x.cur with
    | none => m
    | some i =>
      match without eid i with
      | some j => setDie m d { die m d with cur := some j }
      | none =>
        if (x.busy.isSome || x.frame.conf) && (x.aside.isNone || x.frame.ahead) then setDie m d { die m d with cur := some o }
        else yieldFrame d m
  placeFreed d (soleFrame d m)

/-- The dies whose contexts an entry's work may have reached. -/
def workDies (e : Ent) : List Nat :=
  (if eOpc e == 0x12 then (if rbCheck e then [] else [rbDdie e]) else if (eOpc e == 0x11) then e.bind.map (·.2) else if eOpc e == 4 then [eDie e, eDdie e] else [eDie e]).filter (· < 2048)

/-- A write of the complex's own, or a REBUILD's program, is given up: what its die is busy with runs on as an orphan. -/
def dropWrite (eid d : Nat) (m : Mx) : Mx :=
  dropEnt (freeResv (dropFrames eid (detach eid d m)) (resOwner eid)) eid

/-- An entry leaves every context, order, transfer and reconstruction it is in. -/
def withdraw (eid : Nat) (e : Ent) (m : Mx) : Mx :=
  let m := if eOpc e = 0x12 ∧ (ent m (rbEid eid)).isSome then dropWrite (rbEid eid) (rbDdie e) m else m
  dropJob (dropXfer eid (dropFrames eid (each (workDies e) (detach eid) m))) eid

/-- R122: Transit has admitted an array operation of an entry, or of a REBUILD's program. -/
def begun (m : Mx) (eid : Nat) (e : Ent) : Bool := e.admitted || (ent m (rbEid eid)).any (·.admitted)

/-- A die runs, or holds suspended or aside, an item of an entry. -/
def runsFor (m : Mx) (eid d : Nat) : Bool :=
  let x := die m d
  (x.cur.toList ++ (x.held.map (·.1)).toList ++ (x.aside.map (·.1)).toList).any
    (fun i => without eid i != some i || without (rbEid eid) i != some i)

/-- An entry of a die is cut short where it stands; a frame that runs for it stops, and other dies that work for it are
left as R124 has it. -/
def cutPlaced (d detail eid : Nat) (m : Mx) : Mx :=
  match ent m eid with
  | none => m
  | some e =>
    let m := soleFrame d (setDie m d { die m d with aside := (die m d).aside.filter (fun h => h.2.ahead || (without eid h.1).isSome) })
    let m := if ((die m d).cur.map itemEntries).getD [] |>.contains eid then yieldFrame d m else m
    let m := each ((workDies e).filter (fun x => x != d)) (detach eid) m
    finishCut eid { e with arr := false } 0x0200 detail e.admitted (dropFrames eid (unplace d eid m))

/-- R223: a lock HELD for DL_TMO is broken. -/
def breakLock (d : Nat) (m : Mx) : Mx :=
  match (die m d).lock with
  | .held r =>
    if m.md.time < (die m d).lockAt + 100000 * fld (reg m (chOff (dieCh d) 0x1C)) 15 0 then m
    else
      let m := raise (log (setDie m d { die m d with lock := .none, broken := some r }) .lockBroken r d) 273
      let l := (dieEntries (die m d)).filter (fun e => eidRing e == r && (match ent m e with | some x => !x.admitted | none => false))
      placeFreed d (each l (cutPlaced d 7) m)
  | _ => m

/-- R224: the owner of a lock is reset. -/
def lockOwnerReset (r d : Nat) (m : Mx) : Mx :=
  match (die m d).lock with
  | .held o => if o = r then suspectDie d 2 (placeFreed d (log (setDie m d { die m d with lock := .none }) .lockReset r d)) else m
  | .pending o => if o = r then placeFreed d (setDie m d { die m d with lock := .none }) else m
  | .none => m

/-- The dies a lock of a ring may stand on. -/
def lockedDies (m : Mx) (r : Nat) : List Nat :=
  (m.die.filter (fun x => x.2.lock == .held r || x.2.lock == .pending r)).map (·.1)

/-! ## Channel function reset (R226) -/

/-- An internal work item that a stopped frame leaves to be run again (06_microcode.md R254): any but a read-ahead; an orphan
only after a machine check, a channel reset's FCh having ended its operation (R226). -/
def runsAgain (mchk : Bool) (i : Item) : Bool :=
  match i with
  | .reread _ _ _ _ _ => true
  | .member _ => true
  | .recover => true
  | .grpInit => true
  | .dieInit => true
  | .write _ => true
  | .orphan _ _ => mchk
  | _ => false

/-- Running and suspended internal items go back to the head of their context's items (06_microcode.md R254). -/
def putBack (d : Nat) (mchk : Bool) (m : Mx) : Mx :=
  let x := die m d
  let l := ((x.held.map (·.1)).toList ++ x.cur.toList).filter (runsAgain mchk)
  setDie m d { x with ahead := l ++ x.ahead }

/-- R226, R254: every entry with a place is aborted, read-aheads and frames go, and RESTART comes first, in place of one that has
not run: the cause of the latest reset stands (log entry 152). A profile that is anchored runs to its fixed end, or until
RESTART finds the die ready or ends (11_meridian_transit.md R436); on a DEAD die, which takes no RESTART, one without a
fixed end ends now. -/
def resetDie (d detail cause : Nat) (waits locks : Bool) (m : Mx) : Mx :=
  let x := die m d
  let m := haltFrame d (putBack d (!waits) m)
  let m := setDie m d { die m d with held := none, heldBusy := none, aside := none, suspLeft := [], suspInt := [],
                                     lock := if locks then .none else (die m d).lock }
  let es := ((x.queue ++ (x.held.map (·.1)).toList ++ x.cur.toList ++ (x.aside.map (·.1)).toList).flatMap itemEntries).eraseDups ++
    (if waits then x.wait else [])
  let m := placeFreed d (dropAhead d (each es (cutPlaced d detail) m))
  if (die m d).state = 2 then endOpen d m
  else
    let l := (die m d).ahead.filter (fun i => match i with | .restart _ => false | _ => true)
    addFirst d (.restart cause) (setDie m d { die m d with ahead := l })

/-- R226: the reset of a channel; the group being halted, it is held (R256). -/
def chReset (c : Nat) (m : Mx) : Mx :=
  if (cluster m (c / 4)).halted then setChan m c { chan m c with resetDue := true }
  else
    let m := each ((List.range 16).map (dieOf c)) (fun d m => resetDie d 4 1 true true m) m
    setChan m c { chan m c with owner := none, tenure := false, bytes := 0, pend := [], ce := [], resetDue := false }

/-! ## Registers (R227–R232) -/

/-- DST of a context. -/
def dstRead (m : Mx) (d : Nat) : Word :=
  let x := die m d
  let o := match x.lock with | .none => (0, 0) | .pending r => (1, r) | .held r => (2, r)
  word (2 ^ 16 * o.2 + bitAt x.absent 15 + bitAt x.spec.isSome 14 + 2 ^ 12 * o.1 + bitAt x.held.isSome 11 +
    bitAt x.busy.isSome 10 + 2 ^ 4 * x.queue.length + x.state)

/-- Reads of the channel block, by offset within it. -/
def chRead (m : Mx) (off : Nat) : Word :=
  let c := off / 0x1000
  let k := off % 0x1000
  let g := chan m c
  if k = 8 then word (bitAt g.freeze 31 + bitAt (!g.tenure && g.owner.isNone) 30 + bitAt g.owner.isSome 20 +
                      2 ^ 16 * g.owner.getD 0 + g.pend.foldl (fun a q => a + 2 ^ q.ctx) 0)
  else if k = 0x28 then word (2 ^ 16 * g.waitCtx + g.wait)
  else if 0x100 ≤ k ∧ k < 0x140 then dstRead m (dieOf c ((k - 0x100) / 4))
  else if k = 0 ∨ (0xC ≤ k ∧ k ≤ 0x24) ∨ (0x140 ≤ k ∧ k < 0x180) then reg m (chOff c k)
  else 0

/-- WAITMAX.CLR. -/
def clearWait (c : Nat) (m : Mx) : Mx := setChan m c { chan m c with wait := 0, waitCtx := 0 }

/-- R231: a write of DLOCK. -/
def dlockWrite (a : Agent) (c : Nat) (v : Word) (m : Mx) : Mx :=
  let d := dieOf c (fld v 3 0)
  if fld v 31 30 = 1 then acquireLock a d (fld v 24 16) m
  else if fld v 31 30 = 2 then releaseLock a d (fld v 24 16) m
  else m

/-- Writes of the channel block, by offset within it. -/
def chWrite (a : Agent) (off : Nat) (v : Word) (m : Mx) : Mx :=
  let c := off / 0x1000
  let k := off % 0x1000
  if k = 0 then notePolling c (setReg (notePolling c m) (chOff c k) (v &&& 0x19F0))
  else if k = 4 then onlyIf (bit v 0) (chReset c) m
  else if k = 8 then setFreeze c (bit v 31) m
  else if k = 0xC then setReg m (chOff c k) (v &&& 0x1FF)
  else if k = 0x10 then notePolling c (setReg (notePolling c m) (chOff c k) v)
  else if k = 0x14 ∨ k = 0x18 then checkedWrite ((fld v 15 0 != 0) && (fld v 31 16 != 0)) (chOff c k) 0xFFFFFFFF 0 v m
  else if k = 0x1C then checkedWrite (fld v 15 0 != 0) (chOff c k) 0xFFFF 0 v m
  else if k = 0x20 ∨ k = 0x24 then setReg m (chOff c k) (v &&& 0xFFFF)
  else if k = 0x28 then onlyIf (bit v 31) (clearWait c) m
  else if k = 0x2C then dlockWrite a c v m
  else if 0x100 ≤ k ∧ k < 0x140 then
    (if fld v 9 8 = 0 then m else markDie (dieOf c ((k - 0x100) / 4)) (fld v 9 8) m)
  else if 0x140 ≤ k ∧ k < 0x180 then setReg m (chOff c k) v
  else m

/-! ## Meanings -/

/-- ENTRY_PLACE (R152, R195). -/
def execEntryPlace (ring idx : Nat) (s : State) : Res := act s (placeEntry (eidOf ring idx))

/-- WORK_ITEM_START (R196). -/
def execWorkItemStart (ch ctx : Nat) (s : State) : Res := act s (onlyIf (isCtx ch ctx) (startNext (dieOf ch ctx)))

def dstOff (d : Nat) : Nat := chOff (dieCh d) (0x100 + 4 * dieCtx d)

/-- MARK_SUSPECT (R197). -/
def execMarkSuspect (die : Nat) (s : State) : Res :=
  act s (onlyIf (decide (die < 2048)) (access (dstOff die) true (markDie die 1)))

/-- MARK_DEAD (R197). -/
def execMarkDead (die : Nat) (s : State) : Res :=
  act s (onlyIf (decide (die < 2048)) (access (dstOff die) true (markDie die 2)))

/-- CLEAR_DEAD (R197). -/
def execClearDead (die : Nat) (s : State) : Res :=
  act s (onlyIf (decide (die < 2048)) (access (dstOff die) true (markDie die 3)))

/-- DIE_RECOVERY (R198). -/
def execDieRecovery (die : Nat) (first second : Option Byte) (s : State) : Res :=
  act s (onlyIf (decide (die < 2048)) (recoverDie die first second))

/-- POLL_DUE (R202). -/
def execPollDue (ch ctx : Nat) (s : State) : Res := act s (onlyIf (isCtx ch ctx) (pollDue (dieOf ch ctx)))

/-- RB_N_RISE (R202). -/
def execRbRise (ch : Nat) (s : State) : Res := act s (onlyIf (decide (ch < 128)) (rbRise ch))

/-- FREEZE (R208). -/
def execFreeze (ch : Nat) (on : Bool) (s : State) : Res :=
  act s (onlyIf (decide (ch < 128)) (access (chOff ch 8) true (setFreeze ch on)))

/-- CH_STARVE (R210). -/
def execChStarve (ch ctx : Nat) (s : State) : Res := act s (onlyIf (isCtx ch ctx) (starve ch ctx))

/-- WAITMAX_CLR (R231). -/
def execWaitmaxClr (ch : Nat) (s : State) : Res :=
  act s (onlyIf (decide (ch < 128)) (access (chOff ch 0x28) true (clearWait ch)))

/-- SUSPENSION (R212). -/
def execSuspension (ch ctx : Nat) (s : State) : Res := act s (onlyIf (isCtx ch ctx) (suspend (dieOf ch ctx)))

/-- OPERATION_RESUME (R212). -/
def execOperationResume (ch ctx : Nat) (s : State) : Res := act s (onlyIf (isCtx ch ctx) (resumeOp (dieOf ch ctx)))

/-- READ_AHEAD_HOLD_EXPIRY (R218). -/
def holdExpires (d : Nat) (m : Mx) : Mx :=
  let x := die m d
  match x.spec with
  | some a =>
    if x.cur = some .spec ∧ a.cancelled = false ∧ a.out = false ∧ x.queue = [] ∧
       a.at_.any (fun t => decide (t + 1000 * specHold m (dieCh d) ≤ m.md.time)) then
      setDie m d { x with holdx := true, spec := some { a with out := true } }
    else m
  | none => m

/-- READ_AHEAD_HOLD_EXPIRY (R218). -/
def execReadAheadExpiry (ch ctx : Nat) (s : State) : Res := act s (onlyIf (isCtx ch ctx) (holdExpires (dieOf ch ctx)))

/-- ACQUIRE (R220). -/
def execAcquire (agent : Agent) (ch ctx ring : Nat) (s : State) : Res :=
  act s (onlyIf (isCtx ch ctx && decide (ring < 512)) (writeBy agent (chOff ch 0x2C) (acquireLock agent (dieOf ch ctx) ring)))

/-- RELEASE of a die lock (R222). -/
def execLockRelease (agent : Agent) (ch ctx ring : Nat) (s : State) : Res :=
  act s (onlyIf (isCtx ch ctx && decide (ring < 512)) (writeBy agent (chOff ch 0x2C) (releaseLock agent (dieOf ch ctx) ring)))

/-- LOCK_BROKEN (R223). -/
def execLockBroken (ch ctx : Nat) (s : State) : Res := act s (onlyIf (isCtx ch ctx) (breakLock (dieOf ch ctx)))

/-- CHANNEL_FUNCTION_RESET (R226). -/
def execChannelReset (ch : Nat) (s : State) : Res :=
  act s (onlyIf (decide (ch < 128)) (access (chOff ch 4) true (chReset ch)))

end Sys2Proof.Machine
end

