-- ==== Sys2Proof/Machine/Microcode.lean ====
section
/-! DEFINITION. Microcode (06_microcode.md): the words that frames run, the bus grants they wait for, timed launches,
machine checks, the control stores and their images. -/

namespace Sys2Proof.Machine

/-! ## Images (R258–R260) -/

/-- R258: byte length of an image with its words and exports. -/
def imgLen (l : List Byte) : Nat := 0x80 + 16 * leAt l 0x0C 2 + 4 * leAt l 0x0E 2

/-- R258: the parts of an image. -/
def imgParts (l : List Byte) : Img :=
  let n := leAt l 0x0C 2
  { iver := word (leAt l 8 4), reinit := (leAt l 6 2).testBit 0,
    entries := (List.range 32).map (fun i => leAt l (0x10 + 2 * i) 2), feats := BitVec.ofNat 256 (leAt l 0x50 32),
    dieMatch := leAt l 0x70 4, dieMask := leAt l 0x74 4,
    words := (List.range n).map (fun i => BitVec.ofNat 128 (leAt l (0x80 + 16 * i) 16)),
    exports := (List.range (leAt l 0x0E 2)).map (fun i => (leAt l (0x80 + 16 * n + 4 * i) 2, leAt l (0x82 + 16 * n + 4 * i) 2)) }

/-- A list ascends without repeats. -/
def ascends : List Nat → Bool
  | a :: b :: t => decide (a < b) && ascends (b :: t)
  | _ => true

/-- R259: the first check an image fails, the die match left out: 1 header and CRCs, 2 kinds, 3 exports, 4 parity. As part of
check 1 an image whose length, NWORDS or NEXP is not what R258 lays down fails, and as part of check 2 one that gives a
reserved kind an address (R257); R259 lists neither (log entry 129). -/
def imgFault (l : List Byte) : Option Nat :=
  let n := leAt l 0x0C 2
  let i := imgParts l
  if leAt l 0 4 ≠ 0x4E444344 ∨ leAt l 4 2 ≠ 1 ∨ leAt l 0x7C 4 ≠ crc32c (slice l 0 0x7C) ∨
     leAt l 0x78 4 ≠ crc32c (l.drop 0x80) ∨ l.length ≠ imgLen l ∨ n = 0 ∨ 8192 < n ∨ 256 < leAt l 0x0E 2 then some 1
  else if (List.range 17).any (fun k => k != 15 && decide (n ≤ i.entries.getD k 0xFFFF)) ||
          (List.range 32).any (fun k => decide (17 ≤ k) && i.entries.getD k 0 != 0xFFFF) then some 2
  else if i.exports.any (fun x => decide (n ≤ x.2)) || !ascends (i.exports.map (·.1)) then some 3
  else if i.words.any (fun w => !(parityHi w && parityLo w)) then some 4
  else none

/-- R259: the dies of a group match an image. -/
def diesMatch (m : Mx) (g : Nat) (i : Img) : Bool :=
  (popDies m g).all (fun d => ((die m d).ident &&& i.dieMask) == (i.dieMatch &&& i.dieMask))

/-- R258: fill a group's control store from an image; words beyond it are zero. -/
def loadImg (g : Nat) (i : Img) (m : Mx) : Mx :=
  setCluster m g { cluster m g with store := (List.range i.words.length).zip i.words, poison := [], img := some i }

/-! ## The entry fields of a work item (R243) -/

/-- What the ENT sources show. -/
structure View where
  row    : Nat := 0
  col    : Nat := 0
  planes : Nat := 0
  ncw    : Nat := 0
  arg0   : Nat := 0
  arg1   : Nat := 0
  prof   : Nat := 0
  pimg   : Nat := 0                          -- bytes of one plane's page image
  deriving DecidableEq, Repr

/-- Where a frame of an item's stream goes: entry, codeword, extra frame (0 for the codeword's own), and slot. -/
structure FrameTo where
  eid  : Nat
  cw   : Nat
  x    : Nat
  slot : Nat
  deriving DecidableEq, Repr

/-- Frames of an entry's own sense. -/
def entFrames (m : Mx) (eid : Nat) : List FrameTo :=
  match ent m eid with
  | some e => if e.dst then [] else (List.range e.cws.length).map (fun c => { eid := eid, cw := c, x := 0, slot := eSlot e c })
  | none => []

/-- The codeword frames an item's data-out delivers. -/
def itemFrames (m : Mx) (d : Nat) (i : Item) : List FrameTo :=
  match i with
  | .entry e => entFrames m e
  | .group es => es.flatMap (entFrames m)
  | .reread eid cs _ soft _ =>
    (match ent m eid with
     | some e => cs.map (fun c => { eid := eid, cw := c, x := if soft = 3 then 0 else soft, slot := eSlot e c })
     | none => [])
  | .member id => entFrames m (memEid id)
  | .spec => entFrames m (specEid d)
  | _ => []

/-- The planes, and the first and last codeword of each page, that a list of frames spans. -/
def span (fs : List FrameTo) : List Nat × Nat × Nat :=
  (((List.range 4).filter (fun p => fs.any (fun f => f.slot / 4 == p))),
   fs.foldl (fun a f => min a (f.slot % 4)) 3, fs.foldl (fun a f => max a (f.slot % 4)) 0)

/-- Mask of a list of planes. -/
def maskOf (l : List Nat) : Nat := l.foldl (fun a p => a ||| 2 ^ p) 0

/-- The item whose fields a frame sees: a SUSPEND or RESUME sees those of the operation it serves. -/
def seenItem (x : Die) : Option Item :=
  match x.cur with
  | some .suspend => x.held.map (·.1)
  | some .resume => x.held.map (·.1)
  | o => o

/-- R243: the fields of a frame's work item. Of a sense they are those of the frames it delivers; of a COPY's two works they are
those of its source and of its destination (log entry 140). -/
def viewOf (m : Mx) (d : Nat) : View :=
  match seenItem (die m d) with
  | none => {}
  | some i =>
    match itemEnt m d i with
    | none => {}
    | some e =>
      let fs := itemFrames m d i
      if eOpc e = 0x11 then
        (let s := stripe m (eStripe e)
         { row := s.row, planes := s.planes, ncw := 4 * planeCount s.planes, arg0 := eArg0 e, arg1 := eArg1 e,
           prof := s.profile, pimg := 4 * frameLen s.profile })
      else if fs = [] then
        { row := wRow e, col := eCol e, planes := if e.dst then eDplanes e else ePlanes e, ncw := eNcw e, arg0 := eArg0 e,
          arg1 := eArg1 e, prof := wProf e, pimg := eNcw e / max 1 (planeCount (wPlanes e)) * frameLen (wProf e) }
      else
        let sp := span fs
        { row := wRow e, col := sp.2.1, planes := maskOf sp.1, ncw := fs.length, arg0 := eArg0 e, arg1 := eArg1 e,
          prof := wProf e, pimg := (sp.2.2 + 1 - sp.2.1) * frameLen (wProf e) }

/-- R255: the restart cause. -/
def causeOf (x : Die) : Nat :=
  match x.cur with
  | some (.restart c) => c
  | _ => 0

/-- A work register. -/
def wReg (f : Frame) (n : Nat) : Word := tabGet 0 f.w n

/-- R243: the value ASRC selects. -/
def asrc (m : Mx) (d : Nat) (f : Frame) (n : Nat) : Word :=
  let v := viewOf m d
  if n < 8 then wReg f n
  else match n with
    | 8 => word v.row
    | 9 => word v.col
    | 10 => word v.planes
    | 11 => word v.ncw
    | 12 => word v.arg0
    | 13 => word v.arg1
    | 14 => word v.prof
    | 15 =>
      let k := 4 * fld (wReg f 7) 1 0
      word ((List.range 4).foldl (fun a j => a + 2 ^ (8 * j) * unsigned 8 (f.offs.getD (k + j) 0)) 0)
    | 16 => word f.status.toNat
    | 17 => f.feat
    | 18 => word v.pimg
    | 19 => word (v.col * frameLen v.prof)
    | 20 => geom m d
    | 21 => word (causeOf (die m d))
    | 22 => word (m.md.time % 2 ^ 32)
    | 23 => word (dieCtx d)
    | _ => 0

/-- R36: every codeword of the page-set is encoded in the reservation. -/
def encodedAll (m : Mx) (d : Nat) : Bool :=
  match seenItem (die m d) with
  | some i => (match itemEnt m d i with | some e => e.sent == 0 | none => false)
  | none => false

/-- R240: the value of COND before CINV. -/
def condVal (m : Mx) (d : Nat) (f : Frame) (c : Nat) : Bool :=
  let x := die m d
  if 0x60 ≤ c then bit (wReg f 1) (c - 0x60)
  else if 0x40 ≤ c then bit (wReg f 0) (c - 0x40)
  else match c with
    | 0x00 => true
    | 0x01 => f.z
    | 0x02 => f.n
    | 0x03 => f.c
    | 0x04 => holdsBus m d
    | 0x05 => f.admission
    | 0x06 => f.thr
    | 0x07 => f.due
    | 0x08 => f.rbr
    | 0x09 => f.srdy
    | 0x0A => f.ssame
    | 0x0B => f.status.getLsbD 0
    | 0x0C => pastLimit m d
    | 0x0D => suspWanted m d
    | 0x0E => resumeWanted m d
    | 0x0F => x.cancel
    | 0x10 => x.adopt
    | 0x11 => x.holdx
    | 0x12 => encodedAll m d
    | 0x13 => (phy m (dieGrp d)).mode == 4
    | 0x14 => decide (2 ≤ (busyDies m (dieCh d)).length)
    | _ => false

/-- R239: C, the condition inverted where CINV is 1. -/
def condC (m : Mx) (d : Nat) (f : Frame) (w : Microword) : Bool := xor (condVal m d f (mwCond w)) (mwCinv w)

def setFrame (d : Nat) (f : Frame) (m : Mx) : Mx := setDie m d { die m d with frame := f }

/-! ## Machine check (R251–R255) -/

/-- R253, R254: the cluster halts, its channels stop, and every die context gives up what it does. -/
def machineCheck (d cause : Nat) (m : Mx) : Mx :=
  let g := dieGrp d
  let a := (die m d).frame.pc
  let k := cluster m g
  let v := word (2 ^ 31 + 2 ^ 24 * cause + 2 ^ 22 * (dieCh d % 4) + 2 ^ 18 * dieCtx d + a)
  let m := setCluster m g { k with halted := true, mchks := satInc k.mchks 0xFFFF,
                                   mchk := if bit k.mchk 31 then k.mchk else v }
  let m := raise (log m .mchk (65536 * g + 256 * (dieCh d % 4) + dieCtx d) a cause) 274
  let m := { m with mc := { m.mc with halts := if m.mc.halts.contains g then m.mc.halts else m.mc.halts ++ [g] } }
  let m := each (groupDies g) (fun x m => resetDie x 5 (if (die m x).frame.active && (die m x).frame.cmds then 2 else 3) false false m) m
  each (groupChans g) (fun c m =>
    setChan m c { chan m c with owner := none, tenure := false, bytes := 0, pend := [], ce := [] }) m

/-- R250, R251: the machine check that a fetch raises, if any. -/
def fetchFault (m : Mx) (d : Nat) : Option Nat :=
  let g := dieGrp d
  let a := (die m d).frame.pc
  let w := wordAt m g a
  if (cluster m g).poison.contains a then some 6
  else if !parityHi w then some 1
  else if !parityLo w then some 2
  else if illegal w (holdsBus m d) then some 3
  else none

/-! ## Grants (R205, R207, R247) -/

/-- The deepest stack depth reached (R265). -/
def noteDepth (d n : Nat) (m : Mx) : Mx :=
  let k := cluster m (dieGrp d)
  if k.sdepth < n then setCluster m (dieGrp d) { k with sdepth := n } else m

/-- R247: the cut data cycle of a frame goes on through CHGCOL, or where CHGCOL has returned. At stack depth 8, where no linked
image can cut one, the call raises STK_OVF as R246's does (log entry 127). -/
def regained (d : Nat) (m : Mx) : Mx :=
  let f := (die m d).frame
  let m := setFrame d { f with regain := false } m
  match f.cut with
  | some (_, n) =>
    if f.stack.length ≠ n then m
    else if 8 ≤ n then machineCheck d 4 m
    else
      noteDepth d (n + 1) (setFrame d { f with regain := false, stack := f.pc :: f.stack,
                                               pc := kindAddr m (dieGrp d) 14 % 8192 } m)
  | none => m

/-- A frame has been given the bus: one that waits at its LAUNCH word, or goes on, has its chip enable asserted. -/
def busGranted (d : Nat) (m : Mx) : Mx :=
  let f := (die m d).frame
  let m := if f.launchAt.isSome || f.regain then assertCe d m else m
  if f.regain then regained d m else m

/-- A frame asks for the bus; one parked on its context is granted at once (R205). -/
def askBus (d : Nat) (m : Mx) : Mx :=
  let held := holdsBus m d
  let m := busRequest d m
  if !held && holdsBus m d then busGranted d m else m

/-- R216: a frame blocked in a WAIT gives way to the READ it was started from, unless it waits for the bus, for Transit or for
Seeing (log entry 54). -/
def stepAside (d : Nat) (w : Microword) (m : Mx) : Mx :=
  if (die m d).frame.ahead && (die m d).aside.isSome && !(mwCond w == 4 || mwCond w == 5 || mwCond w == 6) then
    (if (die (swapAside d m) d).frame.regain && holdsBus (swapAside d m) d then busGranted d (swapAside d m) else swapAside d m)
  else m

/-! ## Step 1: the ALU (R242) -/

/-- The ALU action of a word. -/
def aluStep (m : Mx) (d : Nat) (f : Frame) (w : Microword) : Frame :=
  let a := asrc m d f (mwAsrc w)
  match mwAlu w with
  | 13 => { f with areg := BitVec.ofNat 40 (f.areg.toNat / 65536 * 65536 + a.toNat % 65536) }
  | 14 => { f with areg := BitVec.ofNat 40 (f.areg.toNat % 65536 + 65536 * (a.toNat % 2 ^ 24)) }
  | 15 => { f with sptr := BitVec.ofNat 24 a.toNat }
  | op =>
    let r := aluResult op (wReg f (mwDst w)) a (mwImm w) { z := f.z, n := f.n, c := f.c }
    let f := { f with z := r.2.z, n := r.2.n, c := r.2.c }
    match r.1 with
    | some v => { f with w := tabSet f.w (mwDst w) v }
    | none => f

/-! ## Thresholds, admission and phases (R244) -/

/-- R342: the pin set an entry names. -/
def ePin (e : Ent) : Option Nat := if ePinned e then some (eArg1 e % 65536) else none

/-- R345: the base of a work item, formed at its first GATE THR for the entries it senses. -/
def takeBase (d eid : Nat) (m : Mx) : List Int × Mx :=
  match ent m eid with
  | none => ([], m)
  | some e =>
    match e.base with
    | some b => (b, m)
    | none =>
      let r := formBase d (wRow e) (elapsed m (eArg0 e)) (ePin e) m
      (r.1.1, setEnt r.2 eid { e with base := some r.1.1, bin := r.1.2 })

/-- The other entries of a grouped sense take the base of the first (R345). -/
def shareBase (b : List Int) (a eid : Nat) (m : Mx) : Mx :=
  match ent m eid with
  | some e => setEnt m eid { e with base := some b, bin := a }
  | none => m

/-- GATE THR. -/
def gateThr (d : Nat) (m : Mx) : Mx :=
  let give (l : List Int) (m : Mx) : Mx := setFrame d { (die m d).frame with thr := true, offs := l } m
  match (die m d).cur with
  | some (.reread _ _ _ _ offs) => give offs m
  | some (.group (e :: es)) =>
    let r := takeBase d e m
    give r.1 (each es (shareBase r.1 (((ent r.2 e).map (·.bin)).getD 0)) r.2)
  | some i =>
    (match itemEid d i with
     | some e =>
       let r := takeBase d e m
       let m := match i, (die r.2 d).spec with
         | .spec, some a => setDie r.2 d { die r.2 d with spec := some { a with base := some r.1, bin := ((ent r.2 e).map (·.bin)).getD 0 } }
         | _, _ => r.2
       give r.1 m
     | none => give [] m)
  | none => m

/-- R429: class of an item's phases. -/
def itemClass (m : Mx) (d : Nat) : Nat :=
  match (die m d).cur with
  | some .spec => 0
  | some .recover => 3
  | some (.restart _) => 3
  | some (.write eid) =>
    if eid < 2 ^ 33 then sysClass (eid - 2 ^ 32) else ringClass m (eidRing (eid - 2 ^ 33))
  | _ =>
    match seenItem (die m d) with
    | some i => ((itemRing m d i).map (ringClass m)).getD 3
    | none => 3

/-- R167, R432: the launch time that a request of an item carries. -/
def itemLaunch (m : Mx) (d : Nat) (f : Frame) : Option Nat :=
  match (die m d).cur with
  | some (.entry eid) =>
    (match ent m eid with
     | some e => if eTimed e && !f.launched && !(eOpc e == 4 && !e.dst) then some (eLaunch e) else none
     | none => none)
  | _ => none

/-- GATE ADMIT: a read-ahead's phase has been admitted already (R216, R434). -/
def gateAdmit (d kind : Nat) (m : Mx) : Mx :=
  let f := (die m d).frame
  if (die m d).cur = some .spec ∧ m.tr.holds.any (fun h => h.die == specHoldDie d) then
    setFrame d { f with admission := true }
      { m with tr := { m.tr with holds := m.tr.holds.map (fun h =>
        if h.die = specHoldDie d then { h with die := d, req := h.req.map (fun q => { q with die := d, once := false }) } else h) } }
  else admitRequest d kind (itemClass m d) (itemLaunch m d f) ((die m d).cur.any isJournal) (setFrame d { f with admission := false } m)

/-- R216: the conditions of a read-ahead that the context itself sees. -/
def specMay (m : Mx) (d eid : Nat) (e : Ent) : Bool :=
  (eOpc e == 1) && eFlag e 1 && (specHold m (dieCh d) != 0) && ((eRow e % 2 ^ pgBits m d + 1) < ppb m d) &&
  ((die m d).queue == [.entry eid]) && (die m d).wait.isEmpty && (die m d).ahead.isEmpty && (die m d).spec.isNone &&
  ((die m d).held.isNone) && (die m d).aside.isNone && ((die m d).state == 0) && groupOpen m (dieGrp d) && lockLets m d .spec &&
  isHostEid eid

/-- Codewords of a page-set of a read-ahead, and the lines they need. -/
def specSlots (e : Ent) : List Nat := (planeList (ePlanes e)).flatMap (fun p => (List.range 4).map (4 * p + ·))
def specLines (e : Ent) : Nat := ((specSlots e).length * frameLen (eSrcProf e) + 127) / 128

/-- R191, R216: the READ class would grant a read-ahead's reservation at once. -/
def specRoom (m : Mx) (e : Ent) : Bool := grantOk m 0 (specLines e) && !m.sb.wait.any (fun r => r.cls == 0)

/-- R216, R434: where the context and the stage buffer allow a read-ahead, Transit is asked for its sense phase, which it tries once,
at the boundary at which the READ's data-out begins: the READ's frame waits for that boundary (log entry 148). -/
def askSpec (d eid : Nat) (e : Ent) (m : Mx) : Mx :=
  if !specMay m d eid e || !specRoom m e then m
  else
    let p := psetOf m (dieCh d)
    let pr := profileOf m p 1
    let q : TrReq := { die := specHoldDie d, kind := 1, cls := 0, rail := railOf m (dieCh d), segs := pr.1, made := m.tr.slot,
                       ord := m.tr.ord, bad := if pr.2 then some (p, 1) else none, once := true }
    setFrame d { (die m d).frame with asks := true } { m with tr := { m.tr with reqs := m.tr.reqs ++ [q], ord := m.tr.ord + 1 } }

/-- R216: a read-ahead of every codeword of the next page becomes a work item and begins, before the READ's data-out goes on. -/
def startSpec (d eid : Nat) (e : Ent) (m : Mx) : Mx :=
  let x : Ent := { raw := e.raw + BitVec.ofNat 512 (2 ^ 64), stage := .placed, arr := true,
                   cws := (specSlots e).map (fun _ => .pending), slots := specSlots e, serves := eid }
  let m := giveResv m { owner := .spec d, cls := 0, n := specLines e } (lowLines m (specLines e))
  let a : Ahead := { row := eRow e + 1, planes := ePlanes e, arg0 := eArg0 e, arg1 := eArg1 e, profile := eProfile e,
                     ring := eidRing eid }
  let m := setEnt m (specEid d) x
  setDie m d { die m d with
    spec := some a, cancel := false, adopt := false, holdx := false, cur := some .spec,
    aside := some (.entry eid, (die m d).frame),
    frame := { active := true, pc := kindAddr m (dieGrp d) 11, ahead := true } }

/-- R216: a READ's frame that waits for Transit's answer has it once its boundary is past: the read-ahead starts where it was
admitted and everything still allows it, and the READ goes on in any case. -/
def specTurn (d : Nat) (m : Mx) : Mx :=
  let f := (die m d).frame
  if !f.asks || m.tr.reqs.any (fun q => q.die == specHoldDie d) then m
  else
    let m := setFrame d { f with asks := false } m
    match (die m d).cur with
    | some (.entry eid) =>
      (match ent m eid with
       | some e =>
         if m.tr.holds.any (fun h => h.die == specHoldDie d) && specMay m d eid e && specRoom m e then startSpec d eid e m
         else withdrawHold (specHoldDie d) m
       | none => withdrawHold (specHoldDie d) m)
    | _ => withdrawHold (specHoldDie d) m

/-- R196: the entries of a context's item whose place is given up: at the last byte of a page image in the stage buffer, or, of an
operation that a status byte judges, at a valid status byte read once the die has been found ready. -/
def releasePlaces (d : Nat) (raw : Nat) (m : Mx) : Mx :=
  let f := (die m d).frame
  let done (eid : Nat) : Bool := match ent m eid with
    | none => false
    | some e =>
      if suspendable e || (eOpc e == 4 && e.dst) then f.found && f.shown
      else if eOpc e = 5 then decide (eLen e ≤ raw)
      else !e.cws.isEmpty && (List.range e.cws.length).all e.seen.contains
  each (((((die m d).cur.map itemEntries).getD []).filter done)) (fun e m => leavePlace d (.entry e) m) m

/-- GATE PHASE of one of the Busy codes: the operation's limit and judgement begin (R202, R229). -/
def busyPhase (d : Nat) (op : Op) (m : Mx) : Mx :=
  let f := (die m d).frame
  startBusy d { op := op } (firstPoll m (dieCh d) op)
    (setDie m d { die m d with
      frame := { f with cmds := false, conf := false, due := false, rbr := false, found := false, shown := false }, mark := none })

/-- GATE PHASE 5: the die has been found ready. A read-ahead may be asked for (05_channel_engine.md R216), an orphan ends, with a
record where a program or erase has failed (03_queues.md R124), and the place of an entry whose status has been read is free. -/
def readyPhase (d : Nat) (m : Mx) : Mx :=
  let m := endHold d (setDie m d { die m d with busy := none, frame := { (die m d).frame with found := true } })
  match (die m d).cur with
  | some (.entry eid) => (match ent m eid with | some e => askSpec d eid e (releasePlaces d 0 m) | none => m)
  | some (.orphan row w) =>
    let m := if w = .fullReset then fervonReset d m else m
    stopFrame d (if w = .write ∧ (die m d).frame.status.getLsbD 0 then log m .orphanFailed d row else m)
  | _ => m

/-- GATE PHASE (R202, R229, R244, R426). The values 0, 6 and 9 to 15, to which the table gives no phase, have no effect (log entry
153). -/
def gatePhase (d code : Nat) (m : Mx) : Mx :=
  let c := dieCh d
  let clear (m : Mx) : Mx := setDie m d { die m d with frame := { (die m d).frame with cmds := false, conf := false }, mark := none }
  let m := match (die m d).cur, (die m d).spec with
    | some .spec, some a =>
      if code = 1 ∧ a.at_ = none then setDie m d { die m d with spec := some { a with at_ := some m.md.time } } else m
    | _, _ => m
  match code with
  | 1 => busyPhase d .sense m
  | 2 => busyPhase d .program m
  | 3 => busyPhase d .erase m
  | 4 => busyPhase d .reset m
  | 5 => readyPhase d (clear m)
  | 7 =>
    let m := clear m
    endHold d (setDie m d { die m d with
      busy := none, heldBusy := (die m d).heldBusy.map (fun b => { b with spent := busyTime m b, since := m.md.time }) })
  | 8 =>
    (match (die m d).heldBusy with
     | some b => startBusy d b (firstPoll m c b.op) (clear m)
     | none => clear m)
  | _ => m

/-- GATE ABSENT: every die of the context's target is absent (R197). -/
def gateAbsent (d : Nat) (m : Mx) : Mx :=
  each ((List.range 4).map (fun i => dieOf (dieCh d) (4 * dieTgt d + i))) (fun x m =>
    if (die m x).absent then m
    else
      withDies (dieGrp x) (fun m =>
        let m := setDie m x { die m x with absent := true }
        if (die m x).state = 2 then m else dieDead x 9 m) m) m

/-- R90, R275: GATE FMODE. Only the FERVON kind may report 4; a die that leaves Fervon mode outside its own reset takes
its group back to the standard mode. A value above 4, to which the table gives no mode, has no effect (log entry 153). -/
def gateFmode (d mode : Nat) (m : Mx) : Mx :=
  if mode = 4 then log m .fmodeIgnored d
  else if 4 < mode then m
  else
    let was := (die m d).mode
    let g := dieGrp d
    let m := setDie m d { die m d with mode := mode }
    let reset := match (die m d).cur with
      | some (.entry eid) => (match ent m eid with | some e => eOpc e == 0xB | none => false)
      | _ => false
    if was = 4 ∧ (phy m g).mode = 4 ∧ reset = false then wish g (smode m g, stdRate m g, 0) m else m

/-- The gate action of a word (R244); LAUNCH has acted when the word's cycle was issued. -/
def gateStep (d : Nat) (w : Microword) (m : Mx) : Mx :=
  match mwGate w with
  | 1 => askBus d m
  | 2 => endTenure d (setDie m d { die m d with mark := none })
  | 3 => gateAdmit d (mwGarg w) m
  | 5 => gateThr d m
  | 6 => gatePhase d (mwGarg w) m
  | 7 => setReg m (chOff (dieCh d) (0x140 + 4 * dieCtx d)) (wReg (die m d).frame 0)
  | 8 => gateAbsent d m
  | 9 => gateFmode d (mwGarg w) m
  | _ => m

/-! ## Step 4: the next address (R239, R245–R249) -/

def pcNext (f : Frame) : Nat := (f.pc + 1) % 8192

def goTo (d a : Nat) (m : Mx) : Mx := setFrame d { (die m d).frame with pc := a, waiting := false } m

/-- EXIT (R245). The profile of a resume that has passed its LAUNCH word is that of the operation resumed; without one the EXIT
releases everything (R426). -/
def frameExit (d : Nat) (w : Microword) (m : Mx) : Mx :=
  let x := die m d
  let f := x.frame
  match x.cur with
  | none => stopFrame d m
  | some i =>
    let resumed := i == .resume && mwXcode w == 0 && f.launched
    let hs := m.tr.holds
    let m := yieldFrame d m
    let m := if resumed then overFall { m with tr := { m.tr with holds := hs.filter (fun h => h.die == d) ++ m.tr.holds.filter (fun h => h.die != d) } } else m
    let m := setDie m d { die m d with mark := none, adopt := x.adopt && x.aside.isSome && !f.ahead }
    itemEnded d i (mwXcode w) (mwBimm w) f x.busy m

/-- R249: a WAIT on DUE, when it is first reached, ends the tenure, releases the chip enable and anchors. -/
def waitReached (d : Nat) (w : Microword) (m : Mx) : Mx :=
  if mwCond w = 7 then
    anchorHold d (releaseCe d (endTenure d (setDie m d { die m d with mark := none, frame := { (die m d).frame with waited := true } })))
  else m

/-- A satisfied WAIT goes on; DUE has then been answered. -/
def waitPass (d : Nat) (w : Microword) (m : Mx) : Mx :=
  let f := (die m d).frame
  setFrame d { f with pc := pcNext f, waiting := false, due := f.due && mwCond w != 7 } m

/-- The next-address action of a word. -/
def nextStep (d : Nat) (w : Microword) (m : Mx) : Mx :=
  let f := (die m d).frame
  let c := condC m d f w
  match mwNxt w with
  | 0 => goTo d (pcNext f) m
  | 1 => goTo d (mwTgt w) m
  | 2 => goTo d (if c then mwTgt w else pcNext f) m
  | 3 =>
    if !c then goTo d (pcNext f) m
    else if 8 ≤ f.stack.length then machineCheck d 4 m
    else noteDepth d (f.stack.length + 1) (goTo d (mwTgt w) (setFrame d { f with stack := pcNext f :: f.stack } m))
  | 4 =>
    (match f.stack with
     | a :: t => goTo d a (setFrame d { f with stack := t } m)
     | [] => machineCheck d 5 m)
  | 5 =>
    let m := waitReached d w (setFrame d { f with waiting := true } m)
    if condC m d (die m d).frame w then waitPass d w m else stepAside d w m
  | 6 => goTo d ((mwTgt w + (asrc m d f (mwAsrc w)).toNat % 16) % 8192) m
  | _ => frameExit d w m

/-- Steps 3 and 4; an orphan ends where its die is observed ready (05_channel_engine.md; 03_queues.md R124). -/
def afterCycle (d : Nat) (w : Microword) (m : Mx) : Mx :=
  let m := gateStep d w m
  if (die m d).frame.active then nextStep d w m else m

/-! ## Step 2: the bus cycle (R241) -/

/-- Data-cycle count. -/
def cycCount (f : Frame) (w : Microword) : Nat := if mwBsrc w = 0 then mwCnt w else fld (wReg f (mwBsrc w)) 15 0

/-- The confirm command of a LAUNCH word is issued: the reservation is anchored, a member is LAUNCHED, and a sense
counts, as a read-ahead's where it began as one (R219, R378, R426; 09_seeing.md R354). -/
def launched (d : Nat) (m : Mx) : Mx :=
  let f := (die m d).frame
  let m := anchorHold d (setDie m d { die m d with frame := { f with launched := true, conf := true, cmds := false, launchAt := none }, mark := none })
  let v := viewOf m d
  match (die m d).cur with
  | some (.entry eid) =>
    (match ent m eid with
     | some e =>
       if eOpc e = 2 ∨ eOpc e = 0x11 ∨ (eOpc e = 4 ∧ e.dst) then memberLaunched e d m
       else if eOpc e = 1 ∨ eOpc e = 5 ∨ eOpc e = 0x20 ∨ eOpc e = 4 then senseCount d v.row (planeCount v.planes) f.ahead m
       else m
     | none => m)
  | some (.group _) => senseCount d v.row (planeCount v.planes) false m
  | some (.reread _ _ _ _ _) => senseCount d v.row (planeCount v.planes) false m
  | some (.member _) => senseCount d v.row (planeCount v.planes) false m
  | some .spec =>
    let m := match (die m d).spec with
      | some a => setDie m d { die m d with spec := some { a with at_ := some m.md.time } }
      | none => m
    senseCount d v.row (planeCount v.planes) true m
  | _ => m

/-- Bytes of a raw page that its entry gives, from a stream offset on (04_commands.md R164). -/
def givenBytes (e : Ent) (off n : Nat) : Nat := if eOpc e = 6 then min n (eLen e - off) else n

/-- Where an item's stream pointer starts in its reservation: the parity programs of a close lie one after another. -/
def streamBase (m : Mx) (d : Nat) (e : Ent) : Nat :=
  if eOpc e = 0x11 then
    (match memberOf e d with
     | some (s, p) => (p - 62) * (4 * planeCount (stripe m s).planes) * frameLen (stripe m s).profile
     | none => 0)
  else 0

/-- R241, R452: the bytes of a data-in from a stream offset on, those of a raw page beyond LEN as 0xFF (04_commands.md R164);
whether one was uncorrectable; and the machine once they have been read. -/
def dinRead (m : Mx) (d off n : Nat) : List Byte × Bool × Mx :=
  match (die m d).cur.bind (itemEid d) with
  | none => ([], false, m)
  | some eid =>
    match ent m eid with
    | none => ([], false, m)
    | some e =>
      let k := givenBytes e off n
      let r := resvRead m (resOwner eid) 14 (streamBase m d e + off) k
      (r.1 ++ List.replicate (n - k) 0xFF, r.2.1, r.2.2)

/-- R206: the bytes that a data cycle with `left` still to move may move in its tenure. -/
def mayMove (m : Mx) (d left : Nat) : Nat := min left (burstMax m (dieCh d) - (chan m (dieCh d)).bytes)

/-- R241, R238: what a cycle drives on the flash balls while it is in progress, a data cycle with `left` bytes to move. -/
def driveOf (m : Mx) (d left : Nat) (f : Frame) (w : Microword) : Drive :=
  let src := (wReg f (mwBsrc w)).toNat
  { cyc := mwCyc w, odt := if mwCyc w = 4 ∧ mwOdt w then 1 else 0,
    bytes := match mwCyc w with
      | 1 => [BitVec.ofNat 8 (if mwBsrc w = 0 then mwBimm w else src)]
      | 2 => ((leBytes 5 f.areg.toNat).drop (mwBsrc w)).take (mwCnt w)
      | 3 => (dinRead m d f.sptr.toNat (mayMove m d left)).1
      | 6 => (leBytes 4 src).take (mwCnt w)
      | _ => [] }

/-- R202: the suspend command has gone out: the die's first poll falls due one IVAL after it. -/
def suspendSent (d : Nat) (m : Mx) : Mx :=
  let x := die m d
  if x.cur = some .suspend ∧ x.frame.waited = false then
    setDie m d { x with busy := x.busy.map (fun b => { b with next := m.md.time + pollIval m (dieCh d) }) }
  else m

/-- A bus cycle begins. -/
def issue (d : Nat) (w : Microword) (m : Mx) : Mx :=
  let f := (die m d).frame
  let y := mwCyc w
  if y = 0 ∨ ((y = 3 ∨ y = 4) ∧ cycCount f w = 0) then afterCycle d w m
  else
    let left := if y = 3 ∨ y = 4 then cycCount f w else 0
    let m := setChan m (dieCh d) { chan m (dieCh d) with drive := driveOf m d left f w }
    let m := if y = 1 then suspendSent d m else m
    setFrame d { f with cyc := some { left := left } } m

/-- R432: Meridian time of a die's timed launch, and the LAUNCH of its entry. -/
def holdInstant (m : Mx) (d : Nat) : Option (Nat × Nat) :=
  match m.tr.holds.find? (fun h => h.die == d && h.anchor.isNone) with
  | some h => h.at_.map (fun t => (t, (h.req.bind (·.launch)).getD t))
  | none => none

/-- R422, R432: Meridian as launches take it: the slot timer counts on while MREF is lost. -/
def launchTime (m : Mx) : Nat := if m.md.hold then 1000 * m.tr.slot else m.md.time

/-- The LAUNCH word's cycle is issued now, `late` ns after its instant. -/
def launchNow (d : Nat) (w : Microword) (late : Option Nat) (m : Mx) : Mx :=
  let m := match late with
    | some n => lateLaunch n d m
    | none => m
  issue d w (launched d m)

/-- R207, R432: a frame has reached its LAUNCH word. A tenure is not kept where the PHY holds the channel's grants (07_phy_calibration.md
R288). -/
def atLaunch (d : Nat) (w : Microword) (m : Mx) : Mx :=
  match holdInstant m d with
  | none => launchNow d w none m
  | some (t, l) =>
    let now := launchTime m
    let held := (chan m (dieCh d)).held
    if t < now + 40 ∧ m.md.hold = false ∧ held = false then launchNow d w (some (now - l)) m
    else
      let keep := decide (t ≤ now + 1000) && decide (t ≤ (chan m (dieCh d)).since + 1100) && !held
      let m := setFrame d { (die m d).frame with launchAt := some t } m
      if keep then m else releaseCe d (endTenure d m)

/-- Run the word at the frame's program counter: steps 1 to 4, or up to the start of its bus cycle. -/
def runWord (d : Nat) (m : Mx) : Mx :=
  let x := die m d
  let w := wordAt m (dieGrp d) x.frame.pc
  let mark := if mwCyc w = 1 ∧ x.mark = none then some x.frame else x.mark
  let f := aluStep m d x.frame w
  let f := { f with waitAt := m.md.time, cmds := f.cmds || mwCyc w == 1 }
  let m := setDie m d { x with frame := f, mark := mark }
  if mwGate w = 4 then atLaunch d w m else issue d w m

/-- A frame may run on (R236): it is blocked in no WAIT whose condition is false, in no bus cycle, and waits for no bus, launch
or read-ahead. -/
def runnable (m : Mx) (d : Nat) : Bool :=
  let f := (die m d).frame
  f.active && f.cyc.isNone && !f.regain && f.launchAt.isNone && !f.asks && !(cluster m (dieGrp d)).halted &&
  (!f.waiting || condC m d f (wordAt m (dieGrp d) f.pc))

/-- R236: within a thread the frame whose context holds the bus runs first, else the runnable one of the highest context. -/
def hasTurn (m : Mx) (d : Nat) : Bool :=
  let l := ((List.range 16).map (dieOf (dieCh d))).filter (runnable m)
  runnable m d && (holdsBus m d || l.all (fun x => !holdsBus m x && decide (dieCtx x ≤ dieCtx d)))

/-- One word of a next-address form: a bad word raises the machine check whatever its form. -/
def stepForm (nxt d : Nat) (m : Mx) : Mx :=
  let m := specTurn d m
  if !hasTurn m d || (die m d).frame.waiting then m
  else match fetchFault m d with
    | some c => machineCheck d c m
    | none => if mwNxt (wordAt m (dieGrp d) (die m d).frame.pc) = nxt then runWord d m else m

/-! ## What a finished cycle does (R241, R247) -/

/-- A frame of an item's stream: its place in the planes and pages the item spans. -/
def frameAt (fs : List FrameTo) (n : Nat) : Option FrameTo :=
  let s := span fs
  let k := s.2.2 + 1 - s.2.1
  match s.1[n / k]? with
  | some p => fs.find? (fun f => f.slot == 4 * p + s.2.1 + n % k)
  | none => none

/-- A whole frame has arrived: it joins the decode order, unless it is one of a soft step's senses, which are decoded
together when the re-read ends. -/
def frameDone (d : Nat) (t : FrameTo) (m : Mx) : Mx :=
  let r := match (die m d).cur with
    | some (.reread _ _ s k _) => (s, k)
    | _ => (0, 0)
  match ent m t.eid with
  | none => m
  | some e =>
    let m := setEnt m t.eid { e with seen := insN e.seen t.cw }
    if r.2 ≠ 0 then m else sendCw 0 t.eid { eid := t.eid, cw := t.cw, step := r.1, grp := dieGrp d } m

/-- Bytes of a data-out at a stream offset, frame by frame. -/
def takeBytes : Nat → Nat → List FrameTo → Nat → Bool → Nat → List Byte → Mx → Mx
  | 0, _, _, _, _, _, _, m => m
  | n + 1, d, fs, len, raw, off, l, m =>
    if l = [] then m
    else
      let o := off % len
      let part := l.take (len - o)
      let m := match frameAt fs (off / len) with
        | none => m
        | some t =>
          (match ent m t.eid with
           | none => m
           | some e =>
             let m := resvWrite m (resOwner t.eid) (frameOff e t.cw t.x + o) part
             if o + part.length = len ∧ raw = false then frameDone d t m else m)
      takeBytes n d fs len raw (off + part.length) (l.drop part.length) m

/-- R241: DOUT's bytes. -/
def doutBytes (d : Nat) (raw : Bool) (off : Nat) (l : List Byte) (m : Mx) : Mx :=
  match (die m d).cur with
  | none => m
  | some i =>
    match itemEid d i with
    | none => m
    | some eid =>
      let fs := itemFrames m d i
      let m := match i, (die m d).spec with
        | .spec, some a => setDie m d { die m d with spec := some { a with out := true } }
        | _, _ => m
      match ent m eid with
      | none => m
      | some e =>
        if fs = [] then resvWrite m (resOwner eid) (streamBase m d e + off) l
        else takeBytes (l.length / frameLen (wProf e) + 2) d fs (frameLen (wProf e)) raw off l m

/-- R241, R452: DIN's bytes leave the reservation for the die; an uncorrectable one of a raw page is recorded for its entry, which
it names by ring and slot. -/
def dinBytes (d off n : Nat) (m : Mx) : Mx :=
  let r := dinRead m d off n
  let m := setChan r.2.2 (dieCh d) { chan r.2.2 (dieCh d) with drive := { cyc := 3, bytes := r.1 } }
  match (die m d).cur.bind (itemEid d) with
  | none => m
  | some eid =>
    match ent m eid with
    | none => m
    | some e => if r.2.1 && eOpc e == 6 then log m .rawUe (eidRing eid) (eidIdx eid % slots m (eidRing eid)) else m

/-- R206, R247: BURST_MAX has been reached with `left` bytes still to move. -/
def burstCut (d left : Nat) (m : Mx) : Mx :=
  let m := endTenure d m
  let f := (die m d).frame
  let m := setFrame d { f with cyc := none, regain := true, cut := if left = 0 then none else some (left, f.stack.length) } m
  askBus d m

/-- A DIN or DOUT has moved what its tenure allows. -/
def dataDone (d : Nat) (w : Microword) (inp : CycIn) (left : Nat) (m : Mx) : Mx :=
  let c := dieCh d
  let n := mayMove m d left
  let off := (die m d).frame.sptr.toNat
  let m := if mwCyc w = 3 then dinBytes d off n m else doutBytes d (mwRaw w) off (slice inp.data 0 n) m
  let m := setChan m c { chan m c with bytes := (chan m c).bytes + n }
  let f := (die m d).frame
  let m := setFrame d { f with sptr := f.sptr + BitVec.ofNat 24 n, cmds := f.cmds && mwCyc w == 3 } m
  let m := if mwCyc w = 4 then releasePlaces d (off + n) (setDie m d { die m d with mark := none }) else m
  if n < left then burstCut d (left - n) m
  else
    let full := decide (burstMax m c ≤ (chan m c).bytes)
    let m := afterCycle d w (setFrame d { (die m d).frame with cyc := none } m)
    if full && holdsBus m d && (die m d).frame.active then burstCut d 0 m else m

/-- R203, R240: a STAT cycle. -/
def statDone (inp : CycIn) (f : Frame) : Frame :=
  let a := inp.data.getD 0 0
  let b := inp.data.getD 1 0
  { f with status := b, ssame := a == b, srdy := (a == b) && b.getLsbD 6, cmds := false,
           shown := f.shown || ((a == b) && b.getLsbD 6) }

/-- A FIN cycle of `n` bytes. -/
def finDone (inp : CycIn) (n : Nat) (f : Frame) : Frame :=
  { f with feat := word (leNat (patch (leBytes 4 f.feat.toNat) 0 (slice inp.data 0 n))), cmds := false }

/-- BUS_CYCLE_DONE: the PHY has finished the cycle in progress and DLY has elapsed. A PHY cycle is given the register BSRC
names, W0 for BSRC 0 (07_phy_calibration.md R274, log entry 132); where it has met a PHY fault that cut the tenure, the frame stays
as the cut has left it (R284 there). -/
def cycleDone (d : Nat) (inp : CycIn) (m : Mx) : Mx :=
  let x := die m d
  let f := x.frame
  match f.cyc with
  | none => m
  | some c =>
    if !f.active || (cluster m (dieGrp d)).halted then m
    else
      let w := wordAt m (dieGrp d) f.pc
      let done (f : Frame) (m : Mx) : Mx := afterCycle d w (setFrame d { f with cyc := none } m)
      match mwCyc w with
      | 3 => dataDone d w inp c.left m
      | 4 =>
        if inp.dqs then eyeJudge (dieCh d) inp.eyes (dataDone d w inp c.left m)
        else phyFault (dieGrp d) [dieCh d % 4] .noDqs m
      | 5 => done (statDone inp f) (releasePlaces d 0 (setDie m d { x with mark := none, frame := statDone inp f }))
      | 6 => done { f with cmds := false } (setDie m d { x with mark := none })
      | 7 => done (finDone inp (mwCnt w) f) (setDie m d { x with mark := none })
      | 8 => done f (assertCe d m)
      | 9 => done f (releaseCe d m)
      | 10 =>
        let m := phyCycle d (mwBimm w) inp.set (wReg f (mwBsrc w)) m
        if (die m d).frame.regain && !f.regain then m else done f m
      | _ => done f m

/-! ## Waits (R248) -/

/-- A blocked frame's word. -/
def waitWord (m : Mx) (d : Nat) : Option Microword :=
  let f := (die m d).frame
  if f.active && f.waiting && !f.regain && !(cluster m (dieGrp d)).halted then some (wordAt m (dieGrp d) f.pc) else none

/-- WAIT_SATISFIED: the frame goes on at its turn (R236). -/
def waitDone (d : Nat) (m : Mx) : Mx :=
  match waitWord m d with
  | some w => if hasTurn m d then waitPass d w m else m
  | none => m

/-- R248: the timeout of a WAIT in ns. -/
def waitLimit (m : Mx) (d : Nat) (w : Microword) : Nat :=
  if mwTval w = 0 then 100000 * fld (reg m (mcOff (dieGrp d) 0x10)) 15 0
  else mwTval w * [100, 10000, 1000000, 100000000].getD (mwTunit w) 0

/-- WAIT_TIMEOUT: never on GRANT or ADMIT (R249). -/
def waitTimeout (d : Nat) (m : Mx) : Mx :=
  match waitWord m d with
  | some w =>
    let f := (die m d).frame
    if mwCond w = 4 ∨ mwCond w = 5 ∨ (die m d).pfErase = true ∨ m.md.time < f.waitAt + waitLimit m d w then m else goTo d (mwTgt w) m
  | none => m

/-! ## Bus grants and timed launches (R204, R207, R210, R247, R432) -/

/-- R247: CHGCOL has returned to the cut word, which goes on for its remaining count. -/
def resumeCut (d : Nat) (m : Mx) : Mx :=
  let f := (die m d).frame
  match f.cut with
  | some (l, n) =>
    if f.stack.length = n ∧ f.regain = false ∧ f.cyc = none then
      setFrame d { f with cut := none, cyc := some { left := l } }
        (setChan m (dieCh d) { chan m (dieCh d) with drive := driveOf m d l f (wordAt m (dieGrp d) f.pc) })
    else m
  | none => m

/-- BUS_GRANT: the highest-numbered context that requests gets the bus (R204); a disabled channel has no bus activity (02_boundary.md
R85). -/
def busGrant (c : Nat) (m : Mx) : Mx :=
  let g := chan m c
  if g.tenure || g.freeze || g.held || !chEnabled m c then m
  else match topReq (g.pend.filter (fun q => !(die m (dieOf c q.ctx)).frame.readmit)) with
    | none => m
    | some q =>
      let d := dieOf c q.ctx
      let m := noteWait m c q
      busGranted d (takeBus (busForget d m) c q.ctx)

/-- LAUNCH_PREREQUEST (R207). -/
def launchAsk (d : Nat) (m : Mx) : Mx :=
  match (die m d).frame.launchAt with
  | some t => if t ≤ launchTime m + 1000 ∧ holdsBus m d = false then askBus d m else m
  | none => m

/-- R207, R432: how late a launch issued now is: on time within 20 ns of an instant that is its entry's LAUNCH, where the bus was
granted at least 40 ns before it and MREF is not lost. -/
def lateness (m : Mx) (d t l : Nat) : Option Nat :=
  let now := launchTime m
  if m.md.hold = false ∧ t = l ∧ (chan m (dieCh d)).since + 40 ≤ t ∧ now ≤ t + 20 then none else some (now - l)

/-- TIMED_LAUNCH (R432): the MREF edges bring Meridian to the instant, or it has passed. -/
def timedLaunch (d : Nat) (m : Mx) : Mx :=
  match (die m d).frame.launchAt with
  | none => m
  | some t =>
    if launchTime m + 1000 < t then m
    else
      let m := edgesTo t 128 m
      let w := wordAt m (dieGrp d) (die m d).frame.pc
      if (die m d).frame.launchAt.isNone || !holdsBus m d || (chan m (dieCh d)).held || (cluster m (dieGrp d)).halted ||
         decide (launchTime m / 1000 < t / 1000) then m
      else launchNow d w (lateness m d t (((holdInstant m d).map (·.2)).getD t)) m

/-! ## The control stores (R252, R253, R261, R264) -/

/-- Every frame of a group is idle. -/
def groupQuiet (m : Mx) (g : Nat) : Bool := (groupDies g).all (fun d => !(die m d).frame.active)

/-- Every work item of a group has run to its EXIT, the suspended ones too (R261 steps 1 and 2). -/
def groupDone (m : Mx) (g : Nat) : Bool := groupQuiet m g && (groupDies g).all (fun d => (die m d).held.isNone)

/-- R253 step 6, R261 step 4: an item that comes before all else of the contexts that run it. -/
def runFirst (i : Item) (ds : List Nat) (m : Mx) : Mx :=
  each ds (fun d m => setDie m d { die m d with ahead := i :: (die m d).ahead.filter (fun j => j != i) }) m

/-- Every thread of a group has its GRP_INIT kind to run (R253, R261), that of a disabled channel apart (02_boundary.md R85). -/
def initThreads (g : Nat) (m : Mx) : Mx :=
  runFirst .grpInit (((groupChans g).filter (chEnabled m)).map (fun c => dieOf c 0)) m

/-- R261 steps 3 and 4: the new image fills the store, and initialisation comes before the work that was kept. -/
def finishLoad (g : Nat) (i : Img) (m : Mx) : Mx :=
  let m := loadImg g i m
  let m := setCluster m g { cluster m g with quiesce := false, load := false, next := none }
  let m := if i.reinit then runFirst .dieInit ((groupDies g).filter (fun d => (die m d).state != 2)) m else m
  initThreads g m

/-- CONTROL_STORE_SCRUB: words upset since the last pass, and the words that fail parity (R252). -/
def storeScrub (g : Nat) (ups : List (Nat × Microword)) (m : Mx) : Mx :=
  let k := cluster m g
  if fld (reg m (mcOff g 0x18)) 15 0 = 0 then m
  else
    let st := (ups.filter (fun u => u.1 < 8192)).foldl (fun t u => tabSet t u.1 u.2) k.store
    let bad := (st.filter (fun x => !(parityHi x.2 && parityLo x.2))).map (·.1)
    let new := bad.filter (fun a => !k.poison.contains a)
    let m := setCluster m g { k with store := st, poison := new.foldl insN k.poison }
    if new = [] then m else raise m 275

/-- POISON_REWRITE (R252). -/
def poisonRewrite (g a : Nat) (m : Mx) : Mx :=
  let k := cluster m g
  if !k.poison.contains a || !domeRuns m then m
  else
    let w := match k.img with
      | some i => i.words.getD a 0
      | none => 0
    setCluster m g { k with store := tabSet k.store a w, poison := delN k.poison a, repairs := satInc k.repairs 0xFFFF }

/-- R261, step 1: Dome quiesces a group for a new image. -/
def quiesce (g : Nat) (i : Img) (m : Mx) : Mx :=
  let m := setCluster m g { cluster m g with quiesce := true, next := some i }
  each (groupDies g) cancelAhead m

/-- R260: no more than 4 distinct images are loaded once a group has an image, the images count that other groups still run while
ACT replaces them one by one (DESIGN CHOICE, log entry 161). -/
def fitsStores (m : Mx) (g : Nat) (i : Img) : Bool :=
  let l := ((List.range 32).filter (fun x => x != g)).filterMap (imgOf m)
  decide ((i :: l).eraseDups.length ≤ 4)

/-- R260, R510: the groups whose turn a replacement would come to; one that would load a fifth image keeps the image it has,
with its record (log entry 128). -/
def replaceFrom : List (Nat × Img) → Mx → Mx
  | [], m => { m with mc := { m.mc with todo := [] } }
  | (g, i) :: t, m =>
    if fitsStores m g i then quiesce g i { m with mc := { m.mc with todo := t } }
    else replaceFrom t (log m .imgRefused g 6 i.iver.toNat)

/-- 14_dome_nightlog.md R510: the next group whose image an UPDATE replaces. -/
def nextReplace (m : Mx) : Mx := replaceFrom m.mc.todo m

/-- GROUP_IDLE: the new image is loaded and work resumes (R261); while a reload is due the load pauses (R256). -/
def groupIdle (g : Nat) (m : Mx) : Mx :=
  let k := cluster m g
  match k.next with
  | some i =>
    if !k.quiesce || !groupDone m g || k.halted || !domeRuns m then m
    else if m.mc.halts ≠ [] then setCluster m g { k with load := true }
    else nextReplace (finishLoad g i m)
  | none => m

/-- R256: the loads that a reload has held up go on after it. -/
def pausedLoads (m : Mx) : Mx :=
  if m.mc.halts ≠ [] then m else each ((List.range 32).filter (fun g => (cluster m g).load)) groupIdle m

/-- GROUP_RELOAD_DONE: Dome has reloaded the store of the group that halted first; held channel resets run, and each thread has
its GRP_INIT to run (R253, R256). -/
def reloadDone (g : Nat) (m : Mx) : Mx :=
  let k := cluster m g
  if !k.halted || !domeRuns m || m.mc.halts.head?.any (fun x => x != g) then m
  else
    let m := match k.img with
      | some i => loadImg g i m
      | none => m
    let m := setCluster m g { cluster m g with halted := false }
    let m := { m with mc := { m.mc with halts := m.mc.halts.filter (fun x => x != g) } }
    let m := each (groupChans g) (fun c m => if (chan m c).resetDue then chReset c m else m) m
    pausedLoads (initThreads g m)

/-- MC_IDATA0: the capture of the addressed word (R264). -/
def idataRead (m : Mx) : Mx :=
  let a := reg m mcIaddrOff
  let w := wordAt m (fld a 20 16) (fld a 12 0)
  answer { m with mc := { m.mc with cap := w } } (w.extractLsb' 0 32)

/-! ## Registers (R263–R266) -/

/-- Reads of the MC block, by offset within it. -/
def mcRead (m : Mx) (k : Nat) : Word :=
  if k = 0 then reg m mcIaddrOff
  else if k = 4 then m.mc.cap.extractLsb' 0 32
  else if k = 8 then m.mc.cap.extractLsb' 32 32
  else if k = 0xC then m.mc.cap.extractLsb' 64 32
  else if k = 0x10 then m.mc.cap.extractLsb' 96 32
  else if 0x1000 ≤ k ∧ k < 0x1400 then
    (let g := (k - 0x1000) / 0x20
     let c := cluster m g
     match (k - 0x1000) % 0x20 with
     | 0x00 => word (bitAt c.quiesce 31 + bitAt c.load 30)
     | 0x04 => word (bitAt c.halted 31 + bitAt (groupQuiet m g) 30 + bitAt (!c.poison.isEmpty) 29 + 2 ^ 20 * c.sdepth)
     | 0x08 => c.mchk
     | 0x0C => word (iverOf m g)
     | 0x10 => reg m (mcOff g 0x10)
     | 0x14 => word (65536 * c.mchks + c.repairs)
     | 0x18 => reg m (mcOff g 0x18)
     | _ => 0)
  else 0

/-- Writes of the MC block, by offset within it. -/
def mcWrite (k : Nat) (v : Word) (m : Mx) : Mx :=
  if k = 0 then setReg m mcIaddrOff (v &&& 0x001F1FFF)
  else if 0x1000 ≤ k ∧ k < 0x1400 then
    (let g := (k - 0x1000) / 0x20
     match (k - 0x1000) % 0x20 with
     | 0x08 => if bit v 31 then setCluster m g { cluster m g with mchk := (cluster m g).mchk &&& 0x7FFFFFFF } else m
     | 0x10 => checkedWrite (fld v 15 0 != 0) (mcOff g 0x10) 0xFFFF 0 v m
     | 0x18 => setReg m (mcOff g 0x18) (v &&& 0xFFFF)
     | _ => m)
  else m

/-! ## Meanings -/

/-- SEQ (R239). -/
def execSeq (ch ctx : Nat) (s : State) : Res := act s (onlyIf (isCtx ch ctx) (stepForm 0 (dieOf ch ctx)))

/-- JMP (R239). -/
def execJmp (ch ctx : Nat) (s : State) : Res := act s (onlyIf (isCtx ch ctx) (stepForm 1 (dieOf ch ctx)))

/-- BR (R239). -/
def execBr (ch ctx : Nat) (s : State) : Res := act s (onlyIf (isCtx ch ctx) (stepForm 2 (dieOf ch ctx)))

/-- CALL of the microcode (R246). -/
def execMicroCall (ch ctx : Nat) (s : State) : Res := act s (onlyIf (isCtx ch ctx) (stepForm 3 (dieOf ch ctx)))

/-- RET (R246): a return to a cut DIN or DOUT lets it go on (R247). -/
def execRet (ch ctx : Nat) (s : State) : Res :=
  act s (onlyIf (isCtx ch ctx) (fun m => resumeCut (dieOf ch ctx) (stepForm 4 (dieOf ch ctx) m)))

/-- WAIT (R248). -/
def execWait (ch ctx : Nat) (s : State) : Res := act s (onlyIf (isCtx ch ctx) (stepForm 5 (dieOf ch ctx)))

/-- WAIT_SATISFIED (R248). -/
def execWaitSatisfied (ch ctx : Nat) (s : State) : Res := act s (onlyIf (isCtx ch ctx) (waitDone (dieOf ch ctx)))

/-- WAIT_TIMEOUT (R248). -/
def execWaitTimeout (ch ctx : Nat) (s : State) : Res := act s (onlyIf (isCtx ch ctx) (waitTimeout (dieOf ch ctx)))

/-- DISP (R239). -/
def execDisp (ch ctx : Nat) (s : State) : Res := act s (onlyIf (isCtx ch ctx) (stepForm 6 (dieOf ch ctx)))

/-- EXIT (R245). -/
def execExit (ch ctx : Nat) (s : State) : Res := act s (onlyIf (isCtx ch ctx) (stepForm 7 (dieOf ch ctx)))

/-- BUS_CYCLE_DONE (R241). A RET's own cycle may return to a cut word (R247). -/
def execBusCycleDone (ch ctx : Nat) (inp : CycIn) (s : State) : Res :=
  act s (onlyIf (isCtx ch ctx) (fun m => resumeCut (dieOf ch ctx) (cycleDone (dieOf ch ctx) inp m)))

/-- BUS_GRANT (R204). -/
def execBusGrant (ch : Nat) (s : State) : Res := act s (onlyIf (decide (ch < 128)) (busGrant ch))

/-- LAUNCH_PREREQUEST (R207). -/
def execLaunchPrerequest (ch ctx : Nat) (s : State) : Res := act s (onlyIf (isCtx ch ctx) (launchAsk (dieOf ch ctx)))

/-- TIMED_LAUNCH (R432). -/
def execTimedLaunch (ch ctx : Nat) (s : State) : Res := act s (onlyIf (isCtx ch ctx) (timedLaunch (dieOf ch ctx)))

/-- CONTROL_STORE_SCRUB (R252). -/
def execControlStoreScrub (grp : Nat) (upsets : List (Nat × Microword)) (s : State) : Res :=
  act s (onlyIf (isGrp grp) (storeScrub grp upsets))

/-- POISON_REWRITE (R252). -/
def execPoisonRewrite (grp addr : Nat) (s : State) : Res := act s (onlyIf (isGrp grp) (poisonRewrite grp addr))

/-- IDATA0_READ (R264). -/
def execIdata0Read (s : State) : Res := act s (access 0x600004 false idataRead)

end Sys2Proof.Machine
end

