-- ==== Sys2Proof/Machine/Operands.lean ====
section
/-! DEFINITION. The operand forms of an entry: the checks of 03_queues.md R129 and 04_commands.md R148–R177, and the
size of the reservation it takes (R190). -/

namespace Sys2Proof.Machine

/-! ## Fields by opcode (R148) -/

/-- The fields of an entry that R148 names. -/
inductive Fd where
  | die | planes | row | col | ncw | dptr | mptr | len | stripe | spos | profile | launch | arg0 | arg1
  deriving DecidableEq, Repr

def allFds : List Fd := [.die, .planes, .row, .col, .ncw, .dptr, .mptr, .len, .stripe, .spos, .profile, .launch, .arg0, .arg1]

/-- R127: byte offset of a field. -/
def Fd.off : Fd → Nat
  | .die => 0x04 | .planes => 0x06 | .row => 0x08 | .col => 0x0C | .ncw => 0x0E | .dptr => 0x10 | .mptr => 0x18
  | .len => 0x20 | .stripe => 0x24 | .spos => 0x26 | .profile => 0x27 | .launch => 0x28 | .arg0 => 0x30 | .arg1 => 0x34

/-- R127: size of a field in bytes. -/
def Fd.size : Fd → Nat
  | .die | .planes | .col | .ncw | .stripe => 2
  | .row | .len | .arg0 | .arg1 => 4
  | .dptr | .mptr | .launch => 8
  | .spos | .profile => 1

def eFd (e : Ent) (f : Fd) : Nat := eBits e f.off f.size

/-- R148: fields used. -/
def fdsOf (o : Nat) : List Fd :=
  match o with
  | 0x01 => [.die, .planes, .row, .col, .ncw, .dptr, .mptr, .len, .profile, .launch, .arg0, .arg1]
  | 0x02 => [.die, .planes, .row, .ncw, .dptr, .mptr, .len, .stripe, .spos, .profile, .launch, .arg1]
  | 0x03 => [.die, .planes, .row, .launch]
  | 0x04 => [.die, .planes, .row, .ncw, .dptr, .stripe, .spos, .profile, .launch, .arg0, .arg1]
  | 0x05 => [.die, .planes, .row, .col, .dptr, .len, .launch, .arg0, .arg1]
  | 0x06 => [.die, .planes, .row, .dptr, .len, .launch, .arg1]
  | 0x08 => [.die, .row, .dptr, .len, .arg0]
  | 0x09 => [.die, .arg0, .arg1]
  | 0x0A => [.die, .dptr, .len, .arg0]
  | 0x0B => [.die, .arg0]
  | 0x10 => [.stripe, .profile, .dptr, .len, .arg0, .arg1]
  | 0x11 => [.stripe, .launch, .arg0]
  | 0x12 => [.die, .row, .stripe, .dptr, .len, .arg0, .arg1]
  | 0x18 => [.die, .dptr, .len, .arg0, .arg1]
  | 0x20 => [.die, .planes, .row, .col, .ncw, .dptr, .len, .profile, .launch, .arg0, .arg1]
  | 0x28 => [.dptr, .len, .arg0, .arg1]
  | _ => []

/-- R148: FLAGS bits permitted. -/
def flagsOk (o : Nat) : Nat :=
  match o with
  | 0x01 => 0x7B
  | 0x02 => 0x1D
  | 0x03 => 0x09
  | 0x04 => 0x7D
  | 0x05 => 0x49
  | 0x06 => 0x09
  | 0x11 => 0x09
  | 0x12 => 0x21
  | 0x20 => 0x69
  | _ => 0x01

/-- A DETAIL where a condition holds. -/
def whenBad (c : Bool) (d : Nat) : List Nat := if c then [d] else []

/-- Opcodes with the ARG1 of R149. -/
def isPageOp (o : Nat) : Bool := [0x01, 0x02, 0x04, 0x05, 0x06, 0x20].contains o

/-! ## The checks, each naming its DETAIL -/

/-- R148: unused fields and FLAGS. -/
def unusedFaults (e : Ent) : List Nat :=
  whenBad (eFlags e % 128 &&& flagsOk (eOpc e) != eFlags e % 128) 0x0301 ++
  (allFds.filter (fun f => !(fdsOf (eOpc e)).contains f && eFd e f != 0)).map (fun f => 0x0300 + f.off)

/-- R148, R168: LAUNCH with and without TIMED, at Meridian time `now`. -/
def launchFaults (now : Nat) (e : Ent) : List Nat :=
  if !(fdsOf (eOpc e)).contains .launch then []
  else if eTimed e then whenBad (decide (now + 2 ^ 32 < eLaunch e)) 0x0228
  else whenBad (eLaunch e != 0) 0x0428

/-- R149, R179; 09_seeing.md R358: ARG1 of the page opcodes. -/
def arg1Faults (e : Ent) : List Nat :=
  if !isPageOp (eOpc e) then []
  else
    whenBad ((eArg1 e).testBit 31 && eOpc e == 0x04) 0x0334 ++
    whenBad ((eArg1 e).testBit 30 && eOpc e != 0x20) 0x0334 ++
    whenBad (eArg1 e / 65536 % 16384 != 0) 0x0334 ++
    whenBad (eArg1 e % 65536 != 0 && !ePinned e) 0x0434 ++
    whenBad (ePinned e && (flagsOk (eOpc e)).testBit 6 && eArg1 e % 65536 == 0) 0x0134 ++
    whenBad (ePinned e && (flagsOk (eOpc e)).testBit 6 && decide (1023 < eArg1 e % 65536)) 0x0234 ++
    whenBad ((eArg1 e).testBit 31 && eOpc e != 0x04 && eDptr e % 16 != 0) 0x0210

/-- R155: PLANES. -/
def planesFaults (e : Ent) : List Nat :=
  if !(fdsOf (eOpc e)).contains .planes then []
  else
    whenBad (ePlanes e == 0) 0x0106 ++ whenBad (16 ≤ ePlanes e) 0x0306 ++
    whenBad ((eOpc e == 0x05 || eOpc e == 0x06) && planeCount (ePlanes e % 16) != 1) 0x0406

/-- R153, R156: COL and NCW. -/
def ncwFaults (e : Ent) : List Nat :=
  let o := eOpc e
  let k := planeCount (ePlanes e % 16)
  if !(fdsOf o).contains .ncw then []
  else
    whenBad (eNcw e == 0) 0x010E ++
    (if (o == 0x01 || o == 0x20) && k == 1 then
      whenBad (3 < eCol e) 0x020C ++ whenBad (4 < eCol e + eNcw e) 0x040E
     else whenBad (eCol e != 0 || eNcw e != 4 * k) 0x040E)

/-- R153, R156, R166, R170–R174, R177, R391: LEN. -/
def lenFaults (e : Ent) : List Nat :=
  let n := eLen e
  match eOpc e with
  | 0x01 => whenBad (n == 0) 0x0120 ++ whenBad (n != 4096 * eNcw e) 0x0420
  | 0x02 => whenBad (n == 0) 0x0120 ++ whenBad (n != 4096 * eNcw e) 0x0420
  | 0x05 => whenBad (n == 0) 0x0120 ++ whenBad (32768 < n) 0x0220
  | 0x06 => whenBad (n == 0) 0x0120 ++ whenBad (32768 < n) 0x0220
  | 0x08 => whenBad (n == 0) 0x0120 ++ whenBad (n != 8) 0x0220
  | 0x0A => whenBad (n == 0) 0x0120 ++ whenBad (n != 4) 0x0220
  | 0x10 => whenBad (n == 0) 0x0120 ++ whenBad (n != 128) 0x0220
  | 0x12 => whenBad (n != 16 * rbCount e) 0x0420
  | 0x18 => whenBad (65536 < n) 0x0220 ++ whenBad ((eArg0 e / 2 ^ 30 == 0) == (n != 0)) 0x0420
  | 0x20 => whenBad (n != 0 && n != 64 * eNcw e) 0x0420
  | 0x28 =>
    whenBad (n == 0) 0x0120 ++
    (if (eArg1 e).testBit 0 then []
     else whenBad (n % 128 != 0) 0x0220 ++ whenBad (0x04000000 < eDptr e + n) 0x0420)
  | _ => []

/-- R161, R173, R177, R179: DPTR. -/
def dptrFaults (e : Ent) : List Nat :=
  match eOpc e with
  | 0x04 =>
    whenBad (2047 < eDdie e) 0x0210 ++ whenBad (16 ≤ eDplanes e) 0x0310 ++
    whenBad (planeCount (eDplanes e % 16) != planeCount (ePlanes e % 16)) 0x0410
  | 0x18 => whenBad (eArg0 e / 2 ^ 30 == 0 && eDptr e != 0) 0x0410
  | 0x28 =>
    if (eArg1 e).testBit 0 then whenBad ((eArg1 e).testBit 31 && eDptr e % 16 != 0) 0x0210
    else whenBad (eDptr e % 128 != 0) 0x0210
  | _ => []

/-- R160, R174: STRIPE and SPOS. -/
def stripeFaults (e : Ent) : List Nat :=
  let o := eOpc e
  if !(fdsOf o).contains .stripe then []
  else if (o == 0x02 || o == 0x04) && !eStriped e then
    whenBad (eStripe e != 0) 0x0424 ++ whenBad (eSpos e != 0) 0x0426
  else whenBad (127 < eStripe e) 0x0224

/-- R150: PROFILE. -/
def profileFaults (e : Ent) : List Nat :=
  let lo := eProfile e % 16
  let hi := eProfile e / 16
  if !(fdsOf (eOpc e)).contains .profile then []
  else if eOpc e == 0x04 then whenBad (lo == 0 || hi == 0) 0x0127 ++ whenBad (5 < lo || 5 < hi) 0x0227
  else whenBad (lo == 0) 0x0127 ++ whenBad (5 < lo) 0x0227 ++ whenBad (hi != 0) 0x0327

/-- R170–R174, R177, R379, R391: ARG0 and ARG1 of the other opcodes. -/
def argFaults (m : Mx) (e : Ent) : List Nat :=
  let a := eArg0 e
  let b := eArg1 e
  match eOpc e with
  | 0x08 => whenBad (2 ≤ a) 0x0330
  | 0x09 => whenBad (512 ≤ a) 0x0330 ++ whenBad (featReserved m (dieGrp (eDie e)) (a % 256)) 0x0230
  | 0x0A => whenBad (512 ≤ a) 0x0330 ++ whenBad (featReserved m (dieGrp (eDie e)) (a % 256)) 0x0230
  | 0x0B => whenBad (2 < a) 0x0230
  | 0x10 =>
    whenBad (a % 256 == 0) 0x0130 ++ whenBad (62 < a % 256) 0x0230 ++
    whenBad (a / 256 % 4 != 1 && a / 256 % 4 != 2) 0x0230 ++ whenBad (1024 ≤ a) 0x0330
  | 0x11 => whenBad (4 ≤ a) 0x0330 ++ whenBad (a.testBit 1 && eTimed e) 0x0430
  | 0x12 =>
    whenBad (b / 2048 % 32 != 0) 0x0334 ++
    (if rbCheck e then whenBad (rbDdie e != 0) 0x0334 else whenBad (rbDdie e == eDie e) 0x0434)
  | 0x18 =>
    whenBad (a / 65536 % 16384 != 0) 0x0330 ++
    whenBad ((exportAddr m (dieGrp (eDie e)) (a % 65536)).isNone) 0x0230
  | 0x28 =>
    whenBad (b / 2 % 2 ^ 30 != 0) 0x0334 ++ whenBad (b.testBit 31 && !b.testBit 0) 0x0434
  | _ => []

/-- Every DETAIL that an entry's fields give. -/
def fieldFaults (m : Mx) (e : Ent) : List Nat :=
  unusedFaults e ++ launchFaults m.md.time e ++ arg1Faults e ++ planesFaults e ++ ncwFaults e ++ lenFaults e ++
  dptrFaults e ++ stripeFaults e ++ profileFaults e ++ argFaults m e

/-! ## The order of the checks (R129, R151) -/

/-- R151: place of a DETAIL: its field's offset, then its reason in the order 0x03, 0x01, 0x02, 0x04. -/
def detailKey (d : Nat) : Nat := 8 * (d % 256) + (match d / 256 with | 3 => 0 | 1 => 1 | 2 => 2 | _ => 3)

/-- R151: the DETAIL that governs. -/
def firstDetail : List Nat → Option Nat
  | [] => none
  | d :: ds =>
    match firstDetail ds with
    | none => some d
    | some x => if detailKey x < detailKey d then some x else some d

/-- R129, R151: STATUS and DETAIL of an entry that fails a check, or none. -/
def entryFault (m : Mx) (r : Nat) (e : Ent) : Option (Nat × Nat) :=
  if eFlag e 7 then some (0x1300, 1)
  else if !isOpcode (eOpc e) then some (0x1000, 0x0500)
  else if eOpc e == 0x18 && !bit (reg m (qeRingOff r 8)) 31 then some (0x1300, 2)
  else if (fdsOf (eOpc e)).contains .die && decide (2047 < eDie e) then some (0x1000, 0x0204)
  else (firstDetail (fieldFaults m e)).map (fun d => (0x1000, d))

/-! ## Reservations (R190) -/

/-- The class of an opcode's reservation. -/
def resClass (o : Nat) : Nat :=
  match o with
  | 0x02 | 0x06 => 1
  | 0x04 => 2
  | 0x11 | 0x12 => 3
  | 0x08 | 0x0A | 0x10 | 0x18 => 4
  | _ => 0

/-- R190: bytes reserved for an entry; 0 where it takes none. -/
def resBytes (m : Mx) (e : Ent) : Nat :=
  let f := frameLen (eSrcProf e)
  let s := bitAt (eSoft e) 0
  match eOpc e with
  | 0x01 => (eNcw e + 2 * s) * f
  | 0x20 => (eNcw e + 2 * s) * f + eNcw e * 64
  | 0x05 => eLen e
  | 0x02 => eNcw e * f
  | 0x06 => eLen e
  | 0x04 => eNcw e * max f (frameLen (eDstProf e)) + 2 * s * f
  | 0x08 => 128
  | 0x0A => 128
  | 0x10 => 128
  | 0x18 => eLen e
  | 0x11 => 16 * (stripe m (eStripe e)).npar * frameLen (stripe m (eStripe e)).profile
  | 0x12 => 16 * frameLen e.rbProf
  | _ => 0

end Sys2Proof.Machine
end

