-- ==== Sys2Proof/Machine/Commands.lean ====
section
/-! DEFINITION. The opcodes at their turn for dispatch (04_commands.md R147–R178, R190), the grant of reservations, and
the transfers of the data mover (R184–R193). -/

namespace Sys2Proof.Machine

/-! ## The turn for dispatch (01_architecture.md R30; 03_queues.md R120, R126, R129, R176) -/

/-- A ring's entries are dispatched. -/
def dispatches (g : Ring) : Bool := g.state == .active || g.state == .stoppedErr

/-- R30: an entry of the ring waits for its reservation. -/
def waitsRes (m : Mx) (r : Nat) : Bool :=
  m.ents.any (fun x => match x.2 with
    | some e => decide (x.1 < 2 ^ 30) && eidRing x.1 == r && e.stage == .waitRes
    | none => false)

/-- The index whose entry may be dispatched now. -/
def turn (m : Mx) (r : Nat) : Option Nat :=
  let g := ring m r
  if !dispatches g || g.fence.isSome || waitsRes m r then none
  else match g.cache with
    | [] => none
    | i :: _ => if g.hold = some i then none else some i

/-- The entry leaves the cache. -/
def takeTurn (r : Nat) (m : Mx) : Mx := setRing m r { ring m r with cache := (ring m r).cache.drop 1 }

/-- Dispatch of one opcode: the checks of R129 and R151, then what the opcode does. -/
def dispatch (r op : Nat) (go : Nat → Ent → Mx → Mx) (m : Mx) : Mx :=
  match turn m r with
  | none => m
  | some i =>
    match ent m (eidOf r i) with
    | none => m
    | some e =>
      if eOpc e ≠ op then m
      else
        let m := takeTurn r m
        match entryFault m r e with
        | some (s, d) => conclude (eidOf r i) e s d false m
        | none => go (eidOf r i) e m

/-! ## After the reservation -/

/-- An entry goes to its die. -/
def toDie (eid : Nat) (e : Ent) (m : Mx) : Mx := setEnt m eid { e with stage := .toPlace }

/-- An entry's data come from host memory first. -/
def fetchData (eid : Nat) (e : Ent) (parts : List Part) (m : Mx) : Mx :=
  queueXfer (entryXfer m eid e (.entryIn eid) false parts) (setEnt m eid { e with stage := .xferIn })

/-- Raw data of an entry: one part of LEN bytes. -/
def rawPart (e : Ent) (s : HostSide) : List Part := [{ side := s, runs := [{ off := 0, len := eLen e }] }]

/-- R162, R375: bind a member entry, and go on where it binds. -/
def boundThen (eid : Nat) (e : Ent) (go : Ent → Mx → Mx) (m : Mx) : Mx :=
  let r := bind eid e m
  if r.1 then (match ent r.2 eid with | some e => go e r.2 | none => r.2) else r.2

/-- R27, R391, R392: a REBUILD with its reservation takes the workspace, which another entry may have taken meanwhile (log
entry 136). -/
def takeWorkspace (eid : Nat) (e : Ent) (m : Mx) : Mx :=
  let w := walkOf m eid
  if (stripe m (eStripe e)).state ≠ 0 then finish eid e 0x1000 0x0424 false m
  else
    let m := setWalk (setStripe m (eStripe e) { state := 3, profile := e.rbProf, npar := w.npar }) eid { w with held := true, at_ := .idle }
    if rbCount e = 0 then finish eid e 0 0 false m else setEnt m eid { e with stage := .stripeWork }

/-- R36, R173, R174, R380, R391: an entry has its reservation, or needs none. -/
def reservedNow (eid : Nat) (e : Ent) (m : Mx) : Mx :=
  match eOpc e with
  | 0x02 => boundThen eid e (fun e m => fetchData eid e (pageParts e (fun _ => true)) (zeroMeta eid e m)) m
  | 0x04 => boundThen eid e (toDie eid) m
  | 0x06 => fetchData eid e (rawPart e (dataSide e)) m
  | 0x10 => fetchData eid e (rawPart e (.flat (eDptr e))) m
  | 0x18 => if (eArg0 e).testBit 30 then fetchData eid e (rawPart e (.flat (eDptr e))) m else toDie eid e m
  | 0x11 => closeTurn (eStripe e) (setEnt m eid { e with stage := .stripeWork })
  | 0x12 => takeWorkspace eid e m
  | _ => toDie eid e m

/-- R190: ask for the reservation of an entry; one of no bytes is not asked for. -/
def reserve (eid : Nat) (e : Ent) (m : Mx) : Mx :=
  let n := resBytes m e
  if n = 0 then reservedNow eid e (setEnt m eid e)
  else askResv (setEnt m eid { e with stage := .waitRes }) (.entry eid) (resClass (eOpc e)) n

/-- R450: a grant reaches its requester. -/
def granted (o : ROwner) (m : Mx) : Mx :=
  match o with
  | .entry eid =>
    (match ent m eid with
     | some e => if e.stage = .waitRes then reservedNow eid e m else m
     | none => m)
  | .member id =>
    (match ent m (memEid id) with
     | some e =>
       if memberLost m e.serves (eDie e) then memberSensed id 0x24 m
       else addAhead (eDie e) (.member id) (setEnt m (memEid id) { e with stage := .placed })
     | none => m)
  | .sys k => sysGranted k m
  | .spec _ => m
  | .dome => m

/-- R449, R450: the class's oldest request is granted lines. -/
def grant (cls : Nat) (lines : List Nat) (m : Mx) : Mx :=
  match nextGrant m with
  | none => m
  | some r => if r.cls = cls ∧ grantable m r.n lines then granted r.owner (giveResv m r lines) else m

/-! ## The opcodes -/

/-- R159: the dose at program lies above Dome's current dose. -/
def noteDose (eid : Nat) (e : Ent) (m : Mx) : Mx :=
  if m.sg.dose < eArg0 e then log m .doseAbove (eidRing eid) (eidIdx eid % slots m (eidRing eid)) else m

/-- R31, R162, R165: READ, COPY and SCAN. -/
def goRead (eid : Nat) (e : Ent) (m : Mx) : Mx := reserve eid (withCws e) (noteDose eid e m)

/-- R164: READ_RAW. -/
def goReadRaw (eid : Nat) (e : Ent) (m : Mx) : Mx := reserve eid e (noteDose eid e m)

/-- R380: STRIPE_CLOSE. -/
def goClose (eid : Nat) (e : Ent) (m : Mx) : Mx :=
  if (stripe m (eStripe e)).state = 1 then reserve eid e m else conclude eid e 0x1000 0x0424 false m

/-- R392: REBUILD reads the map entry of DIE at ROW. The entries after it on its ring go on being dispatched while it does
(DESIGN CHOICE, log entry 158). -/
def goRebuild (eid : Nat) (e : Ent) (m : Mx) : Mx :=
  if !mapOn m then conclude eid e 0x1000 0x0408 false m
  else
    let e := { e with stage := .stripeWork }
    stFetch eid e (.stMap eid) (mapAddr m (eDie e) (eRow e)) 8 (setWalk (setEnt m eid e) eid { row := eRow e })

/-- R392: the map entry of a REBUILD's dispatch has arrived, or its read has failed with a cause. -/
def rebuildMap (eid : Nat) (e : Ent) (c : Option Nat) (data : List Byte) (m : Mx) : Mx :=
  let x := mapEnt (leAt data 0 8)
  match c with
  | some f => finish eid e 0x1200 (0x10 + f) false m
  | none =>
    if !x.valid then finish eid e 0x1000 0x0408 false (if x.bad then log m .mapBad (eDie e) (eRow e) else m)
    else if (stripe m (eStripe e)).state ≠ 0 then finish eid e 0x1000 0x0424 false m
    else reserve eid { e with rbProf := x.prof } (setWalk m eid { walkOf m eid with npar := x.npar })

/-- R176: earlier entries of a ring that have not completed. -/
def earlierOpen (m : Mx) (r eid : Nat) : Bool :=
  m.ents.any (fun x => match x.2 with
    | some e => decide (x.1 < 2 ^ 30) && eidRing x.1 == r && x.1 != eid && e.stage != .cached
    | none => false)

/-- R176: FENCE. -/
def goFence (eid : Nat) (e : Ent) (m : Mx) : Mx :=
  let r := eidRing eid
  let m := setRing m r { ring m r with fence := some (eidIdx eid) }
  if earlierOpen m r eid then setEnt m eid { e with stage := .fenced } else conclude eid e 0 0 false m

/-- R177: FILL takes an engine. -/
def goFill (eid : Nat) (e : Ent) (m : Mx) : Mx :=
  let host := (eArg1 e).testBit 0
  let x := entryXfer m eid e (.fill eid) host (if host then rawPart e (dataSide e) else [])
  queueXfer { x with pat := some (word (eArg0 e)), left := eLen e } (setEnt m eid { e with stage := .xferIn })

/-! ## Transfers: start (R184, R162, R178, R452) -/

/-- The runs of a transfer whose bytes the data mover reads from the stage buffer. -/
def sourceRuns (m : Mx) (x : Xfer) : List Run :=
  match x.owner with
  | .entryOut _ => (x.parts.flatMap (·.runs)).filter (·.move)
  | .copyMove eid =>
    (match ent m eid with
     | some e => (List.range (eNcw e)).map (fun i => { off := i * frameLen (eSrcProf e), len := 4128, cw := i })
     | none => [])
  | _ => []

/-- Codewords with an uncorrectable byte among the bytes to be read. -/
def badSource (m : Mx) (x : Xfer) : List Nat :=
  ((sourceRuns m x).filter (fun r => (resvRead m (xResv x.owner) 8 r.off r.len).2.1)).map (·.cw)

/-- R452: what a source with an uncorrectable byte means to its entry: codewords are sensed again; any other source is
read again once, by the whole operation. -/
def sourceFailed (eid : Nat) (cs : List Nat) (m : Mx) : Mx :=
  match ent m eid with
  | none => m
  | some e =>
    if eOpc e = 1 ∨ eOpc e = 4 then bufferFailed eid cs m
    else if tabGet 0 e.uerr 0 = 0 then
      let e := { e with uerr := tabSet e.uerr 0 1 }
      if eOpc e = 0x20 then deliverOut eid e (setEnt m eid e) else toDie eid e m
    else finishCut eid e 0x0200 8 true m

/-- R162: COPY's codewords go from the source's frame layout into the destination's. -/
def relayout (eid : Nat) (e : Ent) (m : Mx) : Mx :=
  let n := eNcw e
  let fs := frameLen (eSrcProf e)
  let fd := frameLen (eDstProf e)
  let move (i : Nat) (m : Mx) : Mx :=
    let r := resvRead m (.entry eid) 8 (i * fs) 4128
    resvWrite r.2.2 (.entry eid) (i * fd) r.1
  each (if fs < fd then (List.range n).reverse else List.range n) move m

/-- R178: a FILL of the stage buffer: every line but those inside a reservation. -/
def fillLines (e : Ent) (m : Mx) : Mx :=
  let w := word (eArg0 e)
  let l := eDptr e / 128
  each (((List.range (eLen e / 128)).map (l + ·)).filter (fun k => !reserved m k)) (fun k m =>
    storeBytes m (128 * k) ((List.range 128).map (fun i => patByte w i))) m

/-- What a transfer within the stage buffer does. -/
def innerMove (x : Xfer) (m : Mx) : Mx :=
  match x.owner with
  | .copyMove eid => (match ent m eid with | some e => relayout eid e m | none => m)
  | .fill eid => (match ent m eid with | some e => if x.toHost then m else fillLines e m | none => m)
  | _ => m

/-- DX_TRANSFER_START's work. -/
def dxStart (ee : Nat) (m : Mx) : Mx :=
  if (engine m ee).cur.isSome || engOff m ee || decide (m.gl.phase = .warm) then m
  else
    match nextXfer m (ee / 16) with
    | none => m
    | some x =>
      let bad := badSource m x
      if bad.isEmpty then
        (if x.parts.isEmpty then
          setEngine (innerMove x (unqueue m x.owner)) ee { cur := some { x with left := 0 }, resid := 0 }
         else startXfer ee x (innerMove x m))
      else
        let m := (readRuns m (xResv x.owner) ((sourceRuns m x).filter (fun r => bad.contains r.cw))).2.2
        sourceFailed (xEid x.owner) bad (unqueue m x.owner)

/-! ## Transfers: end (R192, R193) -/

/-- R34, R192: a codeword whose data and metadata were fully written. -/
def fullyWritten (x : Xfer) (e : Ent) (i : Nat) : Bool :=
  (cwAt e i).delivered && (tabGet 0 x.acked (ackKey i false) == 4096) &&
  (eMptr e == 0 || tabGet 0 x.acked (ackKey i true) == 32)

/-- R192: a transfer has stopped; one that a shutdown has cut ends its entry with ABORTED (03_queues.md R122). -/
def xferFailed (x : Xfer) (eid : Nat) (e : Ent) (s : XStop) (m : Mx) : Mx :=
  match x.owner with
  | .entryOut _ =>
    if eOpc e = 1 then
      let e := summarise e (fullyWritten x e)
      finish eid e s.status s.detail (s.status == 0x0200 || (List.range e.cws.length).any (fullyWritten x e)) m
    else if eOpc e = 0x20 then
      finish eid ((if s.status = 0x0200 then cutReport else summarise) e (fun i => (cwAt e i).delivered)) s.status s.detail true m
    else finish eid e s.status s.detail true m
  | _ => if s.status = 0x0200 then finishCut eid e s.status s.detail e.admitted m else finish eid e s.status s.detail false m

/-- A transfer has carried all its bytes. -/
def xferGood (x : Xfer) (eid : Nat) (e : Ent) (m : Mx) : Mx :=
  match x.owner with
  | .entryIn _ =>
    if eOpc e = 2 then readyToPass eid e m
    else if eOpc e = 0x10 then
      let r := resvRead m (.entry eid) 10 0 128
      openStripe eid e r.1 r.2.2
    else toDie eid e m
  | .entryOut _ =>
    if eOpc e = 0x20 then finishScan eid e m else if decodes (eOpc e) then finishRead eid e m else finish eid e 0 0 false m
  | .copyMove _ => readyToPass eid { e with dst := true } m
  | .fill _ => finish eid e 0 0 false m
  | _ => m

/-- R384, R392–R395: what a transfer of the stripe engine brings, or the cause of its failure. -/
def stAnswer (x : Xfer) (eid : Nat) (e : Ent) (c : Option Nat) (m : Mx) : Mx :=
  let data := (x.lines.head?.map (·.2)).getD []
  match x.owner with
  | .stMap _ =>
    if eOpc e ≠ 0x12 then ladderTurn eid (mapArrived eid c data m)
    else if (walkOf m eid).at_ = .first then rebuildMap eid e c data m
    else walkEntry eid e c data m
  | .stTable _ => if eOpc e = 0x12 then walkTable eid e c data m else ladderTurn eid (tableArrived eid c data m)
  | .stRec _ => recordDone eid e c m
  | _ => m

/-- A transfer of the stripe engine has ended; one that a shutdown has cut ends its entry (03_queues.md R122). -/
def stEnded (x : Xfer) (eid : Nat) (e : Ent) (m : Mx) : Mx :=
  match x.stop with
  | some s => if s.status = 0x0200 then finishCut eid e 0x0200 s.detail e.admitted m else stAnswer x eid e (some (s.detail % 16)) m
  | none => stAnswer x eid e none m

/-- TRANSFER_DONE's work: the engine is free, and the entry goes on or ends. -/
def dxDone (ee : Nat) (m : Mx) : Mx :=
  match (engine m ee).cur with
  | none => m
  | some x =>
    if !xferEnded x then m
    else
      let m := setEngine m ee { engine m ee with cur := none }
      match ent m (xEid x.owner) with
      | none => m
      | some e =>
        if forStripes x.owner then stEnded x (xEid x.owner) e m
        else
        let e := { e with chain := x.lines, moved := if x.toHost then x.acked else e.moved }
        let m := setEnt m (xEid x.owner) e
        match x.stop with
        | some s => xferFailed x (xEid x.owner) e s m
        | none => if x.bad.isEmpty then xferGood x (xEid x.owner) e m else sourceFailed (xEid x.owner) x.bad m

/-! ## DISABLE and the registers (R186–R189) -/

/-- R189: transfers that wait for a port with no engine left are aborted. -/
def strandPort (p : Nat) (m : Mx) : Mx :=
  if !portEngOff m p then m
  else each (m.dx.queue.filter (fun x => x.port == p)) (fun x m => abort (xEid x.owner) 6 (unqueue m x.owner)) m

/-- R188: an engine is disabled and drops its transfer; RESID is a free value until its next transfer begins. The entry ends at
once, without the answers its requests still owe (DESIGN CHOICE, log entry 159). -/
def disableEng (ee : Nat) (m : Mx) : Mx :=
  let m := setReg m (dxEngOff ee) 1
  let m := match (engine m ee).cur with
    | none => m
    | some x =>
      let f := draw (unask ee x m)
      abort (xEid x.owner) 6 (setEngine f.2 ee { cur := none, resid := (Config.freeWord f.1).toNat })
  strandPort (ee / 16) m

/-- Writes of the DX block, by offset. -/
def dxWrite (k : Nat) (v : Word) (m : Mx) : Mx :=
  if k = 0 then setReg m dxTmoOff (v &&& 0x3F)
  else if 0x100 ≤ k ∧ k < 0x500 ∧ k % 16 = 0 then
    (if bit v 0 then disableEng ((k - 0x100) / 16) m else setReg m (dxEngOff ((k - 0x100) / 16)) 0)
  else m

/-! ## Meanings -/

def isRing (r : Nat) : Bool := decide (r < 264)

/-- READ (R31). -/
def execRead (ring : Nat) (s : State) : Res := act s (onlyIf (isRing ring) (dispatch ring 0x01 goRead))

/-- PROGRAM (R36). -/
def execProgram (ring : Nat) (s : State) : Res := act s (onlyIf (isRing ring) (dispatch ring 0x02 reserve))

/-- ERASE (R160). -/
def execErase (ring : Nat) (s : State) : Res := act s (onlyIf (isRing ring) (dispatch ring 0x03 reserve))

/-- COPY (R161–R163). -/
def execCopy (ring : Nat) (s : State) : Res := act s (onlyIf (isRing ring) (dispatch ring 0x04 goRead))

/-- READ_RAW (R164). -/
def execReadRaw (ring : Nat) (s : State) : Res := act s (onlyIf (isRing ring) (dispatch ring 0x05 goReadRaw))

/-- PROGRAM_RAW (R164). -/
def execProgramRaw (ring : Nat) (s : State) : Res := act s (onlyIf (isRing ring) (dispatch ring 0x06 reserve))

/-- STATUS (R170). -/
def execStatus (ring : Nat) (s : State) : Res := act s (onlyIf (isRing ring) (dispatch ring 0x08 reserve))

/-- FEATURE_SET (R171). -/
def execFeatureSet (ring : Nat) (s : State) : Res := act s (onlyIf (isRing ring) (dispatch ring 0x09 reserve))

/-- FEATURE_GET (R171). -/
def execFeatureGet (ring : Nat) (s : State) : Res := act s (onlyIf (isRing ring) (dispatch ring 0x0A reserve))

/-- RESET_DIE (R172). -/
def execResetDie (ring : Nat) (s : State) : Res := act s (onlyIf (isRing ring) (dispatch ring 0x0B reserve))

/-- STRIPE_OPEN (R374). -/
def execStripeOpen (ring : Nat) (s : State) : Res := act s (onlyIf (isRing ring) (dispatch ring 0x10 reserve))

/-- STRIPE_CLOSE (R380). -/
def execStripeClose (ring : Nat) (s : State) : Res := act s (onlyIf (isRing ring) (dispatch ring 0x11 goClose))

/-- REBUILD (R391, R392). -/
def execRebuild (ring : Nat) (_map : Told) (s : State) : Res := act s (onlyIf (isRing ring) (dispatch ring 0x12 goRebuild))

/-- CALL (R173). -/
def execCall (ring : Nat) (s : State) : Res := act s (onlyIf (isRing ring) (dispatch ring 0x18 reserve))

/-- NOP (R175). -/
def execNop (ring : Nat) (s : State) : Res :=
  act s (onlyIf (isRing ring) (dispatch ring 0x19 (fun eid e m => conclude eid e 0 0 false m)))

/-- FENCE (R176). -/
def execFence (ring : Nat) (s : State) : Res := act s (onlyIf (isRing ring) (dispatch ring 0x1A goFence))

/-- SCAN (R165). -/
def execScan (ring : Nat) (s : State) : Res := act s (onlyIf (isRing ring) (dispatch ring 0x20 goRead))

/-- FILL (R177). -/
def execFill (ring : Nat) (s : State) : Res := act s (onlyIf (isRing ring) (dispatch ring 0x28 goFill))

/-- UNKNOWN_OPCODE (R129): an entry whose OPC is no opcode of the complex. -/
def unknown (r : Nat) (m : Mx) : Mx :=
  match turn m r with
  | none => m
  | some i =>
    match ent m (eidOf r i) with
    | none => m
    | some e => if isOpcode (eOpc e) then m else dispatch r (eOpc e) (fun _ _ m => m) m

def execUnknownOpcode (ring : Nat) (s : State) : Res := act s (onlyIf (isRing ring) (unknown ring))

/-- RESERVATION_GRANT (R449, R450). -/
def execReservationGrant (cls : Nat) (lines : List Nat) (s : State) : Res := act s (grant cls lines)

/-- DX_TRANSFER_START (R184). -/
def execDxTransferStart (eng : Nat) (s : State) : Res := act s (onlyIf (decide (eng < 64)) (dxStart eng))

/-- TRANSFER_DONE (R193). -/
def execTransferDone (eng : Nat) (s : State) : Res := act s (onlyIf (decide (eng < 64)) (dxDone eng))

/-- DISABLE (R188). -/
def execDisable (eng : Nat) (s : State) : Res :=
  act s (onlyIf (decide (eng < 64)) (access (dxEngOff eng) true (disableEng eng)))

end Sys2Proof.Machine
end

