-- ==== Sys2Proof/Machine/Crypto.lean ====
section
/-! DEFINITION. The hash and the signature of a Dome package (14_dome_nightlog.md R507, R508), which the manual names and does not
spell out: SHA-384 and ECDSA over P-384, from the standards that define them; the public key and the two numbers of a signature
are big-endian there (log entry 155). -/

namespace Sys2Proof.Machine

/-- A big-endian number. -/
def beNat (l : List Byte) : Nat := l.foldl (fun a b => 256 * a + b.toNat) 0

/-- A number in `n` big-endian bytes. -/
def beBytes (n v : Nat) : List Byte := (List.range n).map (fun i => BitVec.ofNat 8 (v / 256 ^ (n - 1 - i)))

/-! ## SHA-384 -/

/-- A word of the hash. -/
abbrev W64 := BitVec 64

/-- The constants of the 80 rounds. -/
def shaKs : List (List W64) :=
  [[0x428A2F98D728AE22, 0x7137449123EF65CD, 0xB5C0FBCFEC4D3B2F, 0xE9B5DBA58189DBBC],
   [0x3956C25BF348B538, 0x59F111F1B605D019, 0x923F82A4AF194F9B, 0xAB1C5ED5DA6D8118],
   [0xD807AA98A3030242, 0x12835B0145706FBE, 0x243185BE4EE4B28C, 0x550C7DC3D5FFB4E2],
   [0x72BE5D74F27B896F, 0x80DEB1FE3B1696B1, 0x9BDC06A725C71235, 0xC19BF174CF692694],
   [0xE49B69C19EF14AD2, 0xEFBE4786384F25E3, 0x0FC19DC68B8CD5B5, 0x240CA1CC77AC9C65]] ++
  [[0x2DE92C6F592B0275, 0x4A7484AA6EA6E483, 0x5CB0A9DCBD41FBD4, 0x76F988DA831153B5],
   [0x983E5152EE66DFAB, 0xA831C66D2DB43210, 0xB00327C898FB213F, 0xBF597FC7BEEF0EE4],
   [0xC6E00BF33DA88FC2, 0xD5A79147930AA725, 0x06CA6351E003826F, 0x142929670A0E6E70],
   [0x27B70A8546D22FFC, 0x2E1B21385C26C926, 0x4D2C6DFC5AC42AED, 0x53380D139D95B3DF],
   [0x650A73548BAF63DE, 0x766A0ABB3C77B2A8, 0x81C2C92E47EDAEE6, 0x92722C851482353B]] ++
  [[0xA2BFE8A14CF10364, 0xA81A664BBC423001, 0xC24B8B70D0F89791, 0xC76C51A30654BE30],
   [0xD192E819D6EF5218, 0xD69906245565A910, 0xF40E35855771202A, 0x106AA07032BBD1B8],
   [0x19A4C116B8D2D0C8, 0x1E376C085141AB53, 0x2748774CDF8EEB99, 0x34B0BCB5E19B48A8],
   [0x391C0CB3C5C95A63, 0x4ED8AA4AE3418ACB, 0x5B9CCA4F7763E373, 0x682E6FF3D6B2B8A3],
   [0x748F82EE5DEFB2FC, 0x78A5636F43172F60, 0x84C87814A1F0AB72, 0x8CC702081A6439EC]] ++
  [[0x90BEFFFA23631E28, 0xA4506CEBDE82BDE9, 0xBEF9A3F7B2C67915, 0xC67178F2E372532B],
   [0xCA273ECEEA26619C, 0xD186B8C721C0C207, 0xEADA7DD6CDE0EB1E, 0xF57D4F7FEE6ED178],
   [0x06F067AA72176FBA, 0x0A637DC5A2C898A6, 0x113F9804BEF90DAE, 0x1B710B35131C471B],
   [0x28DB77F523047D84, 0x32CAAB7B40C72493, 0x3C9EBE0A15C9BEBC, 0x431D67C49C100D4C],
   [0x4CC5D4BECB3E42B6, 0x597F299CFC657E2A, 0x5FCB6FAB3AD6FAEC, 0x6C44198C4A475817]]

/-- The chaining value before the first block. -/
def shaStart : List W64 :=
  [0xCBBB9D5DC1059ED8, 0x629A292A367CD507, 0x9159015A3070DD17, 0x152FECD8F70E5939,
   0x67332667FFC00B31, 0x8EB44A8768581511, 0xDB0C2E0D64F98FA7, 0x47B5481DBEFA4FA4]

def shaS (x : W64) (a b c : Nat) : W64 := x.rotateRight a ^^^ x.rotateRight b ^^^ x.rotateRight c
def shaH (x : W64) (a b c : Nat) : W64 := x.rotateRight a ^^^ x.rotateRight b ^^^ (x >>> c)

/-- The message schedule, latest word first, with `n` more words. -/
def shaSched : Nat → List W64 → List W64
  | 0, w => w
  | n + 1, w => shaSched n ((shaH (w.getD 1 0) 19 61 6 + w.getD 6 0 + shaH (w.getD 14 0) 1 8 7 + w.getD 15 0) :: w)

/-- One round, on the eight working words. -/
def shaRound (v : List W64) (kw : W64 × W64) : List W64 :=
  match v with
  | [a, b, c, d, e, f, g, h] =>
    let t1 := h + shaS e 14 18 41 + ((e &&& f) ^^^ (~~~e &&& g)) + kw.1 + kw.2
    let t2 := shaS a 28 34 39 + ((a &&& b) ^^^ (a &&& c) ^^^ (b &&& c))
    [t1 + t2, a, b, c, d + t1, e, f, g]
  | _ => v

/-- The words of a block of 128 bytes. -/
def shaWords (blk : List Byte) : List W64 := (List.range 16).map (fun i => BitVec.ofNat 64 (beNat ((blk.drop (8 * i)).take 8)))

/-- A block is taken in. -/
def shaBlock (v : List W64) (blk : List Byte) : List W64 :=
  let w := (shaSched 64 (shaWords blk).reverse).reverse
  List.zipWith (· + ·) v ((shaKs.flatten.zip w).foldl shaRound v)

/-- The blocks of a padded message, at most `n`. -/
def shaBlocks : Nat → List Byte → List W64 → List W64
  | 0, _, v => v
  | n + 1, l, v => if l.isEmpty then v else shaBlocks n (l.drop 128) (shaBlock v (l.take 128))

/-- SHA-384. -/
def sha384 (l : List Byte) : List Byte :=
  let z := (239 - l.length % 128) % 128
  let p := l ++ [0x80] ++ List.replicate z 0 ++ beBytes 16 (8 * l.length)
  ((shaBlocks (l.length / 128 + 2) p shaStart).take 6).flatMap (fun x => beBytes 8 x.toNat)

/-! ## P-384 -/

/-- The field, the order of the group, the curve's constant and its base point. -/
def ecP : Nat := 2 ^ 384 - 2 ^ 128 - 2 ^ 96 + 2 ^ 32 - 1
def ecN : Nat := 0xffffffffffffffffffffffffffffffffffffffffffffffffc7634d81f4372ddf581a0db248b0a77aecec196accc52973
def ecB : Nat := 0xb3312fa7e23ee7e4988e056be3f82d19181d9c6efe8141120314088f5013875ac656398d8a2ed19d2a85c8edd3ec2aef
def ecGx : Nat := 0xaa87ca22be8b05378eb1c71ef320ad746e1d3b628ba79b9859f741e082542a385502f25dbf55296c3a545e3872760ab7
def ecGy : Nat := 0x3617de4a96262c6f5d9e98bf9292dc29f8f41dbd289a147ce9da3113b5f0b8c00a60b1ce1d7e819d7a431d7c90ea0e5f

/-- A power modulo `m`, of an exponent of at most as many bits as the fourth argument counts. -/
def powMod (m : Nat) : Nat → Nat → Nat → Nat
  | _, _, 0 => 1 % m
  | b, e, f + 1 => if e % 2 = 1 then b * powMod m (b * b % m) (e / 2) f % m else powMod m (b * b % m) (e / 2) f

/-- The inverse modulo a prime of 384 bits. -/
def invMod (m a : Nat) : Nat := powMod m (a % m) (m - 2) 384

/-- The difference modulo the field. -/
def subP (a b : Nat) : Nat := (a + ecP - b % ecP) % ecP

/-- A point in projective coordinates (x over z squared, y over z cubed); z is 0 at infinity. -/
abbrev EcPt := Nat × Nat × Nat

/-- A point and itself. -/
def ecTwice (q : EcPt) : EcPt :=
  let (x, y, z) := q
  let s := 4 * x * (y * y % ecP) % ecP
  let w := 3 * (subP x (z * z)) * (x + z * z) % ecP
  let x' := subP (w * w) (2 * s)
  (x', subP (w * subP s x') (8 * (y * y % ecP) * (y * y % ecP)), 2 * y * z % ecP)

/-- The sum of two points. -/
def ecAdd (q r : EcPt) : EcPt :=
  let (x1, y1, z1) := q
  let (x2, y2, z2) := r
  if z1 % ecP = 0 then r
  else if z2 % ecP = 0 then q
  else
    let a := z1 * z1 % ecP
    let b := z2 * z2 % ecP
    let u := x1 * b % ecP
    let h := subP (x2 * a) u
    let v := y1 * b % ecP * z2 % ecP
    let k := subP (y2 * a % ecP * z1) v
    if h = 0 then (if k = 0 then ecTwice q else (1, 1, 0))
    else
      let hh := h * h % ecP
      let x3 := subP (k * k) (h * hh + 2 * u * hh)
      (x3, subP (k * subP (u * hh) x3) (v * (h * hh % ecP)), h * z1 % ecP * z2 % ecP)

/-- A multiple of a point, by a number of at most as many bits as the third argument counts. -/
def ecMul (q : EcPt) : Nat → Nat → EcPt
  | _, 0 => (1, 1, 0)
  | k, f + 1 => let h := ecTwice (ecMul q (k / 2) f); if k % 2 = 1 then ecAdd h q else h

/-- An uncompressed point of 97 bytes, where it lies on the curve. -/
def ecPoint (l : List Byte) : Option EcPt :=
  let x := beNat ((l.drop 1).take 48)
  let y := beNat ((l.drop 49).take 48)
  if l.length = 97 ∧ l.headD 0 = 0x04 ∧ x < ecP ∧ y < ecP ∧ y * y % ecP = (x * x * x + ecB + 3 * (ecP - x)) % ecP then
    some (x, y, 1)
  else none

/-- ECDSA: a signature, r then s, over a digest of 48 bytes verifies under a public key. -/
def ecdsaGood (key digest sig : List Byte) : Bool :=
  let r := beNat (sig.take 48)
  let s := beNat ((sig.drop 48).take 48)
  match ecPoint key with
  | none => false
  | some q =>
    if r = 0 ∨ ecN ≤ r ∨ s = 0 ∨ ecN ≤ s then false
    else
      let w := invMod ecN s
      let t := ecAdd (ecMul (ecGx, ecGy, 1) (beNat digest * w % ecN) 384) (ecMul q (r * w % ecN) 384)
      let x := t.1 * powMod ecP (invMod ecP t.2.2) 2 2 % ecP
      (t.2.2 != 0) && (x % ecN == r)

end Sys2Proof.Machine
end

