-- ==== Sys2Proof/Machine/Interrupts.lean ====
section
/-! DEFINITION. The interrupt controller (13_interrupts.md): coalescing, the claim and its stack, the stack fault,
masking and messages. -/

namespace Sys2Proof.Machine

/-- Sources of Dome's own rings, which host firmware cannot touch (R466). -/
def isMgmt (s : Nat) : Bool := decide (256 ≤ s) && decide (s ≤ 263)

/-- R465: sources that can become pending by a write. -/
def pendable (s : Nat) : Bool := isVector s || isEvent s

/-! ## Coalescing (R470) -/

def ccnt (m : Mx) (s : Nat) : Nat := fld (reg m (icSrcOff s)) 31 24
def ctime (m : Mx) (s : Nat) : Nat := fld (reg m (icSrcOff s)) 23 12
def heldCount (m : Mx) (s : Nat) : Nat := tabGet 0 m.ic.held s

/-- Set a source's held count and whether its timer can reach the CTIME that its last signal met. -/
def setHeld (m : Mx) (s n : Nat) (run : Bool) : Mx :=
  { m with ic := { m.ic with held := tabSet m.ic.held s n,
                             timer := if run then insN m.ic.timer s else delN m.ic.timer s } }

/-- R470: the queue engine signals a ring vector. -/
def signalVector (m : Mx) (s : Nat) : Mx :=
  let n := heldCount m s + 1
  if (ccnt m s = 0 ∧ ctime m s = 0) ∨ (ccnt m s ≠ 0 ∧ ccnt m s ≤ n) then raise (setHeld m s 0 false) s
  else setHeld m s n (ctime m s != 0)

/-- R470: the timer of a source reaches the CTIME that its last signal met. -/
def coalesced (s : Nat) (m : Mx) : Mx :=
  onlyIf (m.ic.timer.contains s) (fun m => raise (setHeld m s 0 false) s) m

/-! ## Enable and pending words (R466, R468) -/

/-- Sources of a word whose bits a write sets. -/
def wordSources (ww : Nat) (v : Word) : List Nat :=
  ((List.range 32).filter (fun b => bit v b && decide (32 * ww + b < 328))).map (fun b => 32 * ww + b)

/-- R466: a write that names a management source leaves a record of the offset. -/
def mgmtRecord (m : Mx) (off : Nat) (l : List Nat) : Mx := if l.any isMgmt then log m .icMgmt off else m

/-- R468: sources a host-firmware write acts on. -/
def hostSources (l : List Nat) : List Nat := l.filter (fun s => !isMgmt s)

/-- A write of IC_ENSETww. -/
def enableSet (ww : Nat) (v : Word) (m : Mx) : Mx :=
  let l := wordSources ww v
  let m := { m with ic := { m.ic with en := (hostSources l).foldl insN m.ic.en } }
  mgmtRecord (deliver m) (0x10600 + 4 * ww) l

/-- R482, R484, R488: a target's message path stops: a message owed, or made and not yet issued by its port, is not sent. -/
def stopMessage (t : Nat) (m : Mx) : Mx :=
  let queued := (List.range 4).any (fun p => (port m p).waiting.any (fun q => q.why == .message t))
  let m := each (List.range 4) (fun p m =>
    setPort m p { port m p with waiting := (port m p).waiting.filter (fun q => q.why != .message t) }) m
  setTarget m t { target m t with msgOwed := false, msgOut := (target m t).msgOut && !queued }

/-- A write of IC_ENCLRww (R482, R484): no message follows for what it masks. -/
def enableClear (ww : Nat) (v : Word) (m : Mx) : Mx :=
  let l := wordSources ww v
  let was := (List.range 32).filter (fun t => (target m t).req)
  let m := deliver { m with ic := { m.ic with en := (hostSources l).foldl delN m.ic.en } }
  mgmtRecord (each (was.filter (fun t => !wanted m t)) stopMessage m) (0x10640 + 4 * ww) l

/-- A write of IC_PSETww (R469): the coalescing counts stay. -/
def pendingSet (ww : Nat) (v : Word) (m : Mx) : Mx :=
  let l := wordSources ww v
  let m := { m with ic := { m.ic with pend := ((hostSources l).filter pendable).foldl insN m.ic.pend } }
  mgmtRecord (deliver m) (0x10680 + 4 * ww) l

/-- A write of IC_PCLRww. -/
def pendingClear (ww : Nat) (v : Word) (m : Mx) : Mx :=
  let l := wordSources ww v
  let m := { m with ic := { m.ic with pend := (hostSources l).foldl delN m.ic.pend } }
  mgmtRecord (deliver m) (0x106C0 + 4 * ww) l

/-! ## Claim, EOI and the stack (R471–R474, R479–R481) -/

/-- R472: the claimable source of highest priority, the higher number winning a tie. -/
def bestClaim (m : Mx) (t : Nat) : Option Nat :=
  m.ic.pend.foldl (fun b s =>
    if claimable m t s then
      match b with
      | none => some s
      | some x => if srcPri m x < srcPri m s ∨ (srcPri m x = srcPri m s ∧ x < s) then some s else some x
    else b) none

/-- The word a claim returns: VALID, PRI, DEPTH, SRC (R490). -/
def claimWord (pri depth s : Nat) : Word := word (2 ^ 31 + 2 ^ 21 * pri + 2 ^ 16 * depth + s)

/-- R472, R480: a read of IC_CLAIMtt. -/
def claimSource (t : Nat) (m : Mx) : Mx :=
  match bestClaim m t with
  | none => answer m (word 0x1FF)
  | some s =>
    let g := target m t
    let m1 := { m with ic := { m.ic with pend := delN m.ic.pend s } }
    if g.frozen then deliver (answer m1 (claimWord 0 g.stack.length s))
    else
      let p := srcPri m s
      deliver (answer (setTarget m1 t { g with stack := (s, p) :: g.stack }) (claimWord p (g.stack.length + 1) s))

/-- R479: the stack fault of a target. -/
def stackFault (m : Mx) (t src : Nat) : Mx :=
  let g := target m t
  let m := setTarget m t { g with frozen := true, stkf := true, badSrc := if g.stkf then g.badSrc else src,
                                  faults := satInc g.faults 255 }
  raise (log m .stackFault t src (match g.stack with | [] => 0x1FF | (s, _) :: _ => s)) 270

/-- R473, R479, R480: a write of IC_EOItt. -/
def endOf (t src : Nat) (m : Mx) : Mx :=
  let g := target m t
  let top := match g.stack with | [] => false | (s, _) :: _ => s == src
  if g.frozen then (if top then m else setTarget m t { g with faults := satInc g.faults 255 })
  else if top then deliver (setTarget m t { g with stack := g.stack.tail })
  else stackFault m t src

/-- R481: a write of 1 to IC_STKRSTtt. -/
def stackReset (t : Nat) (m : Mx) : Mx :=
  deliver (setTarget m t { target m t with stack := [], frozen := false })

/-- R488: a write of IC_TCFGtt; one that changes MODE over a stack that is not empty is refused whole. After a change of
MODE or MSG the request condition is judged anew. -/
def targetConfig (t : Nat) (v : Word) (m : Mx) : Mx :=
  let g := target m t
  let v := v &&& 0xF00F0000
  if bit v 31 ≠ compat m t ∧ g.stack ≠ [] then log m .tcfgRefused t
  else
    let same := (bit v 31 == compat m t) && (bit v 30 == byMsg m t)
    let m := setReg m (icTgtOff t 0) v
    let m := if same then m else stopMessage t m
    deliver (setTarget m t { target m t with req := g.req && same })

/-! ## Messages (R485–R487) -/

/-- The outcome of a target's message is taken: a failure is recorded and raises IC_MSGF, and a message owed is sent. -/
def messageAnswer (t : Nat) (m : Mx) : Mx :=
  match (target m t).msgAns with
  | none => m
  | some a =>
    let m := setTarget m t { target m t with msgAns := none, msgOut := false }
    let m := match a with
      | none => m
      | some c => raise (msgFault m t c) 269
    if (target m t).msgOwed && !(target m t).msgOut then
      let r := sendMsg (setTarget m t { target m t with msgOwed := false }) t
      if r.2 then raise r.1 269 else r.1
    else m

/-! ## Register reads and writes (R489, R490) -/

/-- A word of bits, one for each of 32 sources. -/
def bitsOf (l : List Nat) (ww : Nat) : Word :=
  word ((List.range 32).foldl (fun a b => a + bitAt (l.contains (32 * ww + b)) b) 0)

/-- Reads of the IC block, by offset within it. -/
def icRead (m : Mx) (k : Nat) : Word :=
  if k < 0x520 then reg m (0x10000 + k)
  else if 0x600 ≤ k ∧ k < 0x62C then bitsOf m.ic.en ((k - 0x600) / 4)
  else if 0x640 ≤ k ∧ k < 0x66C then bitsOf m.ic.en ((k - 0x640) / 4)
  else if 0x680 ≤ k ∧ k < 0x6AC then bitsOf m.ic.pend ((k - 0x680) / 4)
  else if 0x6C0 ≤ k ∧ k < 0x6EC then bitsOf m.ic.pend ((k - 0x6C0) / 4)
  else if 0x1000 ≤ k ∧ k < 0x1800 then
    let t := (k - 0x1000) / 0x40
    let g := target m t
    let r := (k - 0x1000) % 0x40
    if r = 0 ∨ r = 0x1C ∨ r = 0x20 ∨ r = 0x24 then reg m (0x10000 + k)
    else if r = 4 then word 0x1FF
    else if r = 0x10 then
      (match g.stack with
       | [] => word (2 ^ 31)
       | (s, p) :: st => word (2 ^ 16 * (st.length + 1) + 16 * s + p))
    else if r = 0x14 then
      word (bitAt g.frozen 31 + bitAt g.stkf 30 + bitAt g.msgf 29 + bitAt g.req 28 + 2 ^ 16 * g.badSrc
            + 2 ^ 8 * g.mcause + g.faults)
    else if r = 0x18 then
      word ((List.range 11).foldl (fun a w =>
        a + bitAt (m.ic.pend.any (fun s => s / 32 == w && !isMgmt s && routed m t s)) w) 0)
    else 0
  else if k = 0x2000 then reg m 0x12000
  else if k = 0x2004 then
    let sel := reg m 0x12000
    (match (target m (fld sel 12 8)).stack.reverse[fld sel 3 0]? with
     | some (s, p) => word (2 ^ 31 + 2 ^ 21 * p + s)
     | none => 0)
  else 0

/-- A write of IC_SRCnnn (R466, R467). -/
def srcWrite (s : Nat) (v : Word) (m : Mx) : Mx :=
  if isMgmt s then log m .icMgmt (icSrcOff s)
  else deliver (setReg m (icSrcOff s) (v &&& (if s ≤ 255 then 0xFFFFF3EF else 0x3EF)))

/-- Writes of the IC block, by offset within it. -/
def icWrite (k : Nat) (v : Word) (m : Mx) : Mx :=
  if k < 0x520 then srcWrite (k / 4) v m
  else if 0x600 ≤ k ∧ k < 0x62C then enableSet ((k - 0x600) / 4) v m
  else if 0x640 ≤ k ∧ k < 0x66C then enableClear ((k - 0x640) / 4) v m
  else if 0x680 ≤ k ∧ k < 0x6AC then pendingSet ((k - 0x680) / 4) v m
  else if 0x6C0 ≤ k ∧ k < 0x6EC then pendingClear ((k - 0x6C0) / 4) v m
  else if 0x1000 ≤ k ∧ k < 0x1800 then
    let t := (k - 0x1000) / 0x40
    let r := (k - 0x1000) % 0x40
    if r = 0 then targetConfig t v m
    else if r = 8 then endOf t (fld v 8 0) m
    else if r = 0xC then onlyIf (bit v 0) (stackReset t) m
    else if r = 0x14 then
      let g := target m t
      setTarget m t { g with stkf := g.stkf && !bit v 30, msgf := g.msgf && !bit v 29 }
    else if r = 0x1C then setReg m (0x10000 + k) (v &&& 0xFFFFFFFC)
    else if r = 0x20 ∨ r = 0x24 then setReg m (0x10000 + k) v
    else m
  else if k = 0x2000 then setReg m 0x12000 (v &&& 0x1F0F)
  else m

/-! ## Meanings -/

/-- COALESCING_TIMER (R470). -/
def execCoalescingTimer (src : Nat) (s : State) : Res := act s (coalesced src)

/-- ENSET (R468). -/
def execEnSet (ww : Nat) (val : Word) (s : State) : Res :=
  act s (onlyIf (decide (ww < 11)) (access (0x10600 + 4 * ww) true (enableSet ww val)))

/-- ENCLR (R468, R482, R484). -/
def execEnClr (ww : Nat) (val : Word) (s : State) : Res :=
  act s (onlyIf (decide (ww < 11)) (access (0x10640 + 4 * ww) true (enableClear ww val)))

/-- PSET (R468, R469). -/
def execPSet (ww : Nat) (val : Word) (s : State) : Res :=
  act s (onlyIf (decide (ww < 11)) (access (0x10680 + 4 * ww) true (pendingSet ww val)))

/-- PCLR (R468). -/
def execPClr (ww : Nat) (val : Word) (s : State) : Res :=
  act s (onlyIf (decide (ww < 11)) (access (0x106C0 + 4 * ww) true (pendingClear ww val)))

/-- CLAIM (R472). -/
def execClaim (t : Nat) (s : State) : Res :=
  act s (onlyIf (decide (t < 32)) (access (icTgtOff t 4) false (claimSource t)))

/-- EOI (R473). -/
def execEoi (t src : Nat) (s : State) : Res :=
  act s (onlyIf (decide (t < 32)) (access (icTgtOff t 8) true (endOf t (src % 512))))

/-- STKRST (R481). -/
def execStkRst (t : Nat) (s : State) : Res :=
  act s (onlyIf (decide (t < 32)) (access (icTgtOff t 0xC) true (stackReset t)))

/-- TCFG_WRITE (R488). -/
def execTcfgWrite (t : Nat) (val : Word) (s : State) : Res :=
  act s (onlyIf (decide (t < 32)) (access (icTgtOff t 0) true (targetConfig t val)))

/-- MESSAGE_RESPONSE (R486, R487). -/
def execMessageResponse (t : Nat) (s : State) : Res := act s (onlyIf (decide (t < 32)) (messageAnswer t))

end Sys2Proof.Machine
end

