-- ==== Sys2Proof/Machine/Weron.lean ====
section
/-! DEFINITION. The Weron ports (02_boundary.md R41–R61): credits, responses and their faults, timeouts and drains. -/

namespace Sys2Proof.Machine

/-- The ports of the complex. -/
def isPort (p : Nat) : Bool := decide (p < 4)

/-! ## What an answered or failed request means to its purpose (R57) -/

/-- Purpose number that a record of a failed request names. -/
def purposeCode : Purpose → Nat
  | .fetch _ => 0 | .cplBody _ => 1 | .cplOrd _ => 1 | .notice _ => 2 | .message _ => 3 | .xfer _ _ => 4 | .own _ _ => 5

/-- A completion's WRITE has failed: its ring stops, with the answer to its WRITE_ORD where that is still owed and at once
otherwise; the entry signals no vector (R35, R126). -/
def bodyFailed (eid : Nat) (c : Cause) (m : Mx) : Mx :=
  match ent m eid with
  | some e =>
    if e.stage = .written then setEnt m eid { e with bodyBad := some c }
    else if e.stage = .noticed then ringFault (setEnt m eid { e with bodyBad := some c }) (eidRing eid) 0x21 c (eidIdx eid)
    else m
  | none => ringFault m (eidRing eid) 0x21 c (eidIdx eid)

/-- Hand a request's answer to its purpose. -/
def handBack (q : Req) (c : Option Cause) (data : Mem) (m : Mx) : Mx :=
  match q.why with
  | .fetch r => setRing m r { ring m r with ans := some (c, data) }
  | .cplBody e => (match c with | some f => bodyFailed e f m | none => m)
  | .cplOrd e => (match ent m e with | some x => setEnt m e { x with ordAns := some c } | none => m)
  | .notice e => (match ent m e with | some x => setEnt m e { x with ntcAns := some c } | none => m)
  | .message t => setTarget m t { target m t with msgAns := some c }
  | .xfer ee id => pieceAnswer ee id c data m
  | .own cfg no => ownAnswer cfg no c data m

/-- R57: a request has ended; a failure is recorded. -/
def settle (p : Nat) (q : Req) (c : Option Cause) (data : Mem) (m : Mx) : Mx :=
  let m := match c with
    | some f => log m .reqFailed p (causeCode f) (purposeCode q.why)
    | none => m
  handBack q c data m

/-! ## Credits (R44, R45) -/

/-- A request credit returned. -/
def creditRequest (p : Nat) (m : Mx) : Mx :=
  if (port m p).reqCr < 64 then pump (setPort m p { port m p with reqCr := (port m p).reqCr + 1 }) p
  else raise (log m .hpCrd p) 267

/-- A write-data credit returned. -/
def creditWrite (p : Nat) (m : Mx) : Mx :=
  if (port m p).wrCr < 256 then pump (setPort m p { port m p with wrCr := (port m p).wrCr + 1 }) p
  else raise (log m .hpCrd p) 267

/-! ## Responses (R48–R51, R55) -/

/-- R55: the cause of a response status. -/
def statCause : Nat → Option Cause
  | 0 => none
  | 1 => some .tgtErr
  | 2 => some .noTarget
  | _ => some .timeout

/-- R51: a response has broken the port rules. -/
def protoFault (p tag fault : Nat) (m : Mx) : Mx := raise (log m .hpProto p tag fault) 301

/-- The 128 bytes of a beat. -/
def beatBytes (d : BitVec 1024) : List Byte := leBytes 128 d.toNat

/-- Place a beat's bytes at their addresses. -/
def placeBeat (o : Out) (d : BitVec 1024) : Mem := memWrite o.data (o.req.addr + 128 * o.got) (beatBytes d)

/-- Take a request off a port; its tag is free, or retired. -/
def dropOut (m : Mx) (p tag : Nat) (retire : Option ReqOp) : Mx :=
  let q := port m p
  let q := { q with out := q.out.filter (fun o => o.tag != tag),
                    retired := match retire with
                      | some op => q.retired ++ [{ tag := tag, op := op }]
                      | none => q.retired }
  setPort m p (checkDrain q)

/-- R51: a request fails with PROTO. -/
def protoFail (p : Nat) (o : Out) (retire : Option ReqOp) (fault : Nat) (m : Mx) : Mx :=
  settle p o.req (some .proto) [] (protoFault p o.tag fault (dropOut m p o.tag retire))

/-- A read-data beat for an outstanding READ. -/
def readBeat (p : Nat) (o : Out) (stat : Nat) (d : BitVec 1024) (last : Bool) (m : Mx) : Mx :=
  let o' := { o with got := o.got + 1, data := placeBeat o d,
                     bad := match o.bad with | some c => some c | none => statCause stat }
  if last ∧ o'.got < o.req.beats then protoFail p o none 3 m
  else if last then settle p o.req o'.bad o'.data (dropOut m p o.tag none)
  else if o'.got = o.req.beats then protoFail p o (some .read) 4 m
  else
    let q := port m p
    setPort m p { q with out := q.out.map (fun x => if x.tag = o.tag then o' else x) }

/-- A beat whose tag names no outstanding request: it answers a retired tag, or breaks the rules. One whose kind does not
fit a retired request is discarded and breaks them too, the tag staying retired (log entry 118). -/
def strayBeat (p : Nat) (kind : Bool) (tag : Nat) (last : Bool) (m : Mx) : Mx :=
  let q := port m p
  match q.retired.find? (fun r => r.tag == tag) with
  | some r =>
    if kind != (r.op != .read) then protoFault p tag 2 m
    else if kind || last then setPort m p { q with retired := q.retired.filter (fun x => x.tag != tag) }
    else m
  | none => protoFault p tag 1 m

/-- A write response comes before the last beat of its write has been sent (R49). -/
def tooEarly (q : Port) (tag : Nat) : Bool := q.owed.any (fun b => b.tag == tag)

/-- R49, R51: a response beat. A write response before its write's last beat is discarded and the request has failed with
PROTO, its tag retired (log entry 118). -/
def beat (p : Nat) (kind : Bool) (tag stat : Nat) (d : BitVec 1024) (last : Bool) (m : Mx) : Mx :=
  match (port m p).out.find? (fun o => o.tag == tag) with
  | none => strayBeat p kind tag last m
  | some o =>
    if kind != (o.req.op != .read) then protoFail p o (some o.req.op) 2 m
    else if kind && tooEarly (port m p) tag then protoFail p o (some o.req.op) 5 m
    else if kind then settle p o.req (statCause stat) [] (dropOut m p tag none)
    else readBeat p o stat d last m

/-! ## Timeouts and drains (R56–R60) -/

/-- R56, R58: a request is unanswered at DX_TMO: it fails and its tag is retired. -/
def timeOut (p tag : Nat) (m : Mx) : Mx :=
  match (port m p).out.find? (fun o => o.tag == tag) with
  | none => m
  | some o => settle p o.req (some .tmo) [] (dropOut m p tag (some o.req.op))

/-- R59: ask the host side to retire every outstanding request. -/
def startDrain (p : Nat) (m : Mx) : Mx := setPort m p { port m p with drain := true }

/-- R59: DRAINED rises: abandoned requests fail, every tag is free, both counts are zero, DRAIN falls. The beats of
abandoned writes that are still owed are not sent (log entry 117). -/
def drainDone (p : Nat) (m : Mx) : Mx :=
  let q := port m p
  if !q.drain then m
  else
    let m := setPort m p { q with out := [], retired := [], reqCr := 0, wrCr := 0, owed := [], drain := false, down := false }
    each q.out (fun o m => settle p o.req (some .drained) [] m) m

/-- A request that a port has not issued: the slot of its WRITE_ORD is not one that CPT may pass (03_queues.md R115). -/
def neverIssued (q : Req) (m : Mx) : Mx :=
  match q.why with
  | .cplOrd e => setRing m (eidRing e) { ring m (eidRing e) with orded := (ring m (eidRing e)).orded.filter (fun j => j != eidIdx e) }
  | _ => m

/-- R60: the port is out of service; what it still owes and what waits for it fails; beats still owed are not sent (log
entry 117). -/
def portDown (p : Nat) (m : Mx) : Mx :=
  let q := port m p
  if !q.drain || q.down then m
  else
    let m := setPort m p { q with out := [], waiting := [], owed := [], down := true,
                                  retired := q.retired ++ q.out.map (fun o => { tag := o.tag, op := o.req.op }) }
    let m := each q.waiting neverIssued (raise (log m .hpDown p) 268)
    each (q.out.map (·.req) ++ q.waiting) (fun r m => settle p r (some .outOfService) [] m) m

/-! ## Meanings -/

/-- REQUEST_CREDIT_RETURN (R44, R45). -/
def execRequestCredit (port : Nat) (s : State) : Res := act s (onlyIf (isPort port) (creditRequest port))

/-- WRITE_DATA_CREDIT_RETURN (R44, R45). -/
def execWriteCredit (port : Nat) (s : State) : Res := act s (onlyIf (isPort port) (creditWrite port))

end Sys2Proof.Machine
end

