-- ==== Sys2Proof/Machine/Queue.lean ====
section
/-! DEFINITION. The queue engine (03_queues.md R96–R146): ring states, doorbells, fetching, holds, shutdown and function
reset, completions and notices. -/

namespace Sys2Proof.Machine

/-! ## Requests of the queue engine (01_architecture.md R22; 02_boundary.md R60) -/

/-- Make a request on a ring's port; a port out of service fails it at once. -/
def ask (p : Nat) (q : Req) (m : Mx) : Mx := if (port m p).down then settle p q (some .outOfService) [] m else request m p q

/-! ## Occupancy and states (R97, R98, R106, R107) -/

/-- R115: the WRITE_ORD of the slot at an index has been made and its port has issued it. -/
def ordIssued (m : Mx) (r i : Nat) : Bool :=
  (ring m r).orded.contains i && !(port m (ringPort m r)).waiting.any (fun q => q.why == .cplOrd (eidOf r i))

/-- R115: CPT from an index on, over the slots whose WRITE_ORD has been issued. -/
def cptFrom (m : Mx) (r : Nat) : Nat → Nat → Nat
  | 0, i => i
  | n + 1, i => if ordIssued m r i then cptFrom m r n (idxAdd m r i 1) else i

/-- R107, R115: QEnnn_CPT. -/
def cptAt (m : Mx) (r : Nat) : Nat := cptFrom m r (slots m r) (ring m r).cpt

/-- (TAIL − HEAD). -/
def occupancy (m : Mx) (r : Nat) : Nat := idxSub m r (ring m r).tail (ring m r).head

/-- OUTST: entries fetched and not yet completed. -/
def outst (m : Mx) (r : Nat) : Nat := (ring m r).live.length

def stateCode : RingState → Nat
  | .disabled => 0 | .active => 1 | .stopping => 2 | .stoppedErr => 3 | .resetting => 4

def isOrphan (i : Item) : Bool :=
  match i with
  | .orphan _ _ => true
  | _ => false

/-- 05_channel_engine.md R224, R225: the reset that a die is to have ends orphan operations, running and suspended, and the
sense of a read of the complex's own: a member read's slots count as erasures (10_stripes.md R388), a re-read runs again. -/
def endOrphan (d : Nat) (m : Mx) : Mx :=
  let x := die m d
  let held := x.held.any (fun h => isOrphan h.1)
  let stops := match x.cur with
    | some (.orphan _ _) => true
    | some .suspend => held
    | some .resume => held
    | some (.member _) => true
    | some (.reread _ _ _ _ _) => true
    | _ => false
  let m := match x.cur with
    | some (.member id) => memberSensed id 0x24 (stopFrame d m)
    | some (.reread e cs n k o) => addAhead d (.reread e cs n k o) (stopFrame d m)
    | _ => if stops then stopFrame d m else m
  let m := if stops then setDie m d { die m d with busy := x.busy } else m
  if held then setDie m d { die m d with held := none, heldBusy := none, suspLeft := [], suspInt := [] } else m

/-- 05_channel_engine.md R224: a lock of the ring ends; where it was HELD the die's reset ends what ran there. -/
def resetLock (r d : Nat) (m : Mx) : Mx :=
  let m := match (die m d).lock with
    | .held _ => endOrphan d m
    | _ => m
  lockOwnerReset r d m

/-- 05_channel_engine.md R224: the owner of its locks is reset. -/
def resetLocks (r : Nat) (m : Mx) : Mx := each (lockedDies m r) (resetLock r) m

/-- R115: CPT is brought forward over every slot whose WRITE_ORD has been issued, and those slots are forgotten. -/
def cptTurn (r : Nat) (m : Mx) : Mx :=
  let g := ring m r
  let c := cptAt m r
  setRing m r { g with cpt := c, orded := g.orded.filter (fun j => idxSub m r j c < slots m r) }

/-- A ring with nothing left to complete becomes DISABLED (R122, R124); CPT keeps its value whatever SIZE then holds. -/
def disable (r : Nat) (m : Mx) : Mx :=
  let m := cptTurn r m
  setRing m r { ring m r with state := .disabled, fence := none }

/-- R122: OUTST of a STOPPING ring reaches 0; the ring's locks end with it (R224). -/
def stopTurn (r : Nat) (m : Mx) : Mx :=
  let g := ring m r
  if g.state = .stopping ∧ g.live = [] ∧ g.reqAt = none then resetLocks r (disable r m) else m

/-! ## QE_CTRL (R105, R111, R122–R126) -/

/-- R108, R111: a refused doorbell or configuration: the ring-level error and event QE_DB. -/
def dbError (r code idx : Nat) (m : Mx) : Mx := raise (ringError m r code 0 idx) 264

/-- R111: a write that has no effect but its record. -/
def ctrlNoted (r : Nat) (m : Mx) : Mx := log m .ctrlIgnored r

/-- R111: ENABLE. Rings 259 to 263 stay DISABLED (14_dome_nightlog.md R491). -/
def enableRing (r : Nat) (m : Mx) : Mx :=
  let g := ring m r
  match g.state with
  | .disabled =>
    if 259 ≤ r then m
    else if 4 ≤ ringSize m r ∧ ringSize m r ≤ 16 then
      setRing m r { state := .active, err := g.err, errIdx := g.errIdx }
    else dbError r 0x14 0 m
  | .active => ctrlNoted r m
  | .stoppedErr => ctrlNoted r m
  | _ => m

/-- R124, R122: the entries of a ring that a reset or a shutdown aborts: those whose outcome is not final. One whose outcome is
final, its completion not yet written, keeps its own status (log entry 137). -/
def openEnts (m : Mx) (r : Nat) : List Nat :=
  ((ring m r).live.map (eidOf r)).filter (fun eid => match ent m eid with
    | some e => e.stage != .final && e.stage != .written && e.stage != .noticed
    | none => false)

/-- R122: what a shutdown does to one entry; one whose data is moving ends once its requests are answered (R35, R193). -/
def shutEntry (eid : Nat) (m : Mx) : Mx :=
  match ent m eid with
  | none => m
  | some e =>
    if (engineOf m eid).isSome then each (engineOf m eid).toList (fun ee m => cutXfer ee 0x0200 (if begun m eid e then 2 else 1) m) m
    else if !begun m eid e then finishCut eid { e with arr := false } 0x0200 1 false (freeResv (withdraw eid e m) (.entry eid))
    else if (workDies e).any (runsFor m eid) then
      let m := each ((workDies e).filter (fun d => !runsFor m eid d)) (detach eid) m
      setEnt m eid { e with cut := some 2, bind := e.bind.filter (fun b => runsFor m eid b.2) }
    else finishCut eid { e with arr := false } 0x0200 2 true (freeResv (withdraw eid e m) (.entry eid))

/-- R122: SHUTDOWN. -/
def shutdownRing (r : Nat) (m : Mx) : Mx :=
  let g := ring m r
  match g.state with
  | .disabled => ctrlNoted r m
  | .stopping => m
  | .resetting => m
  | _ =>
    let l := openEnts m r
    let m := unfetch r (setRing m r { g with state := .stopping, hold := none, cache := [] })
    stopTurn r (each l shutEntry m)

/-- R124: what a function reset does to one entry. -/
def resetEntry (eid : Nat) (m : Mx) : Mx :=
  match ent m eid with
  | none => m
  | some e => finishCut eid { e with arr := false } 0x0200 3 (begun m eid e) (freeResv (withdraw eid e m) (.entry eid))

/-- R124: FRESET. -/
def resetRing (r : Nat) (m : Mx) : Mx :=
  let g := ring m r
  match g.state with
  | .disabled => ctrlNoted r m
  | .resetting => m
  | _ =>
    let l := openEnts m r
    let m := unfetch r (setRing m r { g with state := .resetting, hold := none, cache := [] })
    resetLocks r (each l resetEntry m)

/-- R124: every fetched entry has completed. -/
def resetDone (r : Nat) (m : Mx) : Mx :=
  let g := ring m r
  if g.state = .resetting ∧ g.live = [] ∧ g.reqAt = none then disable r m else m

/-- R111, R126: RESUME. -/
def resumeRing (r : Nat) (m : Mx) : Mx :=
  let g := ring m r
  match g.state with
  | .disabled => ctrlNoted r m
  | .stoppedErr => setRing m r { g with state := .active }
  | _ => m

/-- R105: only the highest bit set acts. -/
def ctrlWrite (r : Nat) (v : Word) (m : Mx) : Mx :=
  if bit v 3 then resumeRing r m else if bit v 2 then resetRing r m else if bit v 1 then shutdownRing r m
  else if bit v 0 then enableRing r m else m

/-! ## Management rings and configuration (R104, R110) -/

/-- R110: host firmware's write to what belongs to Dome leaves only a record. -/
def unlessMgmt (a : Agent) (mgmt : Bool) (off : Nat) (f : Mx → Mx) (m : Mx) : Mx :=
  if a = .host ∧ mgmt then log m .mgmtWrite off else f m

/-- R104: a write of BASE_LO, BASE_HI or CFG (`k` 0, 4 or 8). -/
def ringCfg (r k : Nat) (v : Word) (m : Mx) : Mx :=
  if (ring m r).state ≠ .disabled then log m .ringCfgRefused r
  else if k = 0 then setReg m (qeRingOff r 0) (v &&& 0xFFFFF000)
  else if k = 4 then setReg m (qeRingOff r 4) v
  else if k = 8 then maskedWrite (qeRingOff r 8) 0x03FF001F 0x80000000 v m
  else m

/-! ## Doorbells (R112–R114; 15_startup_reset_power.md R548) -/

/-- R548: exit from P1 or P2. -/
def wake (m : Mx) : Mx := { m with gl := { m.gl with pstate := 0, req := 0 } }

/-- R548: an accepted doorbell in P1 or P2. Leaving P2, each group's set is applied and verified at its next bus-idle boundary
(07_phy_calibration.md R286). -/
def autoWake (m : Mx) : Mx :=
  if m.gl.autowake ∧ m.gl.pstate = 1 then wake m
  else if m.gl.autowake ∧ m.gl.pstate = 2 then
    each (List.range 32) (fun g m => wishSame g (setPhy m g { phy m g with waking := true })) (wake m)
  else m

/-- R113: the tail doorbell. -/
def tailBell (r : Nat) (v : Word) (m : Mx) : Mx :=
  let g := ring m r
  let n := v.toNat
  let bad (code : Nat) : Mx := dbError r code (n % 131072) m
  if g.state ≠ .active ∧ g.state ≠ .stoppedErr then bad 0x12
  else if idxMod m r ≤ n then bad 0x13
  else if slots m r < occupancy m r + idxSub m r n g.tail then bad 0x10
  else autoWake (setRing m r { g with tail := n })

/-- R114: the head doorbell. -/
def headBell (r : Nat) (v : Word) (m : Mx) : Mx :=
  let g := ring m r
  let n := v.toNat
  let bad (code : Nat) : Mx := dbError r code (n % 131072) m
  if g.state ≠ .active ∧ g.state ≠ .stoppedErr ∧ g.state ≠ .stopping then bad 0x12
  else if idxMod m r ≤ n then bad 0x13
  else if idxSub m r (cptAt m r) g.head < idxSub m r n g.head then bad 0x11
  else autoWake (setRing m r { g with head := n })

/-! ## Fetching (R116–R118; 15_startup_reset_power.md R534, R546) -/

/-- Entries that the next fetch of a ring may cover. -/
def fetchRoom (m : Mx) (r : Nat) : Nat :=
  let g := ring m r
  let toHold := match g.hold with
    | some h => idxSub m r h g.fetch
    | none => 8
  [8 - g.cache.length, ringWin m r + 1 - outst m r, idxSub m r g.tail g.fetch, slots m r - g.fetch % slots m r,
   64 - g.fetch % 64, toHold].foldl min 8

/-- R534, R546: entries of a ring are fetched in this phase and power state. -/
def fetchOpen (m : Mx) (r : Nat) : Bool :=
  (m.gl.pstate == 0) && !m.gl.waitQuiet &&
  (if r < 256 then m.gl.phase == .ready
   else m.gl.phase == .boot || m.gl.phase == .train || m.gl.phase == .restore || m.gl.phase == .ready)

/-- R116: a ring is ready to fetch. -/
def fetchReady (m : Mx) (r : Nat) : Bool :=
  (ring m r).state == .active && (ring m r).reqAt.isNone && fetchOpen m r && decide (0 < fetchRoom m r)

/-- R116: the ring that the rotation serves next. -/
def nextFetch (m : Mx) : Option Nat :=
  ((List.range 264).map (fun i => (m.qe.rot + i) % 264)).find? (fetchReady m)

/-- ENTRY_FETCH's work. -/
def fetch (r : Nat) (m : Mx) : Mx :=
  if nextFetch m ≠ some r then m
  else
    let g := ring m r
    let n := fetchRoom m r
    let m := setRing m r { g with reqAt := some (g.fetch, n), keep := n, ans := none }
    let m := { m with qe := { m.qe with rot := (r + 1) % 264 } }
    ask (ringPort m r) (readReq (slotAddr m r g.fetch) (64 * n) (.fetch r)) m

/-- An entry has arrived. -/
def arrived (r i : Nat) (data : Mem) (m : Mx) : Mx :=
  let g := ring m r
  let m := setRing m r { g with live := g.live ++ [i], cache := if dispatches g then g.cache ++ [i] else g.cache }
  let eid := eidOf r i
  let m := setEnt m eid { raw := BitVec.ofNat 512 (leNat (memRead data (slotAddr m r i) 64)) }
  if g.state = .stopping then shutEntry eid m else if g.state = .resetting then resetEntry eid m else m

/-- ENTRY_FETCH_DONE's work (R117). -/
def fetchDone (r : Nat) (m : Mx) : Mx :=
  let g := ring m r
  match g.ans, g.reqAt with
  | some (c, data), some (i, _) =>
    let m := setRing m r { g with ans := none, reqAt := none, keep := 0 }
    match c with
    | some f => stopTurn r (if dispatches g then ringFault m r 0x20 f i else m)
    | none =>
      let m := setRing m r { ring m r with fetch := if g.keep = 0 then g.fetch else idxAdd m r i g.keep }
      stopTurn r (each ((List.range g.keep).map (idxAdd m r i)) (fun j m => arrived r j data m) m)
  | _, _ => m

/-! ## Holds (R119–R121) -/

/-- The index from HEAD on that a slot of the complex has. -/
def ownedIdx (m : Mx) (r s : Nat) : Option Nat :=
  let o := (s + slots m r - (ring m r).head % slots m r) % slots m r
  if o < occupancy m r then some (idxAdd m r (ring m r).head o) else none

/-- Place of an index in ring order from HEAD. -/
def fromHead (m : Mx) (r i : Nat) : Nat := idxSub m r i (ring m r).head

/-- R120: an index has been dispatched. -/
def dispatchedIdx (m : Mx) (r i : Nat) : Bool :=
  decide (fromHead m r i < fromHead m r (ring m r).fetch) && !(ring m r).cache.contains i

def setInv (n : Nat) (m : Mx) : Mx := { m with qe := { m.qe with invRes := n } }

/-- R120: dispatch stops at an index; the cached copies from it on are dropped. -/
def holdFrom (r i : Nat) (m : Mx) : Mx :=
  let g := ring m r
  let o (j : Nat) : Nat := fromHead m r j
  let h := match g.hold with
    | some x => if o x < o i then x else i
    | none => i
  let drop := g.cache.filter (fun j => o h ≤ o j)
  let keep := match g.reqAt with
    | some (a, _) => min g.keep (o h - o a)
    | none => g.keep
  let m := setRing m r { g with hold := some h, cache := g.cache.filter (fun j => o j < o h),
                                live := g.live.filter (fun j => !drop.contains j),
                                fetch := if o h < o g.fetch then h else g.fetch, keep := keep }
  each drop (fun j m => dropEnt m (eidOf r j)) m

/-- R120: HOLD; the result is 1 HELD, 2 LATE or 3 NOT_POSTED. -/
def holdAt_ (a : Agent) (r s : Nat) (m : Mx) : Mx :=
  if 255 < r then setInv 3 (if a = .host then log m .mgmtWrite r else m)
  else
    let g := ring m r
    if !dispatches g || decide (slots m r ≤ s) then setInv 3 m
    else match ownedIdx m r s with
      | none => setInv 3 m
      | some i => if dispatchedIdx m r i then setInv 2 m else setInv 1 (holdFrom r i m)

/-- R120: RELEASE. -/
def releaseHold (a : Agent) (r : Nat) (m : Mx) : Mx :=
  if 255 < r then (if a = .host then log m .mgmtWrite r else m)
  else setRing m r { ring m r with hold := none }

/-- R119, R120: a write of QE_INV. -/
def invWrite (a : Agent) (v : Word) (m : Mx) : Mx :=
  if fld v 31 30 = 1 then holdAt_ a (fld v 24 16) (fld v 15 0) m
  else if fld v 31 30 = 2 then releaseHold a (fld v 24 16) m
  else if a = .host ∧ 255 < fld v 24 16 then log m .mgmtWrite (fld v 24 16)
  else m

/-! ## Completions (R115, R130, R133, R142–R146) -/

/-- COMPLETION_WRITE's work (R133). -/
def writeCpl (r i : Nat) (m : Mx) : Mx :=
  let eid := eidOf r i
  match ent m eid with
  | none => m
  | some e =>
    if e.stage ≠ .final then m
    else
      let bs := completion e
      let a := slotAddr m r i
      let p := ringPort m r
      let m := setEnt m eid { e with stage := .written }
      let m := if (port m p).down then m else setRing m r { ring m r with orded := (ring m r).orded ++ [i] }
      let m := ask p (writeReq .write (a + 2) (bs.drop 2) (.cplBody eid)) m
      let m := ask p (writeReq .writeOrd a (bs.take 2) (.cplOrd eid)) m
      cptTurn r m

/-- R176: a FENCE whose earlier entries have all completed. -/
def fenceTurn (r : Nat) (m : Mx) : Mx :=
  match (ring m r).fence with
  | none => m
  | some i =>
    match ent m (eidOf r i) with
    | some e => if e.stage = .fenced ∧ earlierOpen m r (eidOf r i) = false then conclude (eidOf r i) e 0 0 false m else m
    | none => m

/-- An entry has completed: it leaves OUTST, and what waited for it goes on. -/
def completed (r i : Nat) (m : Mx) : Mx :=
  let m := setRing m r { ring m r with live := (ring m r).live.filter (fun j => j != i) }
  stopTurn r (fenceTurn r (dropEnt m (eidOf r i)))

/-- R140: notice groups. -/
def grpOf (r : Nat) : Nat := r / 8
def ntcSize (m : Mx) (g : Nat) : Nat := fld (reg m (qeNtcOff g 8)) 4 0
def ntcMod (m : Mx) (g : Nat) : Nat := 2 ^ (ntcSize m g + 1)
def ntcSub (m : Mx) (g a b : Nat) : Nat := (a + ntcMod m g - b % ntcMod m g) % ntcMod m g
def ntcFull (m : Mx) (g : Nat) : Bool := ntcSub m g (ntc m g).tail (ntc m g).head == 2 ^ ntcSize m g
def ntcBase (m : Mx) (g : Nat) : Nat :=
  (reg m (qeNtcOff g 0)).toNat / 4096 * 4096 + 2 ^ 32 * (reg m (qeNtcOff g 4)).toNat

/-- R145: a notice that cannot be written. -/
def ntcDrop (g : Nat) (m : Mx) : Mx :=
  let n := ntc m g
  let m := if n.ovf then m else log m .ntcOvf g
  setNtc m g { n with ovf := true, drops := satInc n.drops 0xFFFF }

/-- R142, R143: the 8 bytes of a notice at an index. -/
def noticeBytes (m : Mx) (g r i idx : Nat) (e : Ent) : List Byte :=
  let phase := 1 - idx / 2 ^ ntcSize m g % 2
  leBytes 2 r ++ leBytes 2 (i % slots m r) ++ leBytes 2 e.status ++ leBytes 2 (32768 * phase + cflags e)

/-- R142: append a notice. -/
def ntcAppend (g r i : Nat) (e : Ent) (m : Mx) : Mx :=
  let n := ntc m g
  let a := ntcBase m g + 8 * (n.tail % 2 ^ ntcSize m g)
  let bs := noticeBytes m g r i n.tail e
  let m := setNtc m g { n with tail := (n.tail + 1) % ntcMod m g }
  let m := setEnt m (eidOf r i) { e with stage := .noticed }
  ask (ringPort m r) (writeReq .write a bs (.notice (eidOf r i))) m

/-- WRITE_ORD_RESPONSE's work (01_architecture.md R35, R27; R111, R142, R145, R176). -/
def ordAnswered (r i : Nat) (m : Mx) : Mx :=
  let eid := eidOf r i
  match ent m eid with
  | none => m
  | some e =>
    match e.stage, e.ordAns with
    | .written, some c =>
      let m := freeResv (setEnt m eid { e with ordAns := none }) (.entry eid)
      let m := if (ring m r).fence = some i then setRing m r { ring m r with fence := none } else m
      match c.or e.bodyBad with
      | some f => completed r i (ringFault m r 0x21 f i)
      | none =>
        let g := grpOf r
        if eNotice e && (ntc m g).en then
          (if (ntc m g).ovf || ntcFull m g then completed r i (signalVector (ntcDrop g m) r)
           else ntcAppend g r i { e with ordAns := none } m)
        else completed r i (signalVector m r)
    | _, _ => m

/-- NOTICE_WRITE_RESPONSE's work (R35, R146). -/
def ntcAnswered (r i : Nat) (m : Mx) : Mx :=
  match ent m (eidOf r i) with
  | none => m
  | some e =>
    match e.stage, e.ntcAns with
    | .noticed, some none => completed r i (if e.bodyBad.isSome then m else signalVector m r)
    | .noticed, some (some f) => completed r i (ringFault m r 0x22 f i)
    | _, _ => m

/-! ## Notice registers (R140, R141) -/

/-- R140: a write of CFG. EN is set whatever SIZE holds; the group then runs with SIZE as it stands (log entry 139). -/
def ntcCfg (g : Nat) (v : Word) (m : Mx) : Mx :=
  let n := ntc m g
  let m := if n.en then m else setReg m (qeNtcOff g 8) (v &&& 0x1F)
  if bit v 31 then (if n.en then m else setNtc m g { n with en := true, head := 0, tail := 0 })
  else setNtc m g { n with en := false }

/-- R141: a write of HEAD. -/
def ntcHead (g : Nat) (v : Word) (m : Mx) : Mx :=
  let n := ntc m g
  let h := fld v 16 0
  if ntcMod m g ≤ h ∨ ntcSub m g n.tail n.head < ntcSub m g h n.head then log m .ntcHead g
  else setNtc m g { n with head := h }

/-- Writes of a notice group's registers, by offset within it. What is written to BASE or SIZE while EN is 1 is lost (R141, log
entry 138). -/
def ntcWrite (g k : Nat) (v : Word) (m : Mx) : Mx :=
  if k = 0 then (if (ntc m g).en then m else setReg m (qeNtcOff g 0) (v &&& 0xFFFFF000))
  else if k = 4 then (if (ntc m g).en then m else setReg m (qeNtcOff g 4) v)
  else if k = 8 then ntcCfg g v m
  else if k = 0xC then ntcHead g v m
  else if k = 0x14 ∧ bit v 0 then setNtc m g { ntc m g with ovf := false, drops := 0 }
  else m

/-! ## Registers of the block -/

/-- Reads of a ring's registers. -/
def ringRead (m : Mx) (r k : Nat) : Word :=
  let g := ring m r
  if k = 0 ∨ k = 4 ∨ k = 8 then reg m (qeRingOff r k)
  else if k = 0x10 then word (bitAt g.hold.isSome 17 + 2 ^ 8 * outst m r + stateCode g.state)
  else if k = 0x14 then word (g.head % idxMod m r)
  else if k = 0x18 then word (g.tail % idxMod m r)
  else if k = 0x1C then word (g.fetch % idxMod m r)
  else if k = 0x20 then word (cptAt m r % idxMod m r)
  else if k = 0x24 then g.err
  else if k = 0x28 then word g.errIdx
  else 0

/-- Reads of a notice group's registers. -/
def ntcRead (m : Mx) (g k : Nat) : Word :=
  let n := ntc m g
  if k = 0 ∨ k = 4 then reg m (qeNtcOff g k)
  else if k = 8 then word (bitAt n.en 31 + ntcSize m g)
  else if k = 0xC then word n.head
  else if k = 0x10 then word n.tail
  else if k = 0x14 then word (65536 * n.drops + bitAt n.ovf 0)
  else 0

/-- Reads of the QE block, by offset within it. -/
def qeRead (m : Mx) (k : Nat) : Word :=
  if k < 0x4200 then ringRead m (k / 64) (k % 64)
  else if 0x8000 ≤ k ∧ k < 0x8420 then ntcRead m ((k - 0x8000) / 32) ((k - 0x8000) % 32)
  else if k = 0x9004 then word (bitAt m.qe.invBusy 31 + m.qe.invRes)
  else if k = 0x9008 then word ((List.range 32).foldl (fun a g => a + bitAt (ntc m g).ovf g) 0)
  else if k = 0x900C then reg m qeHopOff
  else 0

/-- Writes of a ring's registers, by offset within it. -/
def ringWrite (r k : Nat) (v : Word) (m : Mx) : Mx :=
  if k = 0 ∨ k = 4 ∨ k = 8 then ringCfg r k v m
  else if k = 0xC then ctrlWrite r v m
  else if k = 0x24 ∧ bit v 31 then setRing m r { ring m r with err := (ring m r).err &&& 0x7FFFFFFF }
  else m

/-- Writes of the QE block, by offset within it. -/
def qeWrite (a : Agent) (k : Nat) (v : Word) (m : Mx) : Mx :=
  if k < 0x4200 then unlessMgmt a (decide (0x4000 ≤ k)) (0x20000 + k) (ringWrite (k / 64) (k % 64) v) m
  else if 0x8000 ≤ k ∧ k < 0x8420 then
    unlessMgmt a (decide (0x8400 ≤ k)) (0x20000 + k) (ntcWrite ((k - 0x8000) / 32) ((k - 0x8000) % 32) v) m
  else if k = 0x9000 then invWrite a v m
  else if k = 0x900C then setReg m qeHopOff (v &&& 0xFFF)
  else m

/-- Writes of the doorbells, by offset within their block. -/
def dbWrite (a : Agent) (k : Nat) (v : Word) (m : Mx) : Mx :=
  let r := k / 8
  if r < 264 then
    unlessMgmt a (decide (256 ≤ r)) (0x100000 + k) (if k % 8 = 0 then tailBell r v else headBell r v) m
  else m

/-! ## Meanings -/

/-- A write of one register of a ring by firmware. -/
def ringBy (a : Agent) (r k : Nat) (f : Mx → Mx) (m : Mx) : Mx :=
  onlyIf (isRing r) (writeBy a (qeRingOff r k) (unlessMgmt a (decide (256 ≤ r)) (qeRingOff r k) f)) m

/-- ENABLE (R111). -/
def execEnable (agent : Agent) (ring : Nat) (s : State) : Res := act s (ringBy agent ring 0xC (enableRing ring))

/-- SHUTDOWN (R122). -/
def execShutdown (agent : Agent) (ring : Nat) (s : State) : Res := act s (ringBy agent ring 0xC (shutdownRing ring))

/-- RING_FRESET (R124). -/
def execRingFreset (agent : Agent) (ring : Nat) (s : State) : Res := act s (ringBy agent ring 0xC (resetRing ring))

/-- RING_FRESET_DONE (R124). -/
def execRingFresetDone (ring : Nat) (s : State) : Res := act s (onlyIf (isRing ring) (resetDone ring))

/-- RESUME (R111). -/
def execResume (agent : Agent) (ring : Nat) (s : State) : Res := act s (ringBy agent ring 0xC (resumeRing ring))

/-- RING_CONFIG_WRITE (R104). -/
def execRingConfigWrite (agent : Agent) (ring reg : Nat) (val : Word) (s : State) : Res :=
  act s (onlyIf (reg == 0 || reg == 4 || reg == 8) (ringBy agent ring reg (ringCfg ring reg val)))

/-- DBTAIL (R113). -/
def execDbTail (agent : Agent) (ring : Nat) (val : Word) (s : State) : Res :=
  act s (onlyIf (isRing ring) (writeBy agent (dbOff ring 0) (unlessMgmt agent (decide (256 ≤ ring)) (dbOff ring 0) (tailBell ring val))))

/-- DBHEAD (R114). -/
def execDbHead (agent : Agent) (ring : Nat) (val : Word) (s : State) : Res :=
  act s (onlyIf (isRing ring) (writeBy agent (dbOff ring 4) (unlessMgmt agent (decide (256 ≤ ring)) (dbOff ring 4) (headBell ring val))))

/-- ENTRY_FETCH (R116). -/
def execEntryFetch (ring : Nat) (s : State) : Res := act s (onlyIf (isRing ring) (fetch ring))

/-- ENTRY_FETCH_DONE (R117). -/
def execEntryFetchDone (ring : Nat) (s : State) : Res := act s (onlyIf (isRing ring) (fetchDone ring))

/-- HOLD (R120). -/
def execHold (ring slot : Nat) (s : State) : Res :=
  act s (onlyIf (decide (ring < 512) && decide (slot < 65536)) (access 0x29000 true (holdAt_ .host ring slot)))

/-- RELEASE (R120). -/
def execRelease (ring : Nat) (s : State) : Res :=
  act s (onlyIf (decide (ring < 512)) (access 0x29000 true (releaseHold .host ring)))

/-- COMPLETION_WRITE (R133). -/
def execCompletionWrite (ring idx : Nat) (s : State) : Res :=
  act s (onlyIf (isRing ring && decide (idx < 131072)) (writeCpl ring idx))

/-- WRITE_ORD_RESPONSE (R35). -/
def execWriteOrdResponse (ring idx : Nat) (s : State) : Res :=
  act s (onlyIf (isRing ring && decide (idx < 131072)) (ordAnswered ring idx))

/-- NOTICE_WRITE_RESPONSE (R35, R146). -/
def execNoticeWriteResponse (ring idx : Nat) (s : State) : Res :=
  act s (onlyIf (isRing ring && decide (idx < 131072)) (ntcAnswered ring idx))

/-- A write of one register of a notice group by firmware. -/
def ntcBy (a : Agent) (g k : Nat) (f : Mx → Mx) (m : Mx) : Mx :=
  onlyIf (decide (g < 33)) (writeBy a (qeNtcOff g k) (unlessMgmt a (decide (g = 32)) (qeNtcOff g k) f)) m

/-- NOTICE_ENABLE (R140, R143). -/
def execNoticeEnable (agent : Agent) (grp : Nat) (val : Word) (s : State) : Res := act s (ntcBy agent grp 8 (ntcCfg grp val))

/-- NOTICE_HEAD_WRITE (R141). -/
def execNoticeHeadWrite (agent : Agent) (grp : Nat) (val : Word) (s : State) : Res :=
  act s (ntcBy agent grp 0xC (ntcHead grp val))

end Sys2Proof.Machine
end

