-- ==== Sys2Proof/Machine/Dome.lean ====
section
/-! DEFINITION. Dome (14_dome_nightlog.md R491–R515, R529–R533): the mailbox and its commands, packages and slots, the
fuse interface, the sensors, restarts, and the dose. -/

namespace Sys2Proof.Machine

def setDome (m : Mx) (v : Dome) : Mx := { m with dm := v }

/-! ## The mailbox (R493–R497) -/

def mbCmd (c : MbCmd) : Nat := (c.words.getD 0 0).toNat % 65536
def mbWord (c : MbCmd) (i : Nat) : Nat := (c.words.getD i 0).toNat

def mbBusy (m : Mx) : Bool := m.dm.cmds.any (fun c => !c.i3c)

/-- R494: the 16 words of a reply. -/
def replyWords (c : MbCmd) (result : Nat) (ws : List (Nat × Nat)) : List Word :=
  (List.range 16).map (fun i =>
    if i = 0 then word (mbWord c 0 % 2 ^ 24 + 2 ^ 24 * result)
    else word ((ws.find? (fun x => x.1 == i)).map (·.2) |>.getD 0))

/-- R493, R497: a reply ends its command. -/
def replyTo (c : MbCmd) (result : Nat) (ws : List (Nat × Nat)) (m : Mx) : Mx :=
  let r := replyWords c result ws
  let m := setDome m { m.dm with cmds := m.dm.cmds.erase c }
  if c.i3c then setDome m { m.dm with i3cRsp := r, ibi := true }
  else raise (setDome m { m.dm with rsp := r, mbDone := true }) 291

def knownCmd (n : Nat) : Bool := [0x0001, 0x0010, 0x0020, 0x0021, 0x0030, 0x0031, 0x0032, 0x0040].contains n

/-- R497: a command that I3C does not carry. -/
def i3cDenied (m : Mx) (c : MbCmd) : Bool :=
  c.i3c && !bit (reg m (doOff 0xB8)) 30 &&
  !(mbCmd c == 1 || mbCmd c == 0x20 || (mbCmd c == 0x10 && !(mbWord c 1).testBit 31))

/-- Commands at the head that are answered without being carried out: unknown ones, and those not permitted. -/
def mbTurn : Nat → Mx → Mx
  | 0, m => m
  | n + 1, m =>
    if !domeRuns m then m
    else match m.dm.cmds with
      | [] => m
      | c :: _ =>
        if !knownCmd (mbCmd c) then mbTurn n (replyTo c 1 [] m)
        else if i3cDenied m c then mbTurn n (replyTo c 3 [] m)
        else m

/-- A command arrives. DOSE_ADD is refused while a restart waits for its firmware (R529). -/
def mbArrive (c : MbCmd) (m : Mx) : Mx :=
  let m := setDome m { m.dm with cmds := m.dm.cmds ++ [c] }
  if m.dm.restarting && (mbCmd c == 0x21) then replyTo c 9 [] m else mbTurn m.dm.cmds.length m

/-- R493: GO. -/
def mbGo (m : Mx) : Mx :=
  if mbBusy m then log m .mbRefused (doOff 0x80)
  else mbArrive { words := (List.range 16).map (fun j => reg m (doOff (4 * j))) } m

/-- Answer a command and let the next come to its turn. -/
def answerCmd (c : MbCmd) (result : Nat) (ws : List (Nat × Nat)) (m : Mx) : Mx :=
  let m := replyTo c result ws m
  mbTurn m.dm.cmds.length m

/-- Serve the head of the mailbox where it is one command, Dome runs and the path carries it (R497). -/
def serve (cmd : Nat) (f : MbCmd → Mx → Mx) (m : Mx) : Mx :=
  match m.dm.cmds with
  | c :: _ =>
    if mbCmd c = cmd ∧ domeRuns m ∧ m.dm.fuse = none ∧ m.dm.updOwed = none then
      (if i3cDenied m c && m.dm.upd.isNone && m.dm.acc.isNone then answerCmd c 3 [] m else f c m)
    else m
  | [] => m

/-! ## Packages (R507, R508) -/

def pkgSeq (p : List Byte) : Nat := leAt p 0x08 4
def pkgRbk (p : List Byte) : Nat := leAt p 0x0C 1
def pkgFwver (p : List Byte) : Nat := leAt p 0x10 4
def pkgCatLen (p : List Byte) : Nat := leAt p 0x20 4
def pkgCatVer (p : List Byte) : Nat := leAt p 0x24 4

/-- Offset and length pairs: firmware, catalogue and images. -/
def pkgRanges (p : List Byte) : List (Nat × Nat) :=
  [(leAt p 0x14 4, leAt p 0x18 4), (leAt p 0x1C 4, leAt p 0x20 4)] ++
  (List.range (leAt p 6 1)).map (fun i => (leAt p (0x28 + 8 * i) 4, leAt p (0x2C + 8 * i) 4))

/-- Bytes of each Decdon image. -/
def pkgImages (p : List Byte) : List (List Byte) := ((pkgRanges p).drop 2).map (fun x => slice p x.1 x.2)

def allZero (l : List Byte) : Bool := l.all (fun b => b == 0)

/-- R513: the rollback counter. -/
def rollback (m : Mx) : Nat := ((List.range 128).filter (fun i => m.dm.fuses.getLsbD i)).length

/-- R513: the 1 bits are contiguous from bit 0. -/
def contiguous (f : BitVec 128) : Bool := decide (f.toNat + 1 = 2 ^ ((List.range 128).filter (fun i => f.getLsbD i)).length)

/-- R508, checks 1 to 5: the first that fails, for a package of a given length. -/
def pkgFault (m : Mx) (p : List Byte) (len : Nat) : Option Nat :=
  let tot := leAt p 0x48 4
  if tot ≠ len ∨ 1048576 < tot ∨ 4 < leAt p 6 1 ∨ 65280 < pkgCatLen p ∨
     (pkgRanges p).any (fun x => decide (x.1 < 0x180) || decide (tot < x.1 + x.2 + 96)) then some 1
  else if leAt p 0 4 ≠ 0x454D4F44 ∨ leAt p 4 2 ≠ 1 ∨ !(allZero (slice p 7 1) && allZero (slice p 0x0D 3) &&
     allZero (slice p 0x4C 180) && allZero (slice p 0x161 31)) then some 2
  else if [false, true].all (fun b => sha384 (slice p 0x100 97) != Config.keyDigest b) then some 3
  else if !ecdsaGood (slice p 0x100 97) (sha384 (slice p 0 (tot - 96))) (slice p (tot - 96) 96) then some 4
  else if pkgRbk p < rollback m then some 5
  else none

/-- R508: RESULT of a failed check. -/
def checkResult : Nat → Nat
  | 1 => 2 | 2 => 2 | 3 => 5 | 4 => 5 | 5 => 6 | 6 => 8 | _ => 4

/-! ## Slots (R509, R511) -/

def slotsNamed (m : Mx) : Bool := bit (reg m (doOff 0xA0)) 31

/-- R509: the package of a slot, where the slot is valid. -/
def slotOf (m : Mx) (b : Bool) : Option (List Byte) :=
  match (if b then m.dm.slotB else m.dm.slotA) with
  | some p => if slotsNamed m && (pkgFault m p p.length).isNone && !m.dm.failed.contains (pkgSeq p) then some p else none
  | none => none

/-- R511, R515: of two valid slots the ROM boots that with the higher SEQ; with the fuses unread, that with the higher
RBK, the higher SEQ winning a tie. -/
def bootChoice (m : Mx) : Option (Nat × List Byte) :=
  match slotOf m false, slotOf m true with
  | some a, some b =>
    let bWins := if m.dm.fuseok then decide (pkgSeq a < pkgSeq b)
      else decide (pkgRbk a < pkgRbk b) || (pkgRbk a == pkgRbk b && decide (pkgSeq a < pkgSeq b))
    some (if bWins then (1, b) else (0, a))
  | some a, none => some (0, a)
  | none, some b => some (1, b)
  | none, none => none

/-- R491, 15_startup_reset_power.md R542: Dome enables the rings it has configured. -/
def enableOwn (m : Mx) : Mx :=
  each ([256, 257, 258].filter (fun r => decide (4 ≤ ringSize m r))) (fun r m =>
    if (ring m r).state = .disabled then enableRing r m else m) m

/-- R511: a package's firmware has reported running; the commands that have waited for it come to their turn (R493). -/
def runPkg (src : Nat) (p : List Byte) (m : Mx) : Mx :=
  let m := setDome m { m.dm with boot := 1, srcSlot := src, pkg := some p, booted := insN m.dm.booted (pkgSeq p), trial := none,
                                 restarting := false }
  let m := enableOwn (log m .boot (pkgSeq p) src (pkgFwver p))
  mbTurn m.dm.cmds.length m

/-- R511, R512: boot the chosen slot: a trial that does not report running stays in the ROM, and no slot means WAIT. -/
def bootSlots (fwRuns : Bool) (m : Mx) : Mx :=
  match bootChoice m with
  | none => setDome m { m.dm with boot := 2, trial := none }
  | some (src, p) =>
    if m.dm.booted.contains (pkgSeq p) || fwRuns then runPkg src p m
    else setDome m { m.dm with boot := 0, srcSlot := src, pkg := some p, trial := some (pkgSeq p) }

/-- R511: a trial did not report running within 1 s. -/
def trialFails (fwRuns : Bool) (m : Mx) : Mx :=
  match m.dm.trial with
  | none => m
  | some q =>
    let m := bootSlots fwRuns (setDome m { m.dm with failed := insN m.dm.failed q, trial := none })
    raise (log m .bootFallback q ((m.dm.pkg.map pkgSeq).getD 0)) 294

/-! ## IDENT, SENSOR and the dose (R495, R498, R506) -/

/-- Reply words of IDENT. -/
def identWords (m : Mx) : List (Nat × Nat) :=
  let p := m.dm.pkg.getD []
  let iver (i : Nat) : Nat := ((pkgImages p)[i]?.map (fun x => leAt x 8 4)).getD 0
  [(1, pkgFwver p), (2, pkgSeq p), (3, rollback m + bitAt m.dm.fuseok 8 + 2 ^ 9 * m.dm.srcSlot), (4, iver 0), (5, iver 1),
   (6, iver 2), (7, iver 3)]

def doIdent (c : MbCmd) (m : Mx) : Mx := answerCmd c 0 (identWords m) m

/-- R498: sensor numbers. -/
def isSensor (k : Nat) : Bool := decide (k < 48) || (decide (64 ≤ k) && decide (k < 128))

/-- R495: SENSOR. -/
def doSensor (c : MbCmd) (m : Mx) : Mx :=
  let k := mbWord c 1 % 128
  if !isSensor k then answerCmd c 2 [] m
  else
    let s := sensor m k
    let m := if (mbWord c 1).testBit 31 then setSensor m k { s with least := s.cur, most := s.cur } else m
    answerCmd c 0 [(1, unsigned 32 s.cur), (2, unsigned 32 s.least), (3, unsigned 32 s.most)] m

/-- Reply words of DOSE_GET. -/
def doseWords (m : Mx) : List (Nat × Nat) :=
  [(1, m.dm.dose), (2, m.dm.dose / 2 ^ 32), (3, m.dm.doseF), (4, m.dm.doseAt), (5, m.dm.doseAt / 2 ^ 32), (6, bitAt m.dm.gap 0)]

def doDoseGet (c : MbCmd) (m : Mx) : Mx := answerCmd c 0 (doseWords m) m

/-- R506: DOSE_ADD. -/
def doDoseAdd (c : MbCmd) (m : Mx) : Mx :=
  let m := addDose m (2 ^ 32 * mbWord c 1 + mbWord c 2)
  let m := log (setDome m { m.dm with gap := false }) .doseAdd (mbWord c 1) (mbWord c 2)
  answerCmd c 0 (doseWords m) m

/-! ## UPDATE (R510, R515) -/

/-- R508, check 6: SEQ lies above that of every valid slot. -/
def seqFresh (m : Mx) (p : List Byte) : Bool :=
  [slotOf m false, slotOf m true].all (fun s => match s with | some q => decide (pkgSeq q < pkgSeq p) | none => true)

/-- R508: the first check that an UPDATE's package fails. -/
def updFault (m : Mx) (p : List Byte) (len : Nat) : Option Nat :=
  match pkgFault m p len with
  | some n => some n
  | none =>
    if !seqFresh m p then some 6
    else if (pkgImages p).any (fun i => (imgFault i).isSome) then some 7
    else none

/-- R510: the slot to be written. -/
def updSlot (m : Mx) : Bool :=
  if m.dm.srcSlot = 0 then true
  else if m.dm.srcSlot = 1 then false
  else match slotOf m false, slotOf m true with
    | none, _ => false
    | some _, none => true
    | some a, some b => decide (pkgSeq b < pkgSeq a)

/-- R259, R510: the first image of a package that a group's dies match. -/
def imageFor (m : Mx) (p : List Byte) (g : Nat) : Option Img :=
  ((pkgImages p).filter (fun l => (imgFault l).isNone)).map imgParts |>.find? (fun i => diesMatch m g i)

/-- R259: the record of each image of a package that fails a check of its own: its place in the package, the first check it
fails, and its IVER. -/
def logFaulty (p : List Byte) (m : Mx) : Mx :=
  each ((List.range (pkgImages p).length).zip (pkgImages p)) (fun x m => match imgFault x.2 with
    | some n => log m .imgRefused x.1 n (leAt x.2 8 4)
    | none => m) m

/-- R510: ACT: the image of every group, one group at a time; a group that no image's die match suits keeps its own (R259). -/
def actImages (p : List Byte) (m : Mx) : Mx :=
  let l := (List.range 32).filterMap (fun g => (imageFor m p g).map (fun i => (g, i)))
  let m := each ((List.range 32).filter (fun g => (imageFor m p g).isNone)) (fun g m => log m .imgRefused g 5) m
  nextReplace { m with mc := { m.mc with todo := l } }

/-- An UPDATE refused. -/
def updRefuse (c : MbCmd) (result check detail seq : Nat) (m : Mx) : Mx :=
  raise (answerCmd c result [(3, check), (15, detail)] (log m .updRefused check seq result)) 294

/-- Word of the fuse array. -/
def fuseWord (f : BitVec 128) (w : Nat) : Word := f.extractLsb' (32 * w) 32

def setFuseWord (f : BitVec 128) (w : Nat) (v : Word) : BitVec 128 :=
  (f &&& ~~~(BitVec.ofNat 128 (0xFFFFFFFF * 2 ^ (32 * w)))) ||| BitVec.ofNat 128 (v.toNat * 2 ^ (32 * w))

/-- R70, R71, R515: `n` fuse words are read from word `w` on, in order; the first access that fails ends the reading with its
record, and one not acknowledged in time with FUSE_TMO. -/
def fuseReads (l : List FuseAns) : Nat → Nat → Mx → Mx
  | 0, _, m =>
    let m := setDome m { m.dm with fuseok := true }
    if contiguous m.dm.fuses then m else log m .fuseFail 0 3
  | n + 1, w, m =>
    match l.getD w .late with
    | .data v => fuseReads l n (w + 1) (setDome m { m.dm with fuses := setFuseWord m.dm.fuses w v })
    | .err => log m .fuseFail w 1
    | .late => log (raise (log m .fuseTmo w) 295) .fuseFail w 1

/-- R515: try the fuses again where they have not been read. -/
def retryFuses (l : List FuseAns) (m : Mx) : Mx := if m.dm.fuseok then m else fuseReads l 4 0 m

def setSlot (b : Bool) (p : Option (List Byte)) (m : Mx) : Mx :=
  setDome m (if b then { m.dm with slotB := p } else { m.dm with slotA := p })

/-- R529, 15_startup_reset_power.md R543: a slot write cut by a warm reset, or abandoned for a power failure (what word 15
then holds is not stated); any other slot write may go on. -/
def slotCut (m : Mx) : Option (Nat × Mx) :=
  if m.gl.phase = .warm then some (0x200, m)
  else if m.gl.pf ≠ .none then
    let dr := draw m
    some ((Config.freeWord dr.1).toNat, dr.2)
  else none

/-- The image of some group is still being replaced (06_microcode.md R261). -/
def replacing (m : Mx) : Bool := !m.mc.todo.isEmpty || (List.range 32).any (fun g => (cluster m g).next.isSome)

/-- R495, R510: an UPDATE that has stored its package ends once ACT has replaced every image. -/
def updTurn (m : Mx) : Mx :=
  match m.dm.updOwed, m.dm.cmds with
  | some ws, c :: _ => if replacing m then m else raise (answerCmd c 0 ws (setDome m { m.dm with updOwed := none })) 294
  | _, _ => m

/-! ### The steps of an UPDATE -/

/-- R509: the die of a slot, and the row of its block. -/
def slotDie (m : Mx) (b : Bool) : Nat := if b then fld (reg m (doOff 0xA0)) 26 16 else fld (reg m (doOff 0xA0)) 10 0
def slotRow (m : Mx) : Nat := (reg m (doOff 0xA4)).toNat

/-- R509: page-sets of a package. -/
def slotPages (n : Nat) : Nat := (n + 65535) / 65536

/-- The host address that words 1 and 2 of a command give (R495). -/
def mbAddr (c : MbCmd) : Nat := mbWord c 1 + 2 ^ 32 * mbWord c 2

/-- An UPDATE ends otherwise than by storing its package: its reservation and its access to host memory end with it. -/
def updFails (c : MbCmd) (result check detail seq : Nat) (m : Mx) : Mx :=
  let m := freeResv (ownDrop false m) .dome
  updRefuse c result check detail seq (setDome m { m.dm with upd := none })

/-- R508, R510, R515: UPDATE begins: what it asks of Dome's state, and the reservation for its package (04_commands.md R190). -/
def updBegin (e : UpdEnv) (c : MbCmd) (m : Mx) : Mx :=
  if m.dm.upd.isSome then m
  else
    let m := retryFuses e.fuses m
    if !m.dm.fuseok then updRefuse c 7 0 0 0 m
    else if !slotsNamed m then updRefuse c 3 0 0 0 m
    else if 1048576 < mbWord c 3 then updRefuse c 2 1 0 0 m
    else askResv (setDome m { m.dm with upd := some .asked }) .dome 4 (mbWord c 3)

/-- R510: once the reservation is granted, the package is fetched on PORT. -/
def updFetch (c : MbCmd) (m : Mx) : Mx :=
  if m.dm.upd = some .asked ∧ (resvOf m .dome).isSome then
    ownRead false (mbWord c 4 % 4) (mbAddr c) (mbWord c 3) (setDome m { m.dm with upd := some .fetching })
  else m

/-- R508, R510: the package stands in the reservation, from which Dome reads it, on fabric port 6 (12_stage_buffer.md R442), and
checks it; where it passes, its slot is erased and programmed, page-set by page-set. -/
def updCheck (c : MbCmd) (m : Mx) : Mx :=
  match m.dm.upd, m.dm.acc.bind (·.ended) with
  | some .fetching, some (some f) => updFails c 4 0 (0x10 + causeCode f) 0 m
  | some .fetching, some none =>
    let n := mbWord c 3
    let l := memRead ((m.dm.acc.map (·.data)).getD []) (mbAddr c) n
    let r := resvRead (resvWrite (setOwn false none m) .dome 0 l) .dome 6 0 n
    let p := r.1
    let m := r.2.2
    (match updFault m p n with
     | some k => updFails c (checkResult k) k 0 (pkgSeq p) (if k = 7 then logFaulty p m else m)
     | none =>
       let b := updSlot m
       match slotCut m with
       | some (d, m) => updFails c 4 0 d (pkgSeq p) (setSlot b none m)
       | none =>
         let row := slotRow m
         let ops : List (Nat × SysOp) := (row, .erase) ::
           (List.range (slotPages n)).map (fun i => (row + i, .bytes (slice p (65536 * i) (min 65536 (n - 65536 * i)))))
         let m := setSlot b none m
         sysStart 12 (slotDie m b) ops (setDome m { m.dm with upd := some (.writing b p) }))
  | _, _ => m

/-- A page that the complex reads for itself (09_seeing.md R354, 01_architecture.md R32). -/
def sysRead (d row planes : Nat) (l : List Stat) (m : Mx) : Mx :=
  let m := senseCount d row (planeCount planes) false m
  { m with sg := { m.sg with recs := m.sg.recs ++ l.map (fun r => { r with die := d, bg := bgOf m d row, bin := 0 }) } }

def sysReads (l : List SysRead) (m : Mx) : Mx :=
  each (l.filter (fun r => decide (r.die < 2048))) (fun r m => sysRead r.die r.row r.planes r.recs m) m

/-- R510: the slot is read back. -/
def readBack (e : UpdEnv) (b : Bool) (n : Nat) (m : Mx) : Mx :=
  each (List.range (slotPages n)) (fun i m => sysRead (slotDie m b) (slotRow m + i) 15 ((e.reads[i]?.map (·.recs)).getD []) m) m

/-- A status byte that the spec does not give: it is free (log entry 156). -/
def freeByte (m : Mx) : Nat × Mx := let dr := draw m; ((Config.freeWord dr.1).toNat % 256, dr.2)

/-- R510: the slot has been programmed and read back, or has not: the package is stored, and ACT replaces the images. Word 15 of
a failure names the die's status byte, which is free where none was read (log entry 156). -/
def updEnd (e : UpdEnv) (c : MbCmd) (m : Mx) : Mx :=
  match m.dm.upd with
  | some (.cut q d) => updFails c 4 0 d q m
  | some (.writing b p) =>
    (match (sysW m 12).bind (·.ended) with
     | none => m
     | some s =>
       let m := dropSys m 12
       if s.1 = 0x2200 then updFails c 4 0 (0x100 + s.2 % 256) (pkgSeq p) m
       else if s.1 ≠ 0 then (let x := freeByte m; updFails c 4 0 (0x100 + x.1) (pkgSeq p) x.2)
       else
         let m := readBack e b p.length m
         if !e.same then (let x := freeByte m; updFails c 4 0 (0x100 + x.1) (pkgSeq p) x.2)
         else
           let m := freeResv m .dome
           let m := log (setSlot b (some p) m) .updStored (pkgSeq p) (pkgRbk p) (bitAt b 0)
           let m := if (mbWord c 4).testBit 8 then actImages p m else m
           updTurn (setDome m { m.dm with upd := none, updOwed := some [(1, pkgSeq p), (2, bitAt b 0), (3, 0)] }))
  | _ => m

/-- R495, R510: Dome works on an UPDATE as far as its reservation, its fetch and its die have come. -/
def doUpdate (e : UpdEnv) (c : MbCmd) (m : Mx) : Mx := updEnd e c (updCheck c (updFetch c (updBegin e c m)))

/-- R529, 15_startup_reset_power.md R543: the slot write of an UPDATE is cut. -/
def updCut (detail : Nat) (m : Mx) : Mx :=
  match m.dm.upd with
  | some (.writing _ p) => setDome m { m.dm with upd := some (.cut (pkgSeq p) detail) }
  | _ => m

/-! ## The fuse interface (R70, R71, R513–R515) -/

/-- R513: bits of word `w` that raise the counter to `v`. -/
def fuseGoal (v w : Nat) : Word := word (2 ^ min 32 (v - 32 * w) - 1)

/-- The commit ends: the head command is answered. -/
def commitEnds (result : Nat) (ws : List (Nat × Nat)) (m : Mx) : Mx :=
  let m := setDome m { m.dm with fuse := none }
  match m.dm.cmds with
  | c :: _ => answerCmd c result ws m
  | [] => m

/-- R514: program the next word, or end. -/
def commitWord (op : FuseOp) (w : Nat) (m : Mx) : Mx :=
  if w < 4 ∧ 32 * w < op.goal then
    setDome m { m.dm with fuse := some { op with wr := true, word := w, data := fuseGoal op.goal w } }
  else
    let m := if contiguous m.dm.fuses then m else log m .fuseFail 0 3
    commitEnds 0 [(1, op.old), (2, rollback m)] (log m .rbkRaised op.old (rollback m))

/-- R514: the counter is known: raise it to the RBK of the running package, unless it stands there already. -/
def commitFrom (m : Mx) : Mx :=
  let v := pkgRbk (m.dm.pkg.getD [])
  let n := rollback m
  if v ≤ n then commitEnds 0 [(1, n), (2, n)] m else commitWord { wr := true, word := 0, old := n, goal := v } 0 m

/-- R514, R515: RBK_COMMIT; fuses not yet read are read first, word by word. -/
def doCommit (_c : MbCmd) (m : Mx) : Mx :=
  if m.dm.fuseok then commitFrom m else setDome m { m.dm with fuse := some { wr := false, word := 0 } }

/-- R71, R515: an access of the fuse interface has failed; a read that fails, a read-back among them, leaves FUSEOK 0. -/
def fuseFailed (op : FuseOp) (m : Mx) : Mx :=
  let m := if op.wr then m else setDome m { m.dm with fuseok := false }
  commitEnds 7 [] (if op.wr then m else log m .fuseFail op.word 1)

/-- R70, R513, R514: FUSE_ACK. -/
def fuseAnswer (data : Word) (err : Bool) (m : Mx) : Mx :=
  match m.dm.fuse with
  | none => m
  | some op =>
    if err then fuseFailed op m
    else if op.wr then setDome m { m.dm with fuse := some { op with wr := false } }
    else
      let old := fuseWord m.dm.fuses op.word
      let m := setDome m { m.dm with fuses := setFuseWord m.dm.fuses op.word data }
      if op.goal = 0 then
        (if op.word < 3 then setDome m { m.dm with fuse := some { op with word := op.word + 1 } }
         else
           let m := setDome m { m.dm with fuseok := true }
           commitFrom (if contiguous m.dm.fuses then m else log m .fuseFail 0 3))
      else if data = (old ||| op.data) then commitWord op (op.word + 1) m
      else commitEnds 7 [] (log m .fuseFail op.word 2)

/-- R71: an access of the fuse interface has not been acknowledged in time. -/
def fuseLate (m : Mx) : Mx :=
  match m.dm.fuse with
  | none => m
  | some op => fuseFailed op (raise (log m .fuseTmo op.word) 295)

/-! ## CATALOG (R495) -/

/-- R495: CATALOG writes the running package's catalogue to host memory, on PORT. -/
def catBegin (c : MbCmd) (m : Mx) : Mx :=
  let p := m.dm.pkg.getD []
  if m.dm.acc.isSome then m
  else if mbWord c 3 < pkgCatLen p then answerCmd c 2 [] m
  else ownWrite false (mbWord c 4 % 4) (mbAddr c) (slice p (leAt p 0x1C 4) (pkgCatLen p)) m

/-- R495: its writes have been answered. -/
def catEnd (c : MbCmd) (m : Mx) : Mx :=
  let p := m.dm.pkg.getD []
  match m.dm.acc.bind (·.ended) with
  | some (some f) => answerCmd c 4 [(15, 0x20 + causeCode f)] (setOwn false none m)
  | some none => answerCmd c 0 [(1, pkgCatLen p), (2, pkgCatVer p)] (setOwn false none m)
  | none => m

def doCatalog (c : MbCmd) (m : Mx) : Mx := catEnd c (catBegin c m)

/-! ## Restarts (R492) -/

/-- R492: Dome's rings are function-reset; the locks of a ring that is DISABLED end too (05_channel_engine.md R224). -/
def resetDomeRings (m : Mx) : Mx :=
  each ((List.range 8).map (256 + ·)) (fun r m => if (ring m r).state = .disabled then resetLocks r m else resetRing r m) m

/-- R492: every mailbox command in progress ends with RESTARTED. -/
def endCommands (keep : Option MbCmd) (m : Mx) : Mx :=
  each (m.dm.cmds.filter (fun c => some c != keep)) (fun c m => replyTo c 9 [] m) m

/-- R492, R529: Dome's flash work is given up: a segment's copy, and the slot write of an UPDATE, whose slot is then invalid. -/
def cutOwn (k : Nat) (m : Mx) : Mx :=
  match sysW m k with
  | some w => dropWrite (sysEid k) w.die (dropSys m k)
  | none => m

/-- R492: what Dome was doing ends: its flash work, its reservation, its access to host memory and its fuse access. -/
def stopDome (m : Mx) : Mx :=
  let m := freeResv (ownDrop false (abandonSegment (cutOwn 8 (cutOwn 12 m)))) .dome
  setDome m { m.dm with fuse := none, updOwed := none, upd := none }

/-- R492, R504, R510: a restart; the newest valid slot runs from then on, and the interval is charged whole. -/
def restartDome (keep : Option MbCmd) (e : RestartEnv) (m : Mx) : Mx :=
  let m := endCommands keep (stopDome (resetDomeRings m))
  let m := sysReads e.reads (setDome m { m.dm with restarts := satInc m.dm.restarts 0xFFFF })
  let m := match bootChoice m with
    | none => m
    | some (_, p) => if m.dm.pkg = some p then m else bootSlots e.runs m
  if domeRuns m then sampleDose (integrate (enableOwn m)) else setDome m { m.dm with restarting := true }

/-- R495: RESTART replies as IDENT, from the restarted firmware; a trial that has not reported running leaves the command
waiting. -/
def restartReplies (m : Mx) : Mx :=
  match m.dm.cmds with
  | c :: _ => if domeRuns m ∧ mbCmd c = 0x31 then doIdent c m else m
  | [] => m

def doRestart (e : RestartEnv) (c : MbCmd) (m : Mx) : Mx := restartReplies (restartDome (some c) e m)

/-! ## Sensors (R81, R498–R500) -/

/-- R498: the group whose VCCQ a monitor of V5 to V12 samples now. -/
def monGroup (m : Mx) (mon : Nat) : Nat := 4 * (mon - 5) + (sensor m (32 + mon)).turn

/-- R81, R498: a monitor's reading lies within the limits of its supply. VCCQ is 1.2 V or 0.6 V as PHgg_CFG.VQ has it
(07_phy_calibration.md R298), and is not relied on in a group with every channel disabled (02_boundary.md R80). -/
def supplyOk (m : Mx) (mon : Nat) (mv : Int) : Bool :=
  if 5 ≤ mon ∧ mon ≤ 12 then
    let g := monGroup m mon
    if (List.range 4).all (fun i => !chEnabled m (4 * g + i)) then true
    else if bit (phCfg m g) 14 then decide (570 ≤ mv) && decide (mv ≤ 630)
    else decide (1140 ≤ mv) && decide (mv ≤ 1260)
  else decide (728 ≤ mv) && decide (mv ≤ 772)

/-- R500: a monitor that is outside the limits of a supply at two samples of it in a row has been so for 10 µs. V5 to V12 sample
the VCCQ of their four groups in turn (R498), and each is judged by its own samples. -/
def voltSample (mon : Nat) (mv : Int) (m : Mx) : Mx :=
  let k := 32 + mon
  let was := sensor m k
  let g := if 5 ≤ mon ∧ mon ≤ 12 then was.turn else 0
  let bad := !supplyOk m mon mv
  let m := sensorTake k mv m
  let m := setSensor m k { sensor m k with
    turn := (was.turn + 1) % 4, outs := if bad then insN was.outs g else delN was.outs g,
    warns := if bad then was.warns else delN was.warns g }
  if bad && was.outs.contains g && !was.warns.contains g && domeRuns m then
    raise (log (setSensor m k { sensor m k with warns := insN was.warns g }) .volt k (unsigned 32 mv)) 293
  else m

/-- R499, R500: a package's temperature has been read, or could not be. -/
def pkgSample (p : Nat) (t : Option Int) (m : Mx) : Mx :=
  let k := 64 + p
  match t with
  | none => setSensor m k { sensor m k with valid := false }
  | some v =>
    let m := sensorTake k v m
    tempWarn k (fld (reg m (doOff 0x98)) 7 0) (setSensor m k { sensor m k with valid := true })

/-! ## Registers (R530–R533) -/

/-- R533: DO_DOSECFG within its ranges. -/
def doseCfgOk (v : Word) : Bool :=
  decide (50 ≤ fld v 31 24) && decide (fld v 31 24 ≤ 150) && (fld v 23 22 != 3) && (fld v 15 0 != 0)

/-- Reads of the DO block, by offset within it. -/
def doRead (m : Mx) (k : Nat) : Word :=
  if k < 0x40 then reg m (doOff k)
  else if k < 0x80 then m.dm.rsp.getD ((k - 0x40) / 4) 0
  else if k = 0x84 then word (bitAt (mbBusy m) 31 + bitAt m.dm.mbDone 30)
  else if k = 0x88 then
    word (2 ^ 30 * m.dm.bootWas.getD m.dm.boot + bitAt m.dm.gap 29 + bitAt m.dm.fuseok 28 + 2 ^ 26 * m.dm.srcSlot + m.dm.restarts)
  else if 0x8C ≤ k ∧ k ≤ 0xB8 then reg m (doOff k)
  else if 0x100 ≤ k ∧ k < 0x140 then word (unsigned 16 (sensor m (32 + (k - 0x100) / 4)).cur)
  else if 0x200 ≤ k ∧ k < 0x300 then
    let s := sensor m (64 + (k - 0x200) / 4)
    word (bitAt s.valid 31 + unsigned 16 s.cur)
  else 0

/-- Writes of the DO block, by offset within it. -/
def doWrite (k : Nat) (v : Word) (m : Mx) : Mx :=
  if k < 0x40 then (if mbBusy m then log m .mbRefused (doOff k) else setReg m (doOff k) v)
  else if k = 0x80 then onlyIf (bit v 0) mbGo m
  else if k = 0x84 then setDome m { m.dm with mbDone := m.dm.mbDone && !bit v 30 }
  else if k = 0x8C then checkedWrite (doseCfgOk v) (doOff k) 0 0xFFE0FFFF v m
  else if k = 0x90 then maskedWrite (doOff k) 0 0xFFFF v m
  else if k = 0x94 ∨ k = 0x98 then maskedWrite (doOff k) 0xFFFF 0 v m
  else if k = 0x9C then
    judgeThermN (checkedWrite (decide (100 ≤ fld v 7 0) && decide (fld v 7 0 ≤ 150)) (doOff k) 0 0xFF v m)
  else if k = 0xA0 then checkedWrite (!sameGroup v) (doOff k) 0 0x87FF07FF v m
  else if k = 0xA4 then maskedWrite (doOff k) 0 0xFFFFFFFF v m
  else if k = 0xA8 then maskedWrite (doOff k) 0x80000003 0 v m
  else if k = 0xAC ∨ k = 0xB0 ∨ k = 0xB4 then setReg m (doOff k) v
  else if k = 0xB8 then
    let m := maskedWrite (doOff k) 0 0xC0000000 v m
    if bit (reg m (doOff k)) 31 then m else setDome m { m.dm with i3cAddr := none }
  else m

/-! ## Meanings -/

/-- GO (R493). -/
def execGo (s : State) : Res := act s (access (doOff 0x80) true mbGo)

/-- R497, 02_boundary.md R94: what reaches the I3C target: a dynamic address assignment, or a private write of 64 bytes that
carries a request, where the target serves no other (log entry 122). -/
def i3cTake (msg : I3cMsg) (m : Mx) : Mx :=
  match msg with
  | .assign a => setDome m { m.dm with i3cAddr := some (a % 128) }
  | .reset => setDome m { m.dm with i3cAddr := none }
  | .priv words => onlyIf (words.length == 16 && !m.dm.cmds.any (·.i3c)) (mbArrive { i3c := true, words := words }) m

/-- I3C_WRITE (R497), where the target is enabled. -/
def execI3cWrite (words : I3cMsg) (s : State) : Res :=
  act s (fun m => onlyIf (bit (reg m (doOff 0xB8)) 31) (i3cTake words) m)

/-- I3C_READ (R497): the reply is read, and its announcement withdrawn. -/
def execI3cRead (s : State) : Res :=
  act s (fun m => onlyIf (bit (reg m (doOff 0xB8)) 31) (fun m => setDome m { m.dm with ibi := false }) m)

/-- IDENT (R495). -/
def execIdent (s : State) : Res := act s (serve 0x0001 doIdent)

/-- SENSOR (R495). -/
def execSensor (s : State) : Res := act s (serve 0x0010 doSensor)

/-- DOSE_GET (R495). -/
def execDoseGet (s : State) : Res := act s (serve 0x0020 doDoseGet)

/-- DOSE_ADD (R506). -/
def execDoseAdd (s : State) : Res := act s (serve 0x0021 doDoseAdd)

/-- UPDATE (R510). -/
def execUpdate (env : UpdEnv) (s : State) : Res := act s (serve 0x0030 (doUpdate env))

/-- RESTART (R492). -/
def execRestart (fwRuns : RestartEnv) (s : State) : Res := act s (serve 0x0031 (doRestart fwRuns))

/-- RBK_COMMIT (R514). -/
def execRbkCommit (s : State) : Res := act s (serve 0x0032 doCommit)

/-- CATALOG (R495). -/
def execCatalog (_failed : Told) (s : State) : Res := act s (serve 0x0040 doCatalog)

/-- GROUP_RELOAD_DONE (06_microcode.md R253, R256). -/
def execGroupReloadDone (grp : Nat) (s : State) : Res :=
  act s (onlyIf (isGrp grp) (fun m => updTurn (reloadDone grp m)))

/-- GROUP_IDLE (06_microcode.md R261). -/
def execGroupIdle (grp : Nat) (s : State) : Res := act s (onlyIf (isGrp grp) (fun m => updTurn (groupIdle grp m)))

/-- FUSE_ACK (R70). -/
def execFuseAck (data : Word) (err : Bool) (s : State) : Res := act s (fuseAnswer data err)

/-- FUSE_TMO (R71). -/
def execFuseTmo (s : State) : Res := act s fuseLate

/-- DOME_WATCHDOG (R492). -/
def execDomeWatchdog (fwRuns : RestartEnv) (s : State) : Res := act s (fun m => onlyIf (domeRuns m) (restartDome none fwRuns) m)

/-- VOLTAGE_SAMPLE (R498, R500). -/
def execVoltageSample (mon : Nat) (mv : Int) (s : State) : Res := act s (onlyIf (decide (mon < 16)) (voltSample mon mv))

/-- R499: a package that is read has a present die. -/
def pkgPresent (m : Mx) (p : Nat) : Bool :=
  (List.range 32).any (fun i => !(die m (dieOf (2 * p + i / 16) (i % 16))).absent)

/-- R499: the first present die of the package's lower channel. -/
def pkgDie (m : Mx) (p : Nat) : Option Nat := ((List.range 16).map (dieOf (2 * p))).find? (fun d => !(die m d).absent)

/-- R499: the CALL of routine 0xFFF0 can succeed: the die that it is made on is there and not DEAD, and its group's image exports the
routine. -/
def pkgCalls (m : Mx) (p : Nat) : Bool :=
  match pkgDie m p with
  | some d => ((die m d).state != 2) && (exportAddr m (dieGrp d) 0xFFF0).isSome
  | none => false

/-- PACKAGE_TEMP (R499). -/
def execPackageTemp (pkg : Nat) (temp : Option Int) (s : State) : Res :=
  act s (fun m => onlyIf (decide (pkg < 64) && domeRuns m && pkgPresent m pkg)
    (pkgSample pkg (if pkgCalls m pkg then temp else none)) m)

end Sys2Proof.Machine
end

