-- ==== Sys2Proof/Machine/Registers.lean ====
section
/-! DEFINITION. The register windows of 16_register_index.md R559: what a read of an offset shows, and what a write of
every block but the controls of GL does. -/

namespace Sys2Proof.Machine

/-! ## Global and self-test registers (15_startup_reset_power.md R556–R558) -/

/-- GL_STAT.PHASE (R534). -/
def phaseCode : Phase → Nat
  | .waitStart => 1 | .bist => 2 | .boot => 3 | .train => 4 | .restore => 5 | .ready => 6 | .warm => 7

/-- GL_STAT.PFAIL: the sequence runs, or launches are stopped after it. -/
def pfailBit (m : Mx) : Bool := m.gl.pf == .running || m.gl.pf == .stopped

/-- Reads of the GL block. -/
def glRead (m : Mx) (k : Nat) : Word :=
  if k = 0 then word 0xB4A08010
  else if k = 8 then
    word (2 ^ 28 * phaseCode m.gl.phase + 2 ^ 26 * m.gl.pstate + bitAt (pfailBit m) 25 + bitAt m.gl.bistf 24 +
          bitAt m.gl.cfgdef 23 + m.gl.warms)
  else if k = 0x10 then word (bitAt m.gl.lockClosed 0)
  else if k = 0x14 then word (bitAt m.gl.autowake 31 + 2 ^ 16 * m.gl.pstate + m.gl.req)
  else if k = 0x18 then m.gl.cperr
  else if k = 0x38 then
    word (2 ^ 30 * m.gl.cfgSrc + bitAt m.gl.wrBusy 29 + bitAt m.gl.wrFail 28 + m.gl.cfgSeq % 65536)
  else if (0x20 ≤ k ∧ k ≤ 0x34) ∨ (0x3C ≤ k ∧ k ≤ 0x44) then reg m k
  else 0

/-- Writes of the GL registers that hold what is written, and of GL_CPERR. -/
def glHold (k : Nat) (v : Word) (m : Mx) : Mx :=
  if k = 0x18 then { m with gl := { m.gl with cperr := if bit v 31 then m.gl.cperr &&& 0x7FFFFFFF else m.gl.cperr } }
  else if 0x20 ≤ k ∧ k ≤ 0x2C then maskedWrite k 0 0xFFFFFFFF v m
  else if k = 0x30 then checkedWrite (!sameGroup v) k 0 0x87FF07FF v m
  else if k = 0x34 then maskedWrite k 0 0xFFFFFFFF v m
  else if k = 0x3C ∨ k = 0x40 then setReg m k v
  else if k = 0x44 then setReg m k (v &&& 0x1FFFF)
  else m

/-- Units of the self-test that have failed. -/
def btFails (m : Mx) : Nat := (m.bt.res.filter (fun x => x.2 == 2)).length

/-- The unit BT_SEL shows. -/
def btUnit (m : Mx) : Nat := fld (reg m (btOff 4)) 6 0

/-- Reads of the BT block. -/
def btRead (m : Mx) (k : Nat) : Word :=
  if k = 0 then word (bitAt m.bt.running 31 + bitAt m.bt.done 30 + 2 ^ 16 * btFails m)
  else if k = 4 then reg m (btOff 4)
  else if k = 8 then tabGet 0 m.bt.sig (btUnit m)
  else if k = 0xC then tabGet 0 m.bt.exp (btUnit m)
  else if k = 0x10 then word (tabGet 0 m.bt.res (btUnit m))
  else 0

/-- Writes of the BT block. -/
def btWrite (k : Nat) (v : Word) (m : Mx) : Mx := if k = 4 then setReg m (btOff 4) (v &&& 0x7F) else m

/-! ## Windows (R559) -/

/-- What a read of an offset shows, apart from the effects of R560: 0 at an offset no register occupies. -/
def regRead (m : Mx) (off : Nat) : Word :=
  if off < 0x10000 then glRead m off
  else if off < 0x20000 then icRead m (off - 0x10000)
  else if off < 0x30000 then qeRead m (off - 0x20000)
  else if off < 0x40000 then dxRead m (off - 0x30000)
  else if off < 0x50000 then sbRead m (off - 0x40000)
  else if off < 0x80000 then 0
  else if off < 0x81000 then mdRead m (off - 0x80000)
  else if off < 0x90000 then trRead m (off - 0x81000)
  else if off < 0xC0000 then 0
  else if off < 0xD0000 then stRead m (off - 0xC0000)
  else if off < 0xE0000 then 0
  else if off < 0xF0000 then sgRead m (off - 0xE0000)
  else if off < 0x200000 then 0
  else if off < 0x280000 then chRead m (off - 0x200000)
  else if off < 0x2A1000 then phRead m (off - 0x280000)
  else if off < 0x300000 then 0
  else if off < 0x321000 then cxRead m (off - 0x300000)
  else if off < 0x500000 then 0
  else if off < 0x501000 then doRead m (off - 0x500000)
  else if off < 0x540000 then 0
  else if off < 0x541000 then nlRead m (off - 0x540000)
  else if off < 0x580000 then 0
  else if off < 0x581000 then btRead m (off - 0x580000)
  else if off < 0x600000 then 0
  else if off < 0x602000 then mcRead m (off - 0x600000)
  else 0

/-- A write of any block's register, the controls of GL left out. -/
def blockWrite (a : Agent) (off : Nat) (v : Word) (m : Mx) : Mx :=
  if off < 0x10000 then glHold off v m
  else if off < 0x20000 then icWrite (off - 0x10000) v m
  else if off < 0x30000 then qeWrite a (off - 0x20000) v m
  else if off < 0x40000 then dxWrite (off - 0x30000) v m
  else if off < 0x50000 then sbWrite (off - 0x40000) v m
  else if off < 0x80000 then m
  else if off < 0x81000 then mdWrite (off - 0x80000) v m
  else if off < 0x90000 then trWrite a (off - 0x81000) v m
  else if off < 0xC0000 then m
  else if off < 0xD0000 then stWrite (off - 0xC0000) v m
  else if off < 0xE0000 then m
  else if off < 0xF0000 then sgWrite (off - 0xE0000) v m
  else if off < 0x100000 then m
  else if off < 0x101000 then dbWrite a (off - 0x100000) v m
  else if off < 0x200000 then m
  else if off < 0x280000 then chWrite a (off - 0x200000) v m
  else if off < 0x2A1000 then phWrite (off - 0x280000) v m
  else if off < 0x300000 then m
  else if off < 0x321000 then cxWrite (off - 0x300000) v m
  else if off < 0x500000 then m
  else if off < 0x501000 then doWrite (off - 0x500000) v m
  else if off < 0x540000 then m
  else if off < 0x541000 then nlWrite (off - 0x540000) v m
  else if off < 0x580000 then m
  else if off < 0x581000 then btWrite (off - 0x580000) v m
  else if off < 0x600000 then m
  else if off < 0x602000 then mcWrite (off - 0x600000) v m
  else if off < 0x800000 then m
  else apWrite (off - 0x800000) v m

end Sys2Proof.Machine
end

