-- ==== Sys2Proof/Machine/Resets.lean ====
section
/-! DEFINITION. Resets (15_startup_reset_power.md R542–R544, R555; 02_boundary.md R73, R77): what cold reset and P3 keep, and
the warm reset with the drains it waits for. -/

namespace Sys2Proof.Machine

def setGl (m : Mx) (v : Gl) : Mx := { m with gl := v }

/-! ## What the island and VAON keep (R544; 11_meridian_transit.md R437; 14_dome_nightlog.md R533) -/

/-- Registers held outside the core: Meridian's, GL_CHEN, GL_CFGLOC, GL_CFGROW, and Dome's and the Night Log's. -/
def islandReg (off : Nat) : Bool :=
  (decide (0x20 ≤ off) && decide (off ≤ 0x34)) || (decide (0x80000 ≤ off) && decide (off < 0x81000)) ||
  (decide (0x50008C ≤ off) && decide (off < 0x500100)) || (decide (0x540000 ≤ off) && decide (off < 0x541000))

/-- What the island keeps of a group's PHY: its Ephemeris cache. -/
def keptPhy (p : Phy) : Phy := { sets := p.sets, recd := p.recd, ttrain := p.ttrain, tempTrain := p.tempTrain, iver := p.iver }

/-- What the island keeps of Dome, DO_STAT among it (14_dome_nightlog.md R533), with what Dome's slots hold on flash. -/
def keptDome (d : Dome) : Dome :=
  { bootWas := some (d.bootWas.getD d.boot), fuseok := d.fuseok, srcSlot := d.srcSlot, gap := d.gap, restarts := d.restarts, dose := d.dose, doseF := d.doseF, doseAt := d.doseAt, factor := d.factor,
    slotA := d.slotA, slotB := d.slotB, booted := d.booted, failed := d.failed, mclkLost := d.mclkLost }

/-- The complex with its core reset: what VAON holds stays, and nothing else. The places of the journal on flash stand. -/
def coreLost (m : Mx) : Mx :=
  { regs := m.regs.filter (fun x => islandReg x.1), gl := m.gl, md := m.md, nl := (logLost m).nl,
    st := { plates := m.st.plates, jnext := m.st.jnext, jpage := m.st.jpage, jdblk := m.st.jdblk, jerase := m.st.jerase },
    ph := { grp := m.ph.grp.map (fun x => (x.1, keptPhy x.2)), ephA := m.ph.ephA, ephB := m.ph.ephB, ephAt := m.ph.ephAt, image := m.ph.image },
    tr := { slot := m.md.time / 1000 }, dm := keptDome m.dm, free := m.free }

/-- R73, R78, R544: a cold reset with VAON held. -/
def coldReset (m : Mx) : Mx :=
  setGl (coreLost m)
    { vaon := m.gl.vaon, porstN := false, wrstN := m.gl.wrstN, pfailN := m.gl.pfailN, lost := m.gl.lost,
      island := m.gl.island, fresh := m.gl.fresh, msyncOut := m.gl.msyncOut }

/-- R544: what P3 loses; the accepted sets of the Ephemeris cache and the mailbox commands stay. -/
def enterP3 (m : Mx) : Mx :=
  let m' := coreLost m
  { m' with ph := { m'.ph with grp := m.ph.grp.map (fun x => (x.1, { keptPhy x.2 with trained := x.2.trained })) },
            dm := { m'.dm with cmds := m.dm.cmds } }

/-- 11_meridian_transit.md R411: VAON rises: everything starts from its reset value. -/
def vaonUp (m : Mx) : Mx := { gl := { porstN := false }, dm := { booted := m.dm.booted }, free := m.free }

/-! ## Applying cached rate sets (R542, R548; 07_phy_calibration.md R282) -/

/-- The set in use is applied and verified, its deskews corrected; results of a narrowed retrain replace a set whose verify
failed, one that moved a trim by more than 8 steps among them (07_phy_calibration.md R282, R295). -/
def reapply (rs : List TrainRes) (drift : List (Nat × List Byte)) (g : Nat) (m : Mx) : Mx :=
  let mine := rs.filter (fun r => r.grp == g)
  let v := verify g { set := ((drift.find? (fun x => x.1 == g)).map (·.2)).getD [] } (applySet g m)
  if mine.isEmpty then (if v.2 then v.1 else dropSet g v.1) else retrained g mine v.1

/-! ## Warm reset (R542, R543) -/

/-- R542 steps 1 to 3: fetching stops, every port drains, engines stop. -/
def beginWarm (m : Mx) : Mx :=
  let m := setGl m { m.gl with phase := .warm, warm := some .draining, warmOwed := false, warmByReg := false,
                               pstate := 0, req := 0, waitQuiet := false }
  each (List.range 4) startDrain m

/-- R542 step 4: every port is DRAINED or out of service. -/
def portsQuiet (m : Mx) : Bool := (List.range 4).all (fun p => !(port m p).drain || (port m p).down)

/-- R542 step 5: dies not ready by RST_LIM after the FCh are SUSPECT. -/
def warmSuspects (m : Mx) : Mx :=
  each (m.gl.warmEnv.unready.filter (fun d => decide (d < 2048) && (die m d).busy.isSome && (die m d).state == 0))
    (fun d m => changeState d 1 1 m) m

/-- A ring after a warm reset (03_queues.md R125). -/
def warmRing (g : Ring) : Ring := { err := g.err, errIdx := g.errIdx }

/-- A die context after a warm reset (R544): recovery comes first for a SUSPECT die. -/
def warmDie (x : Die) : Die :=
  { state := x.state, absent := x.absent, mode := x.mode, ident := x.ident, cap := x.cap, offers := x.offers,
    ahead := if x.state = 1 then [.recover] else [] }

def warmChan (c : Chan) : Chan := { freeze := c.freeze, wait := c.wait, waitCtx := c.waitCtx }

/-- A codec cluster after a warm reset: its fault and counts, and the routing that follows from it, stay until a test. -/
def warmCodec (k : Codec) : Codec :=
  { faulted := k.faulted, fault := k.fault, served := k.served, ncw := k.ncw, nfail := k.nfail, nsoft := k.nsoft, neras := k.neras }

/-- A port after a warm reset: no credits (02_boundary.md R44); one out of service stays so. -/
def warmPort (p : Port) : Port := if p.down then { down := true, drain := p.drain, retired := p.retired } else {}

/-- What becomes of an access to host memory of Dome's, or of a configuration write, whose requests the reset has drained: one not
yet issued has failed with them (log entry 93). -/
def ownWarm (a : OwnAcc) : OwnAcc := { a with todo := [], ended := some (a.ended.getD (some .drained)) }

/-- R543: what the reset leaves of an UPDATE: its reservation is freed, so that it is asked for again where the package was not yet
being fetched, and a package fetched into it has to be fetched again. -/
def updWarm (d : Dome) : Dome :=
  match d.upd with
  | some .asked => { d with upd := none }
  | some .fetching =>
    if d.acc.bind (·.ended) = some none then { d with upd := none, acc := none } else { d with acc := d.acc.map ownWarm }
  | some (.writing _ p) => { d with upd := some (.cut (pkgSeq p) 0x200) }
  | _ => { d with acc := d.acc.map ownWarm }

/-- R544, R125, 12_stage_buffer.md R462, 13_interrupts.md R488: the clearing of step 6. -/
def clearWarm (m : Mx) : Mx :=
  { m with
    hp := m.hp.map (fun x => (x.1, warmPort x.2)),
    qe := { m.qe with rings := m.qe.rings.map (fun x => (x.1, warmRing x.2)), ntcs := [], invBusy := false, invRes := 0 },
    ents := [],
    wr := [],
    dx := { ids := m.dx.ids },
    sb := { m.sb with resv := [], wait := [], failed := [], count := 0, alarm := false },
    ch := m.ch.map (fun x => (x.1, warmChan x.2)),
    die := m.die.map (fun x => (x.1, warmDie x.2)),
    cx := { m.cx with cl := m.cx.cl.map (fun x => (x.1, warmCodec x.2)) },
    tr := { m.tr with reqs := [], holds := [] },
    ic := { en := m.ic.en },
    st := { m.st with stripes := m.st.stripes.filter (fun x => x.2.state == 1 || x.2.state == 2), parP := [], parQ := [],
                      filled := [], taken := [], jobs := [], walk := [], ckpt := none },
    gl := { m.gl with warms := satInc m.gl.warms 0xFF, cfgAcc := m.gl.cfgAcc.map ownWarm },
    dm := updWarm m.dm }

/-- R543: a checkpoint cut by the reset. -/
def ckptCut (m : Mx) : Mx :=
  match m.st.ckpt with
  | some k =>
    let m := dropCkpt m
    jFailed (k.todo.headD 0) { m with st := { m.st with changed := true } }
  | none => m

/-- 08_codec.md R329: every faulted cluster without BIST_FAIL is tested; a test whose outcome is known ends. -/
def warmTests (m : Mx) : Mx :=
  each m.gl.warmEnv.tests (fun x m => restoreEnd x.1 x.2 m) (each (List.range 32) restoreStart m)

/-- R542 steps 5 and 6: every thread has its GRP_INIT to run. -/
def warmClear (m : Mx) : Mx :=
  let m := warmSuspects m
  let cut := m.st.ckpt
  let wr := m.wr.filter (fun x => x.1 == 9 || x.1 == 10 || x.1 == 11)
  let m := abandonSegment (clearWarm m)
  let m := ckptCut { m with wr := wr, st := { m.st with ckpt := cut } }
  let m := if m.gl.cfgAcc.isSome then cfgFails (setOwn true none m) else cfgCut m
  each (List.range 32) initThreads (warmTests (ephCut (saveCut m)))

/-- Mode, rate and step that a warm start, or the FINAL checkpoint within one, gives a group: those in use, or awaited. -/
def warmWish (m : Mx) (g : Nat) : Nat × Nat × Nat :=
  let p := phy m g
  if p.resetDies != [] then (smode m g, stdRate m g, 0)
  else if p.later ∧ p.mode = 4 ∧ p.want = none then aim m g
  else p.want.getD (p.mode, p.rate, p.therm)

/-- 02_boundary.md R77: the FINAL checkpoint of a warm reset past its clearing step has the cached sets applied, without the
verify. -/
def warmApply (g : Nat) (m : Mx) : Mx :=
  let w := warmWish m g
  applySet g (runAt g w.1 w.2.1 w.2.2 m)

/-- R542 step 8 for one group: the mode and rate in use, or awaited, come from the cache. -/
def warmPhy (g : Nat) (m : Mx) : Mx :=
  let p := phy m g
  let w := warmWish m g
  let m := setPhy m g { p with hold := false, recal := [], fresh := [], resetDies := [], later := false }
  let m := match p.retrain with
    | some rs => doRetrain g rs m
    | none => runAt g w.1 w.2.1 w.2.2 m
  let m := if (phy m g).mode = 4 then m else leaveFervon g m
  reapply m.gl.warmEnv.sets m.gl.warmEnv.drift g m

/-- R542 steps 8 to 11. -/
def warmFinish (m : Mx) : Mx :=
  let m := each (List.range 32) warmPhy m
  let m := if m.dm.boot = 1 then enableOwn m else m
  let m := deliverDose m
  let m := replay true [] m.gl.warmEnv.probes m
  setGl m { m.gl with phase := .ready, warm := none }

/-- R542: a warm reset goes on as far as the ports, WRST_N and the power-fail sequence allow. -/
def warmTurn (m : Mx) : Mx :=
  if m.gl.pf ≠ .none then m
  else
    let m := if m.gl.warm = some .draining ∧ portsQuiet m then
        (let m := warmClear m
         setGl m { m.gl with warm := some .waitRelease })
      else m
    if m.gl.warm = some .waitRelease ∧ m.gl.wrstN then warmFinish m else m

/-- A warm reset that has been asked for begins. -/
def startWarm (m : Mx) : Mx := warmTurn (beginWarm m)

/-- R77, R555: a warm reset held back takes place if WRST_N is still low or GL_RESET asked for it. -/
def owedWarm (m : Mx) : Mx :=
  if m.gl.warmOwed then
    (if m.gl.wrstN = false ∨ m.gl.warmByReg then startWarm m
     else setGl m { m.gl with warmOwed := false })
  else m

/-- R542, R555: WRST_N falls. After the power-fail sequence has ended, while launches are still stopped, the reset is owed too
(02_boundary.md R77 names only a fall during the sequence; DESIGN CHOICE, log entry 160). -/
def wrstDown (env : WarmEnv) (m : Mx) : Mx :=
  let m := setGl m { m.gl with wrstN := false }
  if !m.gl.porstN || m.gl.phase = .warm then m
  else if m.gl.pstate = 3 then log m .wrstInP3
  else
    let m := setGl m { m.gl with warmEnv := env }
    if m.gl.phase ≠ .ready ∨ m.gl.pf ≠ .none then setGl m { m.gl with warmOwed := true }
    else startWarm m

/-- R542 step 7: WRST_N rises. -/
def wrstUp (m : Mx) : Mx := warmTurn (setGl m { m.gl with wrstN := true })

/-- R557: a write of GL_RESET. -/
def glReset (v : Word) (env : WarmEnv) (m : Mx) : Mx :=
  if fld v 31 24 ≠ 0xA5 ∨ fld v 1 0 ≠ 2 ∨ m.gl.phase ≠ .ready then log m .resetRefused v.toNat
  else
    let m := setGl m { m.gl with warmEnv := env }
    if m.gl.pf ≠ .none then setGl m { m.gl with warmOwed := true, warmByReg := true } else startWarm m

/-! ## Meanings -/

/-- VAON_RISE (R411). -/
def execVaonRise (s : State) : Res := act s vaonUp

/-- PORST_N_ASSERT (R73). -/
def execPorstAssert (s : State) : Res := act s coldReset

/-- PORST_N_RELEASE (R534, R77): WAIT_START; a low PFAIL_N holds launches. -/
def execPorstRelease (s : State) : Res :=
  act s (fun m => onlyIf (!m.gl.porstN)
    (fun m => setGl m { m.gl with porstN := true, phase := .waitStart, pf := if m.gl.pfailN then .none else .held }) m)

/-- WRST_N_FALL (R542). -/
def execWrstFall (env : WarmEnv) (s : State) : Res := act s (wrstDown env)

/-- WRST_N_RELEASE (R542). -/
def execWrstRelease (s : State) : Res := act s wrstUp

/-- WARM_RESET (R557). -/
def execWarmReset (val : Word) (env : WarmEnv) (s : State) : Res := act s (access 0xC true (glReset val env))

end Sys2Proof.Machine
end

