-- ==== Sys2Proof/Machine/Startup.lean ====
section
/-! DEFINITION. Start-up (15_startup_reset_power.md R534–R541, R545–R554): the cold start, the configuration record, the
self-test, the low-power states, power failure and the monitored clocks. -/

namespace Sys2Proof.Machine

/-! ## The configuration record (R538–R541) -/

def cfgPairs (l : List Byte) : Nat := leAt l 6 2
def cfgSeqOf (l : List Byte) : Nat := leAt l 8 8

/-- R538: the check of a record. -/
def cfgCrc (l : List Byte) : Nat := crc32c (slice l 0 0x3C ++ slice l 0x40 (8 * cfgPairs l))

/-- R539, R541: MAGIC, FMT and NPAIR. -/
def cfgShape (l : List Byte) : Bool := (leAt l 0 4 == 0x47464E43) && (leAt l 4 2 == 1) && decide (cfgPairs l ≤ 8184)

/-- R539: a valid copy. -/
def cfgValid (l : List Byte) : Bool := cfgShape l && (leAt l 0x3C 4 == cfgCrc l)

/-- SEQ of a copy, where it is valid. -/
def cfgFound (o : Option (List Byte)) : Option Nat :=
  match o with
  | some l => if cfgValid l then some (cfgSeqOf l) else none
  | none => none

/-- R539: the source and record of the highest SEQ; the island wins a tie, then copy A. -/
def cfgChoice (island a b : Option (List Byte)) : Option (Nat × List Byte) :=
  ([(3, island), (1, a), (2, b)].filterMap (fun x => match x.2 with
    | some l => if cfgValid l then some (x.1, l) else none
    | none => none)).foldl (fun (c : Option (Nat × List Byte)) x => match c with
      | none => some x
      | some y => if cfgSeqOf y.2 < cfgSeqOf x.2 then some x else some y) none

/-- R539: writes that a record may not make. -/
def cfgSkips (off : Nat) : Bool :=
  (decide (0x100000 ≤ off) && decide (off < 0x101000)) || decide (0x800000 ≤ off) ||
  [0x4, 0xC, 0x14, 0x10, 0x30, 0x34].contains off

/-- R539: one write of a record, as a control-port write; the pins of the port do not move. -/
def cfgPair (off : Nat) (v : Word) (m : Mx) : Mx :=
  if cfgSkips off then log m .cfgSkipped off
  else match accessCause m off 15 with
    | some c => { cpRefuse m off true c with cp := m.cp }
    | none => blockWrite .host off v m

/-- R539: the writes of a record, in order, with GL_LOCK open; then GL_LOCK as the record has it. -/
def cfgWrites (l : List Byte) (m : Mx) : Mx :=
  let m := each (List.range (cfgPairs l))
    (fun i m => cfgPair (leAt l (0x40 + 8 * i) 4) (word (leAt l (0x44 + 8 * i) 4)) m) (setGl m { m.gl with lockClosed := false })
  setGl m { m.gl with lockClosed := (leAt l 0x18 4).testBit 0 }

def cfgLocValid (m : Mx) : Bool := bit (reg m 0x30) 31

/-- R536 step 4, R539, R540: choose a record and apply it; an exit from P3 uses the island copy alone (R548). -/
def applyConfig (e : StartEnv) (m : Mx) : Mx :=
  let flash := cfgLocValid m && !m.gl.p3exit
  let a := if flash then e.cfgA else none
  let b := if flash then e.cfgB else none
  let m := if flash then
      setGl m { m.gl with cfgA := cfgFound a, cfgB := cfgFound b, cfgAtA := e.cfgAt.1, cfgAtB := e.cfgAt.2 } else m
  match cfgChoice m.gl.island a b with
  | some (src, l) =>
    cfgWrites l (setGl m { m.gl with cfgSrc := src, cfgSeq := cfgSeqOf l, cfgdef := false,
                                     island := some (slice l 0 (64 + 8 * cfgPairs l)) })
  | none => log (setGl m { m.gl with lockClosed := false, cfgSrc := 0, cfgSeq := 0, cfgdef := true }) .cfgDefault

/-- R541: the record as it is programmed, its reserved bytes zero (00_scope.md R17). -/
def cfgFill (m : Mx) (seq : Nat) (l : List Byte) : List Byte :=
  let l := patch (patch (patch l 8 (leBytes 8 seq)) 0x10 (leBytes 8 m.md.time)) 0x1C (List.replicate 32 0)
  patch l 0x3C (leBytes 4 (cfgCrc l))

/-- R294, R541: copy B is written first. -/
def cfgBFirst (m : Mx) : Bool :=
  match m.gl.cfgA, m.gl.cfgB with
  | some a, some b => decide (b < a)
  | some _, none => true
  | none, _ => false

/-- R541: the record takes its SEQ, TWRITE and RCRC, and the first copy is begun. -/
def cfgStore (l : List Byte) (m : Mx) : Mx :=
  let q := 1 + max (max (m.gl.cfgA.getD 0) (m.gl.cfgB.getD 0)) ((cfgFound m.gl.island).getD 0)
  cfgCopyStart (cfgBFirst m) false (setGl m { m.gl with cfgNew := cfgFill m q l })

/-- R541: the read of the record has ended: its checks, and its copies. -/
def cfgGot (m : Mx) : Mx :=
  match m.gl.cfgAcc.bind (·.ended) with
  | none => m
  | some (some _) => cfgFails (setOwn true none m)
  | some none =>
    let n := fld (reg m 0x44) 16 0
    let l := memRead ((m.gl.cfgAcc.map (·.data)).getD []) ((reg m 0x3C).toNat + 2 ^ 32 * (reg m 0x40).toNat) n
    let m := setOwn true none m
    if !cfgShape l || n != 64 + 8 * cfgPairs l || !cfgLocValid m || m.gl.pf != .none then cfgFails m
    else cfgStore l m

/-- R541, R557: CFGWR: the record is read from host memory on HP0. -/
def cfgwrite (m : Mx) : Mx :=
  if m.gl.phase ≠ .ready ∨ m.gl.wrBusy then log m .cfgwrRefused
  else
    cfgGot (ownRead true 0 ((reg m 0x3C).toNat + 2 ^ 32 * (reg m 0x40).toNat) (fld (reg m 0x44) 16 0)
      (setGl m { m.gl with wrBusy := true }))

/-! ## The steps of a start (R536) -/

/-- Step 2 (14_dome_nightlog.md R513, R515): the fuses. -/
def readFuses (e : StartEnv) (m : Mx) : Mx := fuseReads e.fuses 4 0 (setDome m { m.dm with fuseok := false })

/-- The die whose GEOM register lies at an offset. -/
def geomDie (off : Nat) : Option Nat :=
  if 0x200000 ≤ off ∧ off < 0x280000 ∧ 0x140 ≤ off % 0x1000 ∧ off % 0x1000 < 0x180 then
    some (dieOf ((off - 0x200000) / 0x1000) ((off % 0x1000 - 0x140) / 4))
  else none

/-- Dies that DIE_INIT finds on the enabled channels. -/
def presentDies (e : StartEnv) (m : Mx) : List DieFound :=
  e.dies.filter (fun x => decide (x.die < 2048) && chEnabled m (dieCh x.die))

/-- A die of a target not found, or of a disabled channel (05_channel_engine.md R197). -/
def absentDie : Die := { state := 2, absent := true }

/-- Steps 3 and 6: DIE_INIT (05_channel_engine.md R197, R232; 07_phy_calibration.md R274). -/
def dieInit (e : StartEnv) (m : Mx) : Mx :=
  let ds := presentDies e m
  let found (d : Nat) : Bool := ds.any (fun x => x.die == d)
  let m := { m with die := (List.range 2048).map (fun d => (d, if found d then ({} : Die) else absentDie)),
                    regs := m.regs.filter (fun x => (geomDie x.1).all found) }
  each ds (fun x m =>
    setReg (setDie m x.die { mode := x.mode, ident := x.ident, cap := x.cap, offers := x.susp })
      (chOff (dieCh x.die) (0x140 + 4 * dieCtx x.die)) x.geom) m

/-- Step 5: Dome's packages are read from their slots (14_dome_nightlog.md R509, R511). -/
def bootDome (e : StartEnv) (m : Mx) : Mx :=
  let m := if m.gl.p3exit then m else setDome m { m.dm with slotA := e.slotA, slotB := e.slotB }
  bootSlots e.fwRuns m

/-- 11_meridian_transit.md R439, 14_dome_nightlog.md R491: Dome gives rings 256–258 class 1. -/
def domeClasses (m : Mx) : Mx := setReg m (trOff 0x1C0) 0x15

/-- Step 6: the service images (06_microcode.md R259, R260). -/
def loadImages (m : Mx) : Mx :=
  match m.dm.pkg with
  | none => m
  | some p => each (List.range 32) (fun g m => match imageFor m p g with
      | some i => loadImg g i m
      | none => log m .imgRefused g 5) (logFaulty p m)

/-- 07_phy_calibration.md R269: each populated die that DIE_INIT leaves without a rate. -/
def noRates (m : Mx) : Mx :=
  each ((List.range 32).flatMap (fun g => (popDies m g).filter (fun d => capRate m d == 0))) (fun d m => log m .noRate d) m

/-- Step 7: the Ephemeris copies, and how far each block is programmed (07_phy_calibration.md R295). -/
def readEphemeris (e : StartEnv) (m : Mx) : Mx :=
  if !bit (ephLoc m) 31 then m
  else
    let a := ephCopyOf m e.ephA
    let b := ephCopyOf m e.ephB
    let m := each (List.range 32) (ephLoad e.ephA e.ephB) m
    { m with ph := { m.ph with ephA := { a with page := e.ephAt.1 }, ephB := { b with page := e.ephAt.2 } } }

/-- 07_phy_calibration.md R294: training has trained a set with no valid record, or one outside the tolerance. -/
def ephDue (m : Mx) : Bool :=
  m.ph.grp.any (fun x => x.2.sets.any (fun y =>
    isTrained x.2 y.1 && (!x.2.recd.any (fun z => z.1 == y.1) || !runsAgree y.2 (tabGet [] x.2.recd y.1))))

/-- Step 8 for one group: set 3 is trained, or at an exit from P3 the cached sets serve; then, where R275 allows, Fervon mode is
entered and the Fervon sets are trained. -/
def trainGroup (e : StartEnv) (g : Nat) (m : Mx) : Mx :=
  let mine := e.sets.filter (fun r => r.grp == g)
  let m :=
    if m.gl.p3exit then reapply e.sets e.drift g (runAt g (smode m g) (stdRate m g) 0 m)
    else
      let m := each (mine.filter (fun r => r.set == 3)) trained m
      applySet g (runAt g (smode m g) (stdRate m g) 0 m)
  if fvAllowed m g then enterFervon g (fvTarget m g) { fails := e.fvFails } (if m.gl.p3exit then [] else mine.filter (fun r => decide (r.set < 3))) m else m

/-- Step 8. -/
def trainAll (e : StartEnv) (m : Mx) : Mx :=
  let m := each (List.range 32) (trainGroup e) m
  { m with ph := { m.ph with due := m.ph.due || ephDue m } }

/-- Step 9: the dose (14_dome_nightlog.md R504, R505). -/
def restoreDose (e : StartEnv) (m : Mx) : Mx :=
  if !m.gl.fresh then deliverDose (sampleDose (integrate m))
  else match newestSeg e.segs with
    | some g =>
      let m := setDome m { m.dm with dose := leAt g.bytes 0x20 8, doseF := 0, gap := true, doseAt := m.md.time }
      deliverDose (sampleDose (log m .doseGap 1))
    | none => deliverDose (sampleDose (setDome m { m.dm with dose := 0, doseF := 0, gap := false, doseAt := m.md.time }))

/-- Step 12: READY; a warm reset held back follows (R555). -/
def startReady (m : Mx) : Mx := owedWarm (setGl m { m.gl with phase := .ready, fresh := false, p3exit := false })

/-! ## Self-test (R553, R554) -/

/-- Units of the self-test. -/
def units : List Nat := List.range 72

/-- R553: BIST with START. -/
def bistStart (m : Mx) : Mx :=
  { setGl m { m.gl with phase := .bist } with
    bt := { running := true, runs := m.bt.runs + 1 }, sb := { m.sb with scrub := false, trk := [] } }

/-- R553: the tests have ended: signatures are left, and the stage buffer is filled with checked zeros. -/
def bistEnd (m : Mx) : Mx :=
  { m with bt := { m.bt with sig := units.map (fun u => (u, Config.misr u m.bt.runs)) },
           sb := { m.sb with data := [], chk := [], allWritten := true } }

/-- R554: the outcome of a unit: 1 PASS, 2 FAIL, 3 NOEXP. -/
def unitResult (e : StartEnv) (m : Mx) (u : Nat) : Nat :=
  match e.signs.find? (fun x => x.1 == u) with
  | none => 3
  | some x => if x.2 = tabGet 0 m.bt.sig u then 1 else 2

/-- R554: what follows a unit's FAIL. -/
def unitFailed (u : Nat) (m : Mx) : Mx :=
  let m := log (setGl m { m.gl with bistf := true }) .bistFail u
  if 40 ≤ u then clusterFault (u - 40) 5 3 0 m
  else if 8 ≤ u then
    let g := u - 8
    setReg m (0x20 + 4 * (g / 8)) (reg m (0x20 + 4 * (g / 8)) &&& ~~~(word (15 * 2 ^ (4 * (g % 8)))))
  else m

/-- R554: Dome judges every unit. -/
def judgeTests (e : StartEnv) (m : Mx) : Mx :=
  if !m.bt.running then m
  else
    let rs := units.map (fun u => (u, unitResult e m u))
    let m := { m with bt := { m.bt with running := false, done := true, res := rs, exp := (e.signs.filter (fun x => x.1 < 72)).foldl (fun t x => tabSet t x.1 x.2) [] } }
    raise (each (rs.filter (fun x => x.2 == 2)) (fun x m => unitFailed x.1 m) m) 298

/-! ## The start as a whole (R536, R537, R548, R555) -/

/-- 10_stripes.md R401, R404: where the island is lost, the search finds how far each journal die's block is programmed. -/
def findJournal (e : StartEnv) (m : Mx) : Mx :=
  if !m.gl.fresh || !jen m then m
  else each (e.jAt.filter (fun x => decide (x.1 < 8))) (fun x m =>
    let b := if ppb m (jdieOf m x.1) < x.2.2 + 2 then !x.2.1 else x.2.1
    let n := if ppb m (jdieOf m x.1) < x.2.2 + 2 then 0 else x.2.2
    { m with st := { m.st with jpage := tabSet m.st.jpage x.1 n, jdblk := tabSet m.st.jdblk x.1 b, jblk := b,
                               jerase := if b = x.2.1 then m.st.jerase else insN m.st.jerase x.1 } }) m

/-- Steps 5 to 12, once Dome firmware runs. -/
def startRest (e : StartEnv) (m : Mx) : Mx :=
  let m := noRates (loadImages (dieInit e (judgeTests e (domeClasses m))))
  let m := if m.gl.p3exit then m else readEphemeris e (setGl m { m.gl with phase := .train })
  let m := trainAll e m
  let m := setGl m { m.gl with phase := .restore }
  let m := restoreDose e (logRestore m.gl.fresh e.segs m)
  let m := loadSeeing e.seeA e.seeB (replay (!m.gl.fresh) e.pages e.probes (sysReads e.reads (findJournal e m)))
  startReady m

/-- The start goes on where Dome firmware runs; a trial or WAIT holds it (R511, R512), as launches that are stopped do. -/
def startOn (e : StartEnv) (m : Mx) : Mx :=
  if m.gl.phase ≠ .boot ∨ m.dm.boot ≠ 1 then m
  else if m.gl.pf = .none then startRest e m
  else setGl m { m.gl with startOwed := some e }

/-- R537: step 2's GRP_INIT, or long ZQ calibration, has failed on some groups; the start goes on. -/
def initFails (e : StartEnv) (m : Mx) : Mx := each (e.initFails.filter isGrp) (fun g m => log m .initFailed g) m

/-- Steps 1 to 5; DO_STAT.BOOT is the boot ROM's from step 1 on. -/
def romStart (e : StartEnv) (m : Mx) : Mx :=
  let m := setDome (setGl m { m.gl with phase := .boot }) { m.dm with boot := 0, bootWas := none }
  bootDome e (applyConfig e (dieInit e (initFails e (readFuses e m))))

/-- A cold start, or an exit from P3, as far as it goes before a trial, WAIT or stopped launches hold it. -/
def coldStart (e : StartEnv) (m : Mx) : Mx := startOn e (romStart e m)

/-- A start begins, or is held while launches are stopped (R77, R555). -/
def startGo (e : StartEnv) (m : Mx) : Mx :=
  if m.gl.pf = .none then coldStart e m else setGl m { m.gl with phase := .boot, startOwed := some e }

/-- R536, R557: GL_CTRL.START. -/
def glStart (e : StartEnv) (m : Mx) : Mx := if m.gl.phase ≠ .waitStart then log m .startRefused else startGo e m

/-- R553, R557: GL_CTRL.START with BIST. -/
def glBist (m : Mx) : Mx := if m.gl.phase ≠ .waitStart then log m .startRefused else bistStart m

/-- R534, R554: every unit's self-test has ended. -/
def testsEnd (e : StartEnv) (m : Mx) : Mx := if m.gl.phase ≠ .bist then m else startGo e (bistEnd m)

/-- R511: a trial has not reported running. -/
def trialOver (e : StartEnv) (m : Mx) : Mx :=
  if m.dm.trial.isNone then m else startOn e (restartReplies (trialFails e.fwRuns m))

/-- Bytes of a host package that the ROM fetches (R507, R512). -/
def hostLen (m : Mx) : Nat := min (reg m (doOff 0xB4)).toNat 1048576

def hostAddr (m : Mx) : Nat := (reg m (doOff 0xAC)).toNat + 2 ^ 32 * (reg m (doOff 0xB0)).toNat

/-- R508, R512: the fetch of a host package has ended: it is checked, and runs. -/
def hostGot (m : Mx) : Mx :=
  match m.dm.hostEnv, m.dm.acc.bind (·.ended) with
  | some _, some (some _) => setDome (setOwn false none m) { (setOwn false none m).dm with hostEnv := none }
  | some e, some none =>
    let p := memRead ((m.dm.acc.map (·.data)).getD []) (hostAddr m) (hostLen m)
    let m := setDome (setOwn false none m) { (setOwn false none m).dm with hostEnv := none }
    (match pkgFault m p (reg m (doOff 0xB4)).toNat with
     | some k => raise (log m .updRefused k (pkgSeq p) (checkResult k)) 294
     | none => startOn e (runPkg 2 p m))
  | _, _ => m

/-- R512: DO_BOOT.HOSTPKG, which acts in WAIT: the ROM fetches the package on DO_BOOT.PORT. While it does, another write has no
effect (log entry 157). -/
def hostBoot (e : StartEnv) (m : Mx) : Mx :=
  if m.dm.boot ≠ 2 ∨ m.dm.hostEnv.isSome then m
  else
    hostGot (ownRead false (fld (reg m (doOff 0xA8)) 1 0) (hostAddr m) (hostLen m) (setDome m { m.dm with hostEnv := some e }))

/-- What an answered request lets go on: the fetch of a host package, or a configuration write. -/
def ownTurn (m : Mx) : Mx := cfgGot (hostGot m)

/-! ## Low-power states (R545–R549) -/

/-- R546: doorbells are accepted, fetching stops and read-aheads are discarded. -/
def waitState (n : Nat) (autowake : Bool) (m : Mx) : Mx :=
  let m := setGl m { m.gl with req := n, autowake := autowake, waitQuiet := true }
  each ((m.die.filter (fun x => x.2.spec.isSome)).map (·.1)) cancelAhead m

/-- R545: a request for P1, P2 or P3. -/
def pwrRequest (n : Nat) (autowake : Bool) (m : Mx) : Mx :=
  if m.gl.phase ≠ .ready then log m .pwrRefused n
  else if m.gl.pstate = 0 then waitState n autowake m
  else if m.gl.pstate = n then setGl m { m.gl with autowake := autowake }
  else log m .pwrRefused n

/-- R546: quiescence. -/
def quiescent (m : Mx) : Bool :=
  m.qe.rings.all (fun x => x.2.live.isEmpty && x.2.reqAt.isNone) && m.die.all (fun x => x.2.busy.isNone) &&
  m.st.stripes.all (fun x => x.2.state != 2) && m.sg.saving.isNone && (sysW m 10).isNone && m.st.ckpt.isNone && m.nl.seg.isNone && (sysW m 12).isNone && !m.gl.wrBusy

/-- R546: the state asked for is entered. -/
def enterState (m : Mx) : Mx :=
  if m.gl.waitQuiet && quiescent m then
    let m := setGl m { m.gl with pstate := m.gl.req, waitQuiet := false }
    if m.gl.pstate = 3 then enterP3 m else m
  else m

/-- R548: exit from P3: the steps of the cold start with its differences; Dome restarts (14_dome_nightlog.md R492). -/
def exitP3 (e : StartEnv) (m : Mx) : Mx :=
  let m := setGl m { m.gl with pstate := 0, req := 0, p3exit := true, lockClosed := false,
                               pf := if m.gl.pfailN then .none else .held }
  let m := endCommands none m
  startGo e (setDome m { m.dm with restarts := satInc m.dm.restarts 0xFFFF, restarting := true })

/-- R545, R548: REQ 0. -/
def pwrBack (autowake : Bool) (e : StartEnv) (m : Mx) : Mx :=
  let m := setGl m { m.gl with autowake := autowake }
  match m.gl.pstate with
  | 0 => setGl m { m.gl with req := 0, waitQuiet := false }
  | 1 => wake m
  | 2 => each (List.range 32) (reapply e.sets e.drift) (wake m)
  | _ => exitP3 e m

/-! ## Power failure (R550, R555; 02_boundary.md R74–R77; 10_stripes.md R403) -/

/-- 11_meridian_transit.md R435: an admitted request that has not anchored is withdrawn: its tenure ends, its command phase
will restart, and it waits to be admitted again. A read-ahead that has not yet asked by its own GATE ADMIT will ask there. -/
def withdrawn (h : TrHold) (m : Mx) : Mx :=
  let d := h.die
  match h.req with
  | none => m
  | some q =>
    if q.once then m
    else
      let m := endTenure d m
      let x := die m d
      let m := if x.frame.active then
          busRequest d (releaseCe d (setDie m d { x with
            frame := { x.mark.getD x.frame with admission := false, regain := true, readmit := true, cyc := none, launchAt := none },
            mark := none }))
        else m
      let m := each (((die m d).cur.map (itemOwners m)).getD []) (setAdmitted false) m
      { m with tr := { m.tr with reqs := m.tr.reqs ++ [q] } }

/-- R435: every hold not anchored is released. -/
def withdrawAll (m : Mx) : Mx :=
  let l := m.tr.holds.filter (fun h => h.anchor.isNone)
  overFall (each l withdrawn { m with tr := { m.tr with holds := m.tr.holds.filter (fun h => h.anchor.isSome) } })

/-- 10_stripes.md R403: the erase in progress on a die is suspended where the die offers it, which counts against no SUSP_MAX: it
is held as by SUSPENSION, whose frame, or RESUME's, where one runs, it ends. On another die it runs on unobserved. No phase of
it passes Transit, which admits none (11_meridian_transit.md R435; log entry 151). -/
def stopErase (d : Nat) (m : Mx) : Mx :=
  let x := die m d
  match x.cur, x.busy with
  | some i, some b =>
    if b.op ≠ .erase then m
    else if !x.offers.2 then setDie m d { x with pfErase := true }
    else
      let m := stopFrame d m
      setDie m d { die m d with held := x.held.or (some (i, x.frame)), pfErase := true, heldBusy := some { b with spent := busyTime m b } }
  | _, _ => m

/-- R403: every erase in progress on any die. -/
def stopErases (m : Mx) : Mx := each (m.die.map (·.1)) stopErase m

/-- R403: the erases that the sequence has suspended are resumed, by RESUME's own work item; one that ran on is judged by all the
time that has passed (05_channel_engine.md R201). -/
def resumeErases (m : Mx) : Mx :=
  { m with die := m.die.map (fun x => if x.2.pfErase then
      (x.1, { x.2 with pfErase := false, busy := x.2.busy.map (fun b => { b with next := max b.next m.md.time }) })
    else x) }

/-- R402, 14_dome_nightlog.md R529: writes of the complex's own in progress are given up on their dies; an erase that a journal
die owes goes on where it stands. What becomes of a Seeing save, an Ephemeris write and a configuration write is said by saveCut,
ephCut and cfgCut. -/
def stopWrites (m : Mx) : Mx :=
  each (m.wr.filter (fun x => decide (x.1 < 16))) (fun x m =>
    dropWrite (sysEid x.1) x.2.die (if x.1 = 9 ∨ x.1 = 10 ∨ x.1 = 11 then m else dropSys m x.1)) m

/-- 14_dome_nightlog.md R529: the slot write of an UPDATE is abandoned; what word 15 of its reply then holds is not stated, and is
free. -/
def slotAbandon (m : Mx) : Mx :=
  match m.dm.upd with
  | some (.writing _ _) => (let dr := draw m; updCut (Config.freeWord dr.1).toNat dr.2)
  | _ => m

/-- R550: the sequence starts. -/
def pfailStart (m : Mx) : Mx :=
  let m := raise { setGl m { m.gl with pf := .running } with st := { m.st with finalAsked := false } } 300
  let m := stopWrites (stopErases (withdrawAll m))
  let m := abandonSegment (cfgCut (ephCut (saveCut (slotAbandon m))))
  settlePlates (abandonCkpt m)

/-- R74, R75, R555: PFAIL_N low for 100 ns. -/
def pfailDown (m : Mx) : Mx :=
  let m := setGl m { m.gl with pfailN := false }
  if !m.gl.porstN || m.gl.pf ≠ .none || m.gl.pstate = 3 then m else pfailStart m

/-- R403: no program or sense runs on any die. -/
def workDone (m : Mx) : Bool :=
  m.die.all (fun x => match x.2.busy with
    | some b => !(b.op == .program || b.op == .sense)
    | none => true)

/-- R403: the FINAL checkpoint begins. -/
def pfailFinal (m : Mx) : Mx :=
  if m.gl.pf = .running ∧ workDone m ∧ m.st.finalAsked = false then
    finalCkpt (if m.gl.warm = some .waitRelease then each (List.range 32) warmApply m else m)
  else m

/-- R403: the FINAL checkpoint has been taken, where the journal is kept. -/
def finalTaken (m : Mx) : Bool := !jen m || (m.st.finalAsked && m.st.ckpt.isNone)

/-- R75, R77, R403, R550: the sequence ends with the FINAL copies B; a warm reset held back is dropped where WRST_N has risen. -/
def pfailEnds (m : Mx) : Mx :=
  if m.gl.pf ≠ .running ∨ finalTaken m = false then m
  else
    let m := raise (setGl m { m.gl with pf := .stopped }) 300
    if m.gl.warmOwed ∧ m.gl.phase = .ready ∧ m.gl.wrstN ∧ m.gl.warmByReg = false then setGl m { m.gl with warmOwed := false } else m

/-- R75, R77, R555: PFAIL_N has been high for 100 µs: launches resume, and what waited goes on: a warm reset owed from a fall of
WRST_N after the sequence starts, be WRST_N high again or not (log entry 160). -/
def pfailOver (m : Mx) : Mx :=
  let m := setGl m { m.gl with pfailN := true }
  if m.gl.pf ≠ .stopped ∧ m.gl.pf ≠ .held then m
  else
    let was := m.gl.pf
    let m := resumeErases (setGl m { m.gl with pf := .none })
    let m := if was = .stopped then log m .pfailRecovered else m
    match m.gl.startOwed with
    | some e =>
      let m := setGl m { m.gl with startOwed := none }
      if m.dm.boot = 1 then startOn e m else coldStart e m
    | none => if m.gl.warmOwed ∧ m.gl.phase = .ready then startWarm m else warmTurn m

/-- Level of every Ggg_WP_N (02_boundary.md R84): low too until the start-up sequence changes it (R78, R535), which it does as
it leaves WAIT_START and the self-test (log entry 119). -/
def wpN (m : Mx) : Bool := m.gl.porstN && (m.gl.phase != .waitStart) && (m.gl.phase != .bist) && (m.gl.pf == .none || m.gl.pf == .running) && (m.gl.pstate != 3)

/-! ## Monitored clocks (01_architecture.md R25) -/

def clockCode : Clock → Nat
  | .hclk => 0 | .cpclk => 1 | .mclk => 2 | .mref => 3 | .pll g => 16 + g

/-- R546, R547: clocks that a power state permits to stop. -/
def mayStop (p : Nat) (c : Clock) : Bool :=
  match c with
  | .hclk => decide (1 ≤ p)
  | .pll _ => decide (2 ≤ p)
  | .mclk => p == 3
  | _ => false

/-- What a lost clock stops. -/
def clockEffect (c : Clock) (m : Mx) : Mx :=
  match c with
  | .mclk => setDome m { m.dm with mclkLost := true }
  | .mref => { m with md := { m.md with hold := true } }
  | .pll g => if m.gl.pstate < 2 then phyFault g [0, 1, 2, 3] .pll m else m
  | _ => m

/-- R25: a monitored clock is lost. -/
def clockLost (c : Clock) (m : Mx) : Mx :=
  if m.gl.lost.contains c then m
  else
    let m := setGl m { m.gl with lost := m.gl.lost ++ [c] }
    if mayStop m.gl.pstate c then clockEffect c m else clockEffect c (raise (log m .clkLoss (clockCode c)) 266)

/-- 14_dome_nightlog.md R504, R547: a clock runs again. -/
def clockBack (c : Clock) (m : Mx) : Mx :=
  if !m.gl.lost.contains c then m
  else
    let m := setGl m { m.gl with lost := m.gl.lost.filter (fun x => x != c) }
    match c with
    | .mclk =>
      let m := setDome m { m.dm with mclkLost := false }
      if domeRuns m then mbTurn m.dm.cmds.length (sampleDose (integrate m)) else m
    | .mref => mrefBack m
    | _ => m

/-- A clock the complex has: group PLLs are 0 to 31. -/
def isClock : Clock → Bool
  | .pll g => decide (g < 32)
  | _ => true

/-! ## Meanings -/

/-- PFAIL_N_FALL (R74). -/
def execPfailFall (s : State) : Res := act s pfailDown

/-- PFAIL_RECOVERY (R75). -/
def execPfailRecovery (s : State) : Res := act s pfailOver

/-- FINAL_CHECKPOINT (R403). -/
def execFinalCheckpoint (_bad : Told) (s : State) : Res := act s pfailFinal

/-- POWER_FAIL_SEQUENCE_END (R403). -/
def execPowerFailEnd (s : State) : Res := act s pfailEnds

/-- CLK_LOSS (R25). -/
def execClkLoss (c : Clock) (s : State) : Res := act s (onlyIf (isClock c) (clockLost c))

/-- CLOCK_RETURN (R504). -/
def execClockReturn (c : Clock) (s : State) : Res := act s (onlyIf (isClock c) (clockBack c))

/-- START (R536). -/
def execStart (env : StartEnv) (s : State) : Res := act s (access 4 true (glStart env))

/-- BIST (R553). -/
def execBist (s : State) : Res := act s (access 4 true glBist)

/-- SELF_TEST_END (R554). -/
def execSelfTestEnd (env : StartEnv) (s : State) : Res := act s (testsEnd env)

/-- TRIAL_BOOT_TIMEOUT (R511). -/
def execTrialBootTimeout (env : StartEnv) (s : State) : Res := act s (trialOver env)

/-- HOSTPKG (R512): DO_BOOT written with HOSTPKG set and its port as it stands. -/
def execHostPkg (_pkg : Told) (env : StartEnv) (s : State) : Res :=
  act s (access (doOff 0xA8) true (fun m => hostBoot env (setReg m (doOff 0xA8) (reg m (doOff 0xA8) ||| 0x80000000))))

/-- CFGWR (R541). -/
def execCfgwr (_rec _okFirst _okSecond : Told) (s : State) : Res := act s (access 4 true cfgwrite)

/-- GL_LOCK_CLOSE (R16). -/
def execGlLockClose (s : State) : Res := act s (access 0x10 true (fun m => setGl m { m.gl with lockClosed := true }))

/-- P1_REQUEST (R545). -/
def execP1Request (autowake : Bool) (s : State) : Res := act s (access 0x14 true (pwrRequest 1 autowake))

/-- P2_REQUEST (R545). -/
def execP2Request (autowake : Bool) (s : State) : Res := act s (access 0x14 true (pwrRequest 2 autowake))

/-- P3_REQUEST (R545). -/
def execP3Request (autowake : Bool) (s : State) : Res := act s (access 0x14 true (pwrRequest 3 autowake))

/-- P0_REQUEST (R545, R548). -/
def execP0Request (autowake : Bool) (env : StartEnv) (s : State) : Res := act s (access 0x14 true (pwrBack autowake env))

/-- RESPONSE_BEAT (02_boundary.md R49, R51). -/
def execResponseBeat (port : Nat) (kind : Bool) (tag stat : Nat) (data : BitVec 1024) (last : Bool) (s : State) : Res :=
  act s (onlyIf (isPort port) (fun m => ownTurn (beat port kind (tag % 1024) (stat % 4) data last m)))

/-- HOST_REQUEST_TMO (02_boundary.md R56). -/
def execHostRequestTmo (port tag : Nat) (s : State) : Res :=
  act s (onlyIf (isPort port) (fun m => ownTurn (timeOut port (tag % 1024) m)))

/-- DRAINED (02_boundary.md R59): a warm reset may be waiting for it. -/
def execDrained (port : Nat) (s : State) : Res := act s (onlyIf (isPort port) (fun m => warmTurn (ownTurn (drainDone port m))))

/-- HP_DOWN (02_boundary.md R60): a warm reset may be waiting for it. -/
def execHpDown (port : Nat) (s : State) : Res := act s (onlyIf (isPort port) (fun m => warmTurn (ownTurn (portDown port m))))

/-- QUIESCENCE (R546). -/
def execQuiescence (s : State) : Res := act s enterState

end Sys2Proof.Machine
end

