-- ==== Sys2Proof/Machine/ControlPort.lean ====
section
/-! DEFINITION. Control-port accesses that have no command of their own (02_boundary.md R62–R66), and the reads that
capture a 64-bit pair (00_scope.md R14). -/

namespace Sys2Proof.Machine

/-- Writes of the controls of GL. What such an action meets outside the complex comes with its own command; here it
meets nothing (log entry 7). -/
def glWrite (k : Nat) (v : Word) (m : Mx) : Mx :=
  if k = 4 then
    onlyIf (bit v 2) cfgwrite
      (if bit v 0 then (if bit v 1 then glBist m else glStart {} m) else m)
  else if k = 0xC then glReset v {} m
  else if k = 0x10 then setGl m { m.gl with lockClosed := m.gl.lockClosed || bit v 0 }
  else if k = 0x14 then
    (if fld v 1 0 = 0 then pwrBack (bit v 31) {} m else pwrRequest (fld v 1 0) (bit v 31) m)
  else glHold k v m

/-- A write of any register (16_register_index.md R559). -/
def regWrite (a : Agent) (off : Nat) (v : Word) (m : Mx) : Mx :=
  if off < 0x10000 then glWrite off v m
  else if off = 0x5000A8 ∧ bit v 31 then hostBoot {} (blockWrite a off v m)
  else blockWrite a off v m

/-- 15_startup_reset_power.md R557: internal paths are not subject to GL_LOCK. -/
def unlocked (f : Mx → Mx) (m : Mx) : Mx :=
  let c := m.gl.lockClosed
  let m := f (setGl m { m.gl with lockClosed := false })
  setGl m { m.gl with lockClosed := m.gl.lockClosed || c }

/-- R62–R66: a write arrives on the control port, or from Dome by its internal path. -/
def portWrite (a : Agent) (addr be : Nat) (v : Word) (m : Mx) : Mx :=
  if a = .dome then unlocked (regWrite .dome addr v) m else accessBe addr be true (regWrite .host addr v) m

/-! ## 64-bit pairs (00_scope.md R14) -/

/-- _LO registers, each with its _HI four bytes on. -/
def isLo (off : Nat) : Bool :=
  [0x3C, 0x80000, 0x80008, 0xC0010, 0xC0034, 0xE0030, 0x5000AC].contains off ||
  (decide (0x11000 ≤ off) && decide (off < 0x11800) && off % 0x40 == 0x1C) ||
  (decide (0x20000 ≤ off) && decide (off < 0x24200) && off % 0x40 == 0) ||
  (decide (0x28000 ≤ off) && decide (off < 0x28420) && off % 0x20 == 0) ||
  (decide (0xC1000 ≤ off) && decide (off < 0xC3000) && decide (8 ≤ off % 0x40) && decide (off % 0x40 < 0x30) && off % 8 == 0)

/-- R14: a read of a _LO register captures the pair; the next read of its _HI returns what was captured. -/
def pairRead (off : Nat) (m : Mx) : Mx :=
  if isLo off then answer { m with cp := { m.cp with loCap := tabSet m.cp.loCap off (regRead m (off + 4)) } } (regRead m off)
  else if decide (4 ≤ off) && isLo (off - 4) then
    match m.cp.loCap.find? (fun x => x.1 == off - 4) with
    | some x => answer { m with cp := { m.cp with loCap := m.cp.loCap.filter (fun y => y.1 != off - 4) } } x.2
    | none => answer m (regRead m off)
  else answer m (regRead m off)

/-- R62, 16_register_index.md R560: a read of any offset, with the effect it has where that rule gives it one. -/
def portRead (off : Nat) (m : Mx) : Mx :=
  if 0x800000 ≤ off then apRead (off - 0x800000) m
  else if off = sgOff 0x3C then tableRead m
  else if off = trOff 0x14 then profileRead m
  else if off = 0x600004 then idataRead m
  else if off = nlOff 0x20 then rec0 m
  else if off = nlOff 0x3C then rec7 m
  else if 0x11000 ≤ off ∧ off < 0x11800 ∧ off % 0x40 = 4 then claimSource ((off - 0x11000) / 0x40) m
  else pairRead off m

/-! ## Meanings -/

/-- CONTROL_PORT_WRITE (R65). -/
def execControlPortWrite (agent : Agent) (addr be : Nat) (val : Word) (s : State) : Res :=
  act s (onlyIf (decide (addr < 0x1000000)) (portWrite agent addr be val))

/-- LO_REGISTER_READ (R14), and every other control-port read, with its byte enables (R62, R66; log entry 121). -/
def execLoRegisterRead (off : CpRead) (s : State) : Res :=
  act s (onlyIf (decide (off.addr < 0x1000000)) (accessBe off.addr off.be false (portRead off.addr)))

end Sys2Proof.Machine
end

