-- ==== Sys2Proof/Machine/Dispatch.lean ====
section
/-! DEFINITION. One arm for each command: its meaning. -/

namespace Sys2Proof.Machine

def exec (i : Instr) (s : State) : Host.Outcome State Fault Refusal :=
  match i with
  | .vaonRise => Sys2Proof.Machine.execVaonRise s
  | .porstAssert => Sys2Proof.Machine.execPorstAssert s
  | .porstRelease => Sys2Proof.Machine.execPorstRelease s
  | .wrstFall env => Sys2Proof.Machine.execWrstFall env s
  | .wrstRelease => Sys2Proof.Machine.execWrstRelease s
  | .pfailFall => Sys2Proof.Machine.execPfailFall s
  | .pfailRecovery => Sys2Proof.Machine.execPfailRecovery s
  | .finalCheckpoint bad => Sys2Proof.Machine.execFinalCheckpoint bad s
  | .powerFailEnd => Sys2Proof.Machine.execPowerFailEnd s
  | .clkLoss c => Sys2Proof.Machine.execClkLoss c s
  | .mrefReturn => Sys2Proof.Machine.execMrefReturn s
  | .requestCredit port => Sys2Proof.Machine.execRequestCredit port s
  | .writeCredit port => Sys2Proof.Machine.execWriteCredit port s
  | .responseBeat port kind tag stat data last => Sys2Proof.Machine.execResponseBeat port kind tag stat data last s
  | .hostRequestTmo port tag => Sys2Proof.Machine.execHostRequestTmo port tag s
  | .drained port => Sys2Proof.Machine.execDrained port s
  | .hpDown port => Sys2Proof.Machine.execHpDown port s
  | .controlPortWrite agent addr be val => Sys2Proof.Machine.execControlPortWrite agent addr be val s
  | .fuseAck data err => Sys2Proof.Machine.execFuseAck data err s
  | .fuseTmo => Sys2Proof.Machine.execFuseTmo s
  | .i3cWrite words => Sys2Proof.Machine.execI3cWrite words s
  | .i3cRead => Sys2Proof.Machine.execI3cRead s
  | .enable agent ring => Sys2Proof.Machine.execEnable agent ring s
  | .shutdown agent ring => Sys2Proof.Machine.execShutdown agent ring s
  | .ringFreset agent ring => Sys2Proof.Machine.execRingFreset agent ring s
  | .ringFresetDone ring => Sys2Proof.Machine.execRingFresetDone ring s
  | .resume agent ring => Sys2Proof.Machine.execResume agent ring s
  | .ringConfigWrite agent ring reg val => Sys2Proof.Machine.execRingConfigWrite agent ring reg val s
  | .dbTail agent ring val => Sys2Proof.Machine.execDbTail agent ring val s
  | .dbHead agent ring val => Sys2Proof.Machine.execDbHead agent ring val s
  | .entryFetch ring => Sys2Proof.Machine.execEntryFetch ring s
  | .entryFetchDone ring => Sys2Proof.Machine.execEntryFetchDone ring s
  | .hold ring slot => Sys2Proof.Machine.execHold ring slot s
  | .release ring => Sys2Proof.Machine.execRelease ring s
  | .completionWrite ring idx => Sys2Proof.Machine.execCompletionWrite ring idx s
  | .writeOrdResponse ring idx => Sys2Proof.Machine.execWriteOrdResponse ring idx s
  | .noticeWriteResponse ring idx => Sys2Proof.Machine.execNoticeWriteResponse ring idx s
  | .noticeEnable agent grp val => Sys2Proof.Machine.execNoticeEnable agent grp val s
  | .noticeHeadWrite agent grp val => Sys2Proof.Machine.execNoticeHeadWrite agent grp val s
  | .read ring => Sys2Proof.Machine.execRead ring s
  | .program ring => Sys2Proof.Machine.execProgram ring s
  | .erase ring => Sys2Proof.Machine.execErase ring s
  | .copy ring => Sys2Proof.Machine.execCopy ring s
  | .readRaw ring => Sys2Proof.Machine.execReadRaw ring s
  | .programRaw ring => Sys2Proof.Machine.execProgramRaw ring s
  | .status ring => Sys2Proof.Machine.execStatus ring s
  | .featureSet ring => Sys2Proof.Machine.execFeatureSet ring s
  | .featureGet ring => Sys2Proof.Machine.execFeatureGet ring s
  | .resetDie ring => Sys2Proof.Machine.execResetDie ring s
  | .stripeOpen ring => Sys2Proof.Machine.execStripeOpen ring s
  | .stripeClose ring => Sys2Proof.Machine.execStripeClose ring s
  | .rebuild ring map => Sys2Proof.Machine.execRebuild ring map s
  | .call ring => Sys2Proof.Machine.execCall ring s
  | .nop ring => Sys2Proof.Machine.execNop ring s
  | .fence ring => Sys2Proof.Machine.execFence ring s
  | .scan ring => Sys2Proof.Machine.execScan ring s
  | .fill ring => Sys2Proof.Machine.execFill ring s
  | .reservationGrant cls lines => Sys2Proof.Machine.execReservationGrant cls lines s
  | .dxTransferStart eng => Sys2Proof.Machine.execDxTransferStart eng s
  | .transferDone eng => Sys2Proof.Machine.execTransferDone eng s
  | .disable eng => Sys2Proof.Machine.execDisable eng s
  | .entryPlace ring idx => Sys2Proof.Machine.execEntryPlace ring idx s
  | .workItemStart ch ctx => Sys2Proof.Machine.execWorkItemStart ch ctx s
  | .markSuspect die => Sys2Proof.Machine.execMarkSuspect die s
  | .markDead die => Sys2Proof.Machine.execMarkDead die s
  | .clearDead die => Sys2Proof.Machine.execClearDead die s
  | .dieRecovery die first second => Sys2Proof.Machine.execDieRecovery die first second s
  | .pollDue ch ctx => Sys2Proof.Machine.execPollDue ch ctx s
  | .rbRise ch => Sys2Proof.Machine.execRbRise ch s
  | .busGrant ch => Sys2Proof.Machine.execBusGrant ch s
  | .launchPrerequest ch ctx => Sys2Proof.Machine.execLaunchPrerequest ch ctx s
  | .freeze ch on => Sys2Proof.Machine.execFreeze ch on s
  | .chStarve ch ctx => Sys2Proof.Machine.execChStarve ch ctx s
  | .waitmaxClr ch => Sys2Proof.Machine.execWaitmaxClr ch s
  | .suspension ch ctx => Sys2Proof.Machine.execSuspension ch ctx s
  | .operationResume ch ctx => Sys2Proof.Machine.execOperationResume ch ctx s
  | .readAheadExpiry ch ctx => Sys2Proof.Machine.execReadAheadExpiry ch ctx s
  | .acquire agent ch ctx ring => Sys2Proof.Machine.execAcquire agent ch ctx ring s
  | .lockRelease agent ch ctx ring => Sys2Proof.Machine.execLockRelease agent ch ctx ring s
  | .lockBroken ch ctx => Sys2Proof.Machine.execLockBroken ch ctx s
  | .channelReset ch => Sys2Proof.Machine.execChannelReset ch s
  | .seq ch ctx => Sys2Proof.Machine.execSeq ch ctx s
  | .jmp ch ctx => Sys2Proof.Machine.execJmp ch ctx s
  | .br ch ctx => Sys2Proof.Machine.execBr ch ctx s
  | .microCall ch ctx => Sys2Proof.Machine.execMicroCall ch ctx s
  | .ret ch ctx => Sys2Proof.Machine.execRet ch ctx s
  | .wait ch ctx => Sys2Proof.Machine.execWait ch ctx s
  | .waitSatisfied ch ctx => Sys2Proof.Machine.execWaitSatisfied ch ctx s
  | .waitTimeout ch ctx => Sys2Proof.Machine.execWaitTimeout ch ctx s
  | .disp ch ctx => Sys2Proof.Machine.execDisp ch ctx s
  | .exit ch ctx => Sys2Proof.Machine.execExit ch ctx s
  | .busCycleDone ch ctx inp => Sys2Proof.Machine.execBusCycleDone ch ctx inp s
  | .groupReloadDone grp => Sys2Proof.Machine.execGroupReloadDone grp s
  | .controlStoreScrub grp upsets => Sys2Proof.Machine.execControlStoreScrub grp upsets s
  | .poisonRewrite grp addr => Sys2Proof.Machine.execPoisonRewrite grp addr s
  | .idata0Read => Sys2Proof.Machine.execIdata0Read s
  | .groupIdle grp => Sys2Proof.Machine.execGroupIdle grp s
  | .fervonEntry grp fails => Sys2Proof.Machine.execFervonEntry grp fails s
  | .recalibrationDone grp ok => Sys2Proof.Machine.execRecalibrationDone grp ok s
  | .gradualApplication grp centre loopFail => Sys2Proof.Machine.execGradualApplication grp centre loopFail s
  | .shortZq grp pu pd => Sys2Proof.Machine.execShortZq grp pu pd s
  | .busIdleBoundary grp ok => Sys2Proof.Machine.execBusIdleBoundary grp ok s
  | .thermalSample grp temp => Sys2Proof.Machine.execThermalSample grp temp s
  | .thermalReturn grp => Sys2Proof.Machine.execThermalReturn grp s
  | .frate grp rate => Sys2Proof.Machine.execFrate grp rate s
  | .dfeForce grp val => Sys2Proof.Machine.execDfeForce grp val s
  | .retrain grp sets => Sys2Proof.Machine.execRetrain grp sets s
  | .ephemerisWrite okA okB => Sys2Proof.Machine.execEphemerisWrite okA okB s
  | .encode grp => Sys2Proof.Machine.execEncode grp s
  | .encodeWriteBack grp lane => Sys2Proof.Machine.execEncodeWriteBack grp lane s
  | .hardDecode grp => Sys2Proof.Machine.execHardDecode grp s
  | .softDecode grp => Sys2Proof.Machine.execSoftDecode grp s
  | .decodeResult grp soft lane => Sys2Proof.Machine.execDecodeResult grp soft lane s
  | .slotSolve ring idx slot => Sys2Proof.Machine.execSlotSolve ring idx slot s
  | .laneTmo grp kind lane => Sys2Proof.Machine.execLaneTmo grp kind lane s
  | .restore grp => Sys2Proof.Machine.execRestore grp s
  | .restoreTestDone grp pass => Sys2Proof.Machine.execRestoreTestDone grp pass s
  | .learningUpdate => Sys2Proof.Machine.execLearningUpdate s
  | .sgTdataWrite val => Sys2Proof.Machine.execSgTdataWrite val s
  | .sgTdataRead => Sys2Proof.Machine.execSgTdataRead s
  | .save => Sys2Proof.Machine.execSave s
  | .savePeriod => Sys2Proof.Machine.execSavePeriod s
  | .saveEnd okFirst okSecond => Sys2Proof.Machine.execSaveEnd okFirst okSecond s
  | .clrSpec => Sys2Proof.Machine.execClrSpec s
  | .clrMoves => Sys2Proof.Machine.execClrMoves s
  | .memberPass ring idx => Sys2Proof.Machine.execMemberPass ring idx s
  | .rebuildWalkStep ring idx env => Sys2Proof.Machine.execRebuildWalkStep ring idx env s
  | .checkpointPeriod => Sys2Proof.Machine.execCheckpointPeriod s
  | .chkpt => Sys2Proof.Machine.execChkpt s
  | .checkpointCopyDone jdie ok => Sys2Proof.Machine.execCheckpointCopyDone jdie ok s
  | .load => Sys2Proof.Machine.execLoad s
  | .loadSync => Sys2Proof.Machine.execLoadSync s
  | .msyncEdge => Sys2Proof.Machine.execMsyncEdge s
  | .missedEdges => Sys2Proof.Machine.execMissedEdges s
  | .msyncOutPulse => Sys2Proof.Machine.execMsyncOutPulse s
  | .slotBoundary => Sys2Proof.Machine.execSlotBoundary s
  | .timedLaunch ch ctx => Sys2Proof.Machine.execTimedLaunch ch ctx s
  | .clrLate => Sys2Proof.Machine.execClrLate s
  | .trPdataWrite val => Sys2Proof.Machine.execTrPdataWrite val s
  | .trPdataRead => Sys2Proof.Machine.execTrPdataRead s
  | .leakDrain => Sys2Proof.Machine.execLeakDrain s
  | .clrBkt => Sys2Proof.Machine.execClrBkt s
  | .clrTrk => Sys2Proof.Machine.execClrTrk s
  | .scrubNow => Sys2Proof.Machine.execScrubNow s
  | .clrCnt => Sys2Proof.Machine.execClrCnt s
  | .scrubPass => Sys2Proof.Machine.execScrubPass s
  | .scrubLate => Sys2Proof.Machine.execScrubLate s
  | .retire bank line => Sys2Proof.Machine.execRetire bank line s
  | .apertureWrite a val => Sys2Proof.Machine.execApertureWrite a val s
  | .apertureRead a => Sys2Proof.Machine.execApertureRead a s
  | .coalescingTimer src => Sys2Proof.Machine.execCoalescingTimer src s
  | .enSet ww val => Sys2Proof.Machine.execEnSet ww val s
  | .enClr ww val => Sys2Proof.Machine.execEnClr ww val s
  | .pSet ww val => Sys2Proof.Machine.execPSet ww val s
  | .pClr ww val => Sys2Proof.Machine.execPClr ww val s
  | .claim t => Sys2Proof.Machine.execClaim t s
  | .eoi t src => Sys2Proof.Machine.execEoi t src s
  | .stkRst t => Sys2Proof.Machine.execStkRst t s
  | .tcfgWrite t val => Sys2Proof.Machine.execTcfgWrite t val s
  | .messageResponse t => Sys2Proof.Machine.execMessageResponse t s
  | .go => Sys2Proof.Machine.execGo s
  | .ident => Sys2Proof.Machine.execIdent s
  | .sensor => Sys2Proof.Machine.execSensor s
  | .doseGet => Sys2Proof.Machine.execDoseGet s
  | .doseAdd => Sys2Proof.Machine.execDoseAdd s
  | .update env => Sys2Proof.Machine.execUpdate env s
  | .restart fwRuns => Sys2Proof.Machine.execRestart fwRuns s
  | .rbkCommit => Sys2Proof.Machine.execRbkCommit s
  | .catalog failed => Sys2Proof.Machine.execCatalog failed s
  | .domeWatchdog fwRuns => Sys2Proof.Machine.execDomeWatchdog fwRuns s
  | .voltageSample mon mv => Sys2Proof.Machine.execVoltageSample mon mv s
  | .packageTemp pkg temp => Sys2Proof.Machine.execPackageTemp pkg temp s
  | .doseIntegration => Sys2Proof.Machine.execDoseIntegration s
  | .trialBootTimeout env => Sys2Proof.Machine.execTrialBootTimeout env s
  | .hostPkg pkg env => Sys2Proof.Machine.execHostPkg pkg env s
  | .nightLogRecord => Sys2Proof.Machine.execNightLogRecord s
  | .hctrlGo => Sys2Proof.Machine.execHctrlGo s
  | .rec0Read => Sys2Proof.Machine.execRec0Read s
  | .rec7Read => Sys2Proof.Machine.execRec7Read s
  | .persist => Sys2Proof.Machine.execPersist s
  | .persistPeriod => Sys2Proof.Machine.execPersistPeriod s
  | .alertPersist => Sys2Proof.Machine.execAlertPersist s
  | .segmentCopyDone ok status => Sys2Proof.Machine.execSegmentCopyDone ok status s
  | .start env => Sys2Proof.Machine.execStart env s
  | .bist => Sys2Proof.Machine.execBist s
  | .selfTestEnd env => Sys2Proof.Machine.execSelfTestEnd env s
  | .cfgwr rec okFirst okSecond => Sys2Proof.Machine.execCfgwr rec okFirst okSecond s
  | .warmReset val env => Sys2Proof.Machine.execWarmReset val env s
  | .glLockClose => Sys2Proof.Machine.execGlLockClose s
  | .p1Request autowake => Sys2Proof.Machine.execP1Request autowake s
  | .p2Request autowake => Sys2Proof.Machine.execP2Request autowake s
  | .p3Request autowake => Sys2Proof.Machine.execP3Request autowake s
  | .p0Request autowake env => Sys2Proof.Machine.execP0Request autowake env s
  | .quiescence => Sys2Proof.Machine.execQuiescence s
  | .loRegisterRead off => Sys2Proof.Machine.execLoRegisterRead off s
  | .clockReturn c => Sys2Proof.Machine.execClockReturn c s
  | .unknownOpcode ring => Sys2Proof.Machine.execUnknownOpcode ring s

end Sys2Proof.Machine
end

