-- ==== Sys2Proof/Machine/Pins.lean ====
section
/-! DEFINITION. The levels of the complex's outputs, read from its state: interrupt lines, management balls and the flash
balls (02_boundary.md R68, R69, R78, R82, R84, R92–R94; 13_interrupts.md R475, R477). No command reads them. -/

namespace Sys2Proof.Machine

/-- A line of a ball: none is high impedance. -/
abbrev Level := Option Bool

/-- R68, R69, 13_interrupts.md R475: INT_N[t], high when released. -/
def intN (m : Mx) (t : Nat) : Bool := !(m.gl.porstN && !byMsg m t && !compat m t && wanted m t)

/-- R68, R69, 13_interrupts.md R477: CINT_N[t]. -/
def cintN (m : Mx) (t : Nat) : Bool := !(m.gl.porstN && !byMsg m t && compat m t && wanted m t)

/-- R93: THERM_N, pulled low or released. -/
def thermN (m : Mx) : Level := if m.gl.porstN && m.gl.thermLow then some false else none

/-- R78, R92: MSYNC_OUT: not driven out of reset before MD_SYNC.OUTEN is set (log entry 123). -/
def msyncOutBall (m : Mx) : Level :=
  if m.gl.porstN && bit (reg m (mdOff 0x18)) 30 then some (decide (0 < m.gl.msyncOut)) else none

/-- R78, R94: I3C_SDA stays in high impedance until Dome enables the target; it then pulls the line low to announce a reply
(14_dome_nightlog.md R497). -/
def i3cSda (m : Mx) : Level := if m.gl.porstN && bit (reg m (doOff 0xB8)) 31 && m.dm.ibi then some false else none

/-- R78: TDO: no test access port is in use (02_boundary.md R95). -/
def tdo (_ : Mx) : Level := none

/-- R71: FUSE_REQ with FUSE_WR, FUSE_WORD and FUSE_WDATA. -/
def fuseReq (m : Mx) : Option (Bool × Nat × Word) := m.dm.fuse.map (fun o => (o.wr, o.word, o.data))

/-! ## Flash balls (R82, R83) -/

/-- The channel has a bus cycle in progress; no other of its dies can have one. -/
def cycling (m : Mx) (c : Nat) : Bool := (List.range 16).any (fun i => (die m (dieOf c i)).frame.cyc.isSome)

/-- CYC of the cycle in progress, 0 where there is none. -/
def cycOf (m : Mx) (c : Nat) : Nat := if m.gl.porstN && cycling m c then (chan m c).drive.cyc else 0

/-- Cnnn_CE_N of target `t`. -/
def ceN (m : Mx) (c t : Nat) : Bool := !(m.gl.porstN && (chan m c).ce.contains t)

/-- Cnnn_CLE is high in a CMD cycle, Cnnn_ALE in an ADDR cycle (06_microcode.md R241). -/
def cle (m : Mx) (c : Nat) : Bool := cycOf m c == 1
def ale (m : Mx) (c : Nat) : Bool := cycOf m c == 2

/-- A cycle that drives bytes to the die: Cnnn_WE_N moves in CMD and ADDR, and DQ carries them. -/
def drives (k : Nat) : Bool := k == 1 || k == 2 || k == 3 || k == 6

/-- Cnnn_WE_N: high but while a CMD or ADDR cycle latches a byte. -/
def weN (m : Mx) (c : Nat) : Bool := !(cle m c || ale m c)

/-- Cnnn_RE_T, with Cnnn_RE_C its complement: low while the die is asked for bytes. -/
def reT (m : Mx) (c : Nat) : Bool := !(cycOf m c == 4 || cycOf m c == 5 || cycOf m c == 7)
def reC (m : Mx) (c : Nat) : Bool := !reT m c

/-- Cnnn_DQ: the bytes that the cycle in progress drives, in order; high impedance otherwise. -/
def dq (m : Mx) (c : Nat) : Option (List Byte) := if drives (cycOf m c) then some (chan m c).drive.bytes else none

/-- Cnnn_DQS is driven with data-in and feature bytes only; high impedance otherwise. -/
def dqsDriven (m : Mx) (c : Nat) : Bool := cycOf m c == 3 || cycOf m c == 6

/-- R89: read termination in force on a channel: that of PHgg_CFG.ODT while a DOUT whose word sets ODT is in progress
(06_microcode.md R238), and off otherwise. Answers PHgg_CFG.ODT's code, 0 being off (07_phy_calibration.md R296). -/
def readOdt (m : Mx) (c : Nat) : Nat := if cycOf m c == 4 && (chan m c).drive.odt != 0 then fld (phCfg m (c / 4)) 20 18 else 0

end Sys2Proof.Machine
end

