-- ==== Sys2Proof/WellFormed.lean ====
section
/-! DEFINITION. The operands a command may carry: every number within the range the manual gives it
(00_scope.md R9, 01_architecture.md R22–R25, 16_register_index.md R559). -/

namespace Sys2Proof

/-- A ring of the complex: 256 of host firmware and 8 of Dome (03_queues.md R96). -/
def ringOk (r : Nat) : Bool := decide (r < 264)

/-- An index of a ring: at most 17 bits (03_queues.md R97). -/
def idxOk (i : Nat) : Bool := decide (i < 131072)

/-- A port of Weron (01_architecture.md R22). -/
def portOk (p : Nat) : Bool := decide (p < 4)

/-- A channel and a die context of it (00_scope.md R9). -/
def ctxOk (c k : Nat) : Bool := decide (c < 128) && decide (k < 16)

/-- A group of four channels (00_scope.md R9). -/
def grpOk (g : Nat) : Bool := decide (g < 32)

/-- A target of the interrupt controller (13_interrupts.md R465). -/
def tgtOk (t : Nat) : Bool := decide (t < 32)

/-- A clock: there is one PLL to a group (01_architecture.md R24). -/
def clockOk : Machine.Clock → Bool
  | .pll g => grpOk g
  | _ => true

/-- The dies that the complex reads for itself (00_scope.md R9). -/
def readsOk (l : List Machine.SysRead) : Bool := l.all (fun r => decide (r.die < 2048))

/-- A command whose operands the complex can be given. -/
def Instr.wf : Instr → Bool
  | .clkLoss c => clockOk c
  | .requestCredit p => portOk p
  | .writeCredit p => portOk p
  | .responseBeat p _ tag stat _ _ => portOk p && decide (tag < 1024) && decide (stat < 4)
  | .hostRequestTmo p tag => portOk p && decide (tag < 1024)
  | .drained p => portOk p
  | .hpDown p => portOk p
  | .controlPortWrite _ a be _ => decide (a < 2 ^ 24) && decide (be < 16)
  | .i3cWrite w => (match w with | .priv l => l.length == 16 | .assign a => decide (a < 128) | .reset => true)
  | .enable _ r => ringOk r
  | .shutdown _ r => ringOk r
  | .ringFreset _ r => ringOk r
  | .ringFresetDone r => ringOk r
  | .resume _ r => ringOk r
  | .ringConfigWrite _ r k _ => ringOk r && (k == 0 || k == 4 || k == 8)
  | .dbTail _ r _ => ringOk r
  | .dbHead _ r _ => ringOk r
  | .entryFetch r => ringOk r
  | .entryFetchDone r => ringOk r
  | .hold r slot => decide (r < 512) && decide (slot < 65536)
  | .release r => decide (r < 512)
  | .completionWrite r i => ringOk r && idxOk i
  | .writeOrdResponse r i => ringOk r && idxOk i
  | .noticeWriteResponse r i => ringOk r && idxOk i
  | .noticeEnable _ g _ => decide (g < 33)
  | .noticeHeadWrite _ g _ => decide (g < 33)
  | .read r => ringOk r
  | .program r => ringOk r
  | .erase r => ringOk r
  | .copy r => ringOk r
  | .readRaw r => ringOk r
  | .programRaw r => ringOk r
  | .status r => ringOk r
  | .featureSet r => ringOk r
  | .featureGet r => ringOk r
  | .resetDie r => ringOk r
  | .stripeOpen r => ringOk r
  | .stripeClose r => ringOk r
  | .rebuild r _ => ringOk r
  | .call r => ringOk r
  | .nop r => ringOk r
  | .fence r => ringOk r
  | .scan r => ringOk r
  | .fill r => ringOk r
  | .unknownOpcode r => ringOk r
  | .reservationGrant c ls => decide (c < 5) && ls.all (fun l => decide (l < 524288))
  | .dxTransferStart e => decide (e < 64)
  | .transferDone e => decide (e < 64)
  | .disable e => decide (e < 64)
  | .entryPlace r i => ringOk r && idxOk i
  | .workItemStart c k => ctxOk c k
  | .markSuspect d => decide (d < 2048)
  | .markDead d => decide (d < 2048)
  | .clearDead d => decide (d < 2048)
  | .dieRecovery d _ _ => decide (d < 2048)
  | .pollDue c k => ctxOk c k
  | .rbRise c => decide (c < 128)
  | .busGrant c => decide (c < 128)
  | .launchPrerequest c k => ctxOk c k
  | .freeze c _ => decide (c < 128)
  | .chStarve c k => ctxOk c k
  | .waitmaxClr c => decide (c < 128)
  | .suspension c k => ctxOk c k
  | .operationResume c k => ctxOk c k
  | .readAheadExpiry c k => ctxOk c k
  | .acquire _ c k r => ctxOk c k && decide (r < 512)
  | .lockRelease _ c k r => ctxOk c k && decide (r < 512)
  | .lockBroken c k => ctxOk c k
  | .channelReset c => decide (c < 128)
  | .seq c k => ctxOk c k
  | .jmp c k => ctxOk c k
  | .br c k => ctxOk c k
  | .microCall c k => ctxOk c k
  | .ret c k => ctxOk c k
  | .wait c k => ctxOk c k
  | .waitSatisfied c k => ctxOk c k
  | .waitTimeout c k => ctxOk c k
  | .disp c k => ctxOk c k
  | .exit c k => ctxOk c k
  | .busCycleDone c k _ => ctxOk c k
  | .groupReloadDone g => grpOk g
  | .controlStoreScrub g ups => grpOk g && ups.all (fun u => decide (u.1 < 8192))
  | .poisonRewrite g a => grpOk g && decide (a < 8192)
  | .groupIdle g => grpOk g
  | .fervonEntry g r => grpOk g && r.fails.all (fun d => decide (d / 64 = g) || decide (2048 ≤ d))
  | .recalibrationDone g _ => grpOk g
  | .gradualApplication g c _ => grpOk g && c.length == 272
  | .shortZq g pu pd => grpOk g && [pu, pd].all (fun z => decide (z.code < 64) && decide (z.ch < 4))
  | .busIdleBoundary g _ => grpOk g
  | .thermalSample g _ => grpOk g
  | .thermalReturn g => grpOk g
  | .frate g rate => grpOk g && decide (rate < 4)
  | .dfeForce g _ => grpOk g
  | .retrain g sets => grpOk g && sets.all (fun s => s.grp == g)
  | .encode g => grpOk g
  | .encodeWriteBack g l => grpOk g && decide (l.lane < 8)
  | .hardDecode g => grpOk g
  | .softDecode g => grpOk g
  | .decodeResult g soft l => grpOk g && decide (l.lane < if soft then 4 else 16)
  | .slotSolve r i k => ringOk r && idxOk i && decide (k < 16)
  | .laneTmo g kind l => grpOk g && decide (kind < 3) && decide (l < 16)
  | .restore g => grpOk g
  | .restoreTestDone g _ => grpOk g
  | .memberPass r i => ringOk r && idxOk i
  | .rebuildWalkStep r i _ => ringOk r && idxOk i
  | .checkpointCopyDone j _ => decide (j < 8)
  | .timedLaunch c k => ctxOk c k
  | .retire b l => decide (b < 64) && decide (l < 8192)
  | .apertureWrite a _ => decide (a < 0x800000) && a % 4 == 0
  | .apertureRead a => decide (a < 0x800000) && a % 4 == 0
  | .coalescingTimer s => decide (s < 256)
  | .enSet w _ => decide (w < 11)
  | .enClr w _ => decide (w < 11)
  | .pSet w _ => decide (w < 11)
  | .pClr w _ => decide (w < 11)
  | .claim t => tgtOk t
  | .eoi t s => tgtOk t && decide (s < 512)
  | .stkRst t => tgtOk t
  | .tcfgWrite t _ => tgtOk t
  | .messageResponse t => tgtOk t
  | .voltageSample n _ => decide (n < 16)
  | .packageTemp p _ => decide (p < 64)
  | .loRegisterRead o => decide (o.addr < 2 ^ 24) && decide (o.be < 16)
  | .clockReturn c => clockOk c
  | .vaonRise => true
  | .porstAssert => true
  | .porstRelease => true
  | .wrstFall _ => true
  | .wrstRelease => true
  | .pfailFall => true
  | .pfailRecovery => true
  | .finalCheckpoint _ => true
  | .powerFailEnd => true
  | .mrefReturn => true
  | .fuseAck _ _ => true
  | .fuseTmo => true
  | .i3cRead => true
  | .idata0Read => true
  | .ephemerisWrite _ _ => true
  | .learningUpdate => true
  | .sgTdataWrite _ => true
  | .sgTdataRead => true
  | .save => true
  | .savePeriod => true
  | .saveEnd _ _ => true
  | .clrSpec => true
  | .clrMoves => true
  | .checkpointPeriod => true
  | .chkpt => true
  | .load => true
  | .loadSync => true
  | .msyncEdge => true
  | .missedEdges => true
  | .msyncOutPulse => true
  | .slotBoundary => true
  | .clrLate => true
  | .trPdataWrite _ => true
  | .trPdataRead => true
  | .leakDrain => true
  | .clrBkt => true
  | .clrTrk => true
  | .scrubNow => true
  | .clrCnt => true
  | .scrubPass => true
  | .scrubLate => true
  | .go => true
  | .ident => true
  | .sensor => true
  | .doseGet => true
  | .doseAdd => true
  | .update _ => true
  | .restart e => readsOk e.reads
  | .rbkCommit => true
  | .catalog _ => true
  | .domeWatchdog e => readsOk e.reads
  | .doseIntegration => true
  | .trialBootTimeout e => readsOk e.reads
  | .hostPkg _ e => readsOk e.reads
  | .nightLogRecord => true
  | .hctrlGo => true
  | .rec0Read => true
  | .rec7Read => true
  | .persist => true
  | .persistPeriod => true
  | .alertPersist => true
  | .segmentCopyDone _ _ => true
  | .start e => readsOk e.reads
  | .bist => true
  | .selfTestEnd e => readsOk e.reads
  | .cfgwr _ _ _ => true
  | .warmReset _ _ => true
  | .glLockClose => true
  | .p1Request _ => true
  | .p2Request _ => true
  | .p3Request _ => true
  | .p0Request _ e => readsOk e.reads
  | .quiescence => true

end Sys2Proof
end

