-- ==== Sys2Proof/Safety.lean ====
section
/-! DEFINITION. What claims about the machine are stated with: its parts and what a command keeps of them, an access that
the control port carries out, the invariants, and what counts as a safe run. -/

namespace Sys2Proof.Machine

/-- The parts of the complex, one for each field of its state. -/
inductive Area where
  | regs | gl | cp | hp | qe | ents | dx | sb | ch | die | mc | ph | cx | sg | st | md | tr | ic | dm | nl | bt | free | wr
  deriving DecidableEq, Repr

/-- Two complexes agree on a part. -/
def Area.same : Area → Mx → Mx → Prop
  | .regs, a, b => b.regs = a.regs
  | .gl, a, b => b.gl = a.gl
  | .cp, a, b => b.cp = a.cp
  | .hp, a, b => b.hp = a.hp
  | .qe, a, b => b.qe = a.qe
  | .ents, a, b => b.ents = a.ents
  | .dx, a, b => b.dx = a.dx
  | .sb, a, b => b.sb = a.sb
  | .ch, a, b => b.ch = a.ch
  | .die, a, b => b.die = a.die
  | .mc, a, b => b.mc = a.mc
  | .ph, a, b => b.ph = a.ph
  | .cx, a, b => b.cx = a.cx
  | .sg, a, b => b.sg = a.sg
  | .st, a, b => b.st = a.st
  | .md, a, b => b.md = a.md
  | .tr, a, b => b.tr = a.tr
  | .ic, a, b => b.ic = a.ic
  | .dm, a, b => b.dm = a.dm
  | .nl, a, b => b.nl = a.nl
  | .bt, a, b => b.bt = a.bt
  | .free, a, b => b.free = a.free
  | .wr, a, b => b.wr = a.wr

/-- A state keeps the queue and every part of another but those listed. -/
def keepsBut (l : List Area) (s t : State) : Prop :=
  t.pending = s.pending ∧ ∀ p : Area, p ∉ l → p.same s.mx t.mx

/-- What an event source can move when it is raised: pending and target state, a message on a port with its tag, and
records. -/
def onRaise : List Area := [.ic, .hp, .nl, .free]

/-- The control port carries out an access of a register with every byte enable set (02_boundary.md R66, R78). -/
def carried (s : State) (off : Nat) : Prop := s.mx.gl.porstN = true ∧ accessCause s.mx off 15 = none

/-- The complex with CP_ERR low, as an access that is carried out leaves it (R66). -/
def cpOk (m : Mx) : Mx := { m with cp := { m.cp with err := false } }

/-- A register write by firmware is carried out: Dome's by its internal path, or host firmware's through the control port
where the register is not Dome's (03_queues.md R110). -/
def writes (a : Agent) (mine : Bool) (s : State) (off : Nat) : Prop := a = .dome ∨ (mine = false ∧ carried s off)

/-- A port that keeps every request made of it waiting: in service, with no credit and nothing owed (02_boundary.md R44). -/
def parked (m : Mx) (p : Nat) : Prop :=
  (port m p).reqCr = 0 ∧ (port m p).waiting = [] ∧ (port m p).owed = [] ∧ (port m p).down = false

/-- No fetch of a host package, and no read of a configuration record, waits for an answer: an answer's port then touches nothing
else (14_dome_nightlog.md R512, 15_startup_reset_power.md R541). -/
def noFetch (m : Mx) : Prop := m.gl.cfgAcc = none ∧ m.dm.hostEnv = none

/-- The slot write of an UPDATE in progress: whether to slot B, and the package (14_dome_nightlog.md R510). -/
def slotWrite (m : Mx) : Option (Bool × List Byte) :=
  match m.dm.upd with
  | some (.writing b p) => some (b, p)
  | _ => none

/-- The ring and OPC of a command that dispatches an opcode (04_commands.md R147). -/
def opcodeOf : Instr → Option (Nat × Nat)
  | .read r => some (r, 0x01)
  | .program r => some (r, 0x02)
  | .erase r => some (r, 0x03)
  | .copy r => some (r, 0x04)
  | .readRaw r => some (r, 0x05)
  | .programRaw r => some (r, 0x06)
  | .status r => some (r, 0x08)
  | .featureSet r => some (r, 0x09)
  | .featureGet r => some (r, 0x0A)
  | .resetDie r => some (r, 0x0B)
  | .stripeOpen r => some (r, 0x10)
  | .stripeClose r => some (r, 0x11)
  | .rebuild r _ => some (r, 0x12)
  | .call r => some (r, 0x18)
  | .nop r => some (r, 0x19)
  | .fence r => some (r, 0x1A)
  | .scan r => some (r, 0x20)
  | .fill r => some (r, 0x28)
  | _ => none

/-- An entry is at its turn for dispatch (01_architecture.md R30; 03_queues.md R120, R176). -/
def atTurn (m : Mx) (r i : Nat) (e : Ent) : Prop := r < 264 ∧ turn m r = some i ∧ ent m (eidOf r i) = some e

/-- An entry as its outcome is recorded (03_queues.md R130). -/
def concluded (m : Mx) (e : Ent) (status detail : Nat) : Ent :=
  { e with stage := .final, status := status, detail := detail, partF := false, tdone := m.md.time }

/-- A flash PHY with no tenure, recalibration, RETRAIN or delayed write in progress (07_phy_calibration.md R284, R288, R296). -/
def phyFree (m : Mx) (g : Nat) : Prop :=
  g < 32 ∧ quiet m g = true ∧ (phy m g).recal = [] ∧ (phy m g).retrain = none ∧ (phy m g).later = false

/-- Dome serves one command of the mailbox's, with nothing of an earlier one in progress (14_dome_nightlog.md R493, R510, R514). -/
def mbReady (m : Mx) (c : MbCmd) : Prop :=
  m.dm.cmds = [c] ∧ c.i3c = false ∧ domeRuns m = true ∧ m.dm.fuse = none ∧ m.dm.updOwed = none

/-- Transit with nothing held and nothing asked, once Meridian stands at `time`: a slot whose boundary Meridian has come to is the
current one. -/
def trAt (m : Mx) (time : Nat) : Tr :=
  if time / 1000 ≤ m.tr.slot then m.tr
  else { m.tr with slot := time / 1000, lim := latchBudgets m, excess := 0 }

/-- The MREF periods for which MSYNC_OUT stays driven, `left` of them being left where no pulse begins as Meridian goes from one
time to another. -/
def pulseLeft (m : Mx) (left t0 t1 : Nat) : Nat :=
  if bit (syncCfg m) 30 = true ∧ expectedNo m t0 < expectedNo m t1 then 4 else left

/-- Meridian runs at the rate of MREF, and the current slot is its slot (R411, R412, R422). -/
def steady (m : Mx) : Prop :=
  m.md.freq = 0 ∧ m.md.slew = 0 ∧ m.md.slewLeft = 0 ∧ m.md.frac < 2 ^ 32 ∧ m.md.loadDue = false ∧ bit (syncCfg m) 30 = false ∧
  m.tr.slot = m.md.time / 1000

/-- The word at a frame's program counter (06_microcode.md R236). -/
def wordOf (m : Mx) (d : Nat) : Microword := wordAt m (dieGrp d) (die m d).frame.pc

/-- It is a frame's turn in its thread (R236), it stands in no WAIT, and its next word is a good one of a next-address form (R239). -/
def runsForm (m : Mx) (d nxt : Nat) : Prop :=
  hasTurn m d = true ∧ (die m d).frame.waiting = false ∧ fetchFault m d = none ∧ mwNxt (wordOf m d) = nxt

/-- A frame runs its next word, one with no bus cycle and no gate action. -/
def runsWord (m : Mx) (d nxt : Nat) : Prop := runsForm m d nxt ∧ mwCyc (wordOf m d) = 0 ∧ mwGate (wordOf m d) = 0

/-- A frame's bus cycle of a kind is in progress, in a word with no gate action that goes on to the next (R241). -/
def inCycle (m : Mx) (d cyc : Nat) (y : Cyc) : Prop :=
  (die m d).frame.cyc = some y ∧ (die m d).frame.active = true ∧ (cluster m (dieGrp d)).halted = false ∧
  (die m d).frame.cut = none ∧ mwCyc (wordOf m d) = cyc ∧ mwNxt (wordOf m d) = 0 ∧
  mwGate (wordOf m d) = 0

/-- The frame after the ALU action of its word, at the time the word was reached (R242, R248). -/
def afterAlu (m : Mx) (d : Nat) : Frame := { aluStep m d (die m d).frame (wordOf m d) with waitAt := m.md.time }

/-- The word's condition C, judged after its ALU action (R239). -/
def wordCond (m : Mx) (d : Nat) : Bool := condC m d (afterAlu m d) (wordOf m d)

/-- Dome boots in a start: its configuration is applied, and a package of a slot runs (15_startup_reset_power.md R536). -/
def domeBoots (e : StartEnv) (m : Mx) : Bool := (romStart e m).dm.boot == 1

/-- A read of a reservation changes nothing: every byte is clean and of a written line (12_stage_buffer.md R445). -/
def readsClean (m : Mx) (o : ROwner) (prt off n : Nat) (l : List Byte) : Prop := resvRead m o prt off n = (l, false, m)

/-- The data-space byte that holds byte `k` of an owner's reservation (12_stage_buffer.md R448). -/
def resvByte (m : Mx) (o : ROwner) (k : Nat) : Option Nat := (resvLines m o)[k / 128]?.map (fun l => 128 * l + k % 128)

/-- Every byte of the stage buffer outside `n` bytes of a reservation reads as before. -/
def sbElsewhere (s t : State) (o : ROwner) (off n : Nat) : Prop :=
  ∀ a, (∀ k, off ≤ k → k < off + n → resvByte s.mx o k ≠ some a) → memGet t.mx.sb.data a = memGet s.mx.sb.data a

/-- Bytes XORed over a list of positions (10_stripes.md R371). -/
def xorAll (f : Nat → List Byte) (l : List Nat) : List Byte := l.foldl (fun a p => xorBytes a (f p)) (List.replicate 4128 0)

/-- The canonical form of the stage buffer's bytes and check bits. -/
def sbWf (m : Mx) : Prop := Memory.wf m.sb.data = true ∧ Memory.wf m.sb.chk = true

/-- Priorities of a target's stack rise strictly towards its top (13_interrupts.md R471, R472). -/
def stackRises : List (Nat × Nat) → Prop
  | [] => True
  | [(_, p)] => p < 16
  | (_, p) :: (x, q) :: l => p < 16 ∧ q < p ∧ stackRises ((x, q) :: l)

/-- Every target's stack rises. -/
def stacksRise (m : Mx) : Prop := ∀ t, stackRises (target m t).stack

/-- The claim of a source is the one that R472 takes: the highest priority, the higher number winning a tie. -/
def claimTaken (m : Mx) (t x : Nat) : Prop :=
  x ∈ m.ic.pend ∧ claimable m t x = true ∧ ∀ y ∈ m.ic.pend, claimable m t y = true →
    srcPri m y < srcPri m x ∨ (srcPri m y = srcPri m x ∧ y ≤ x)

/-- A command answers a next state: no command stops the machine. -/
def answers (c : Instr) (s : State) : Prop := ∃ t, exec c s = .next t

/-- A safe run: every command that waits is well formed. -/
def queueWf (s : State) : Prop := ∀ c ∈ s.pending, c.wf = true

end Sys2Proof.Machine
end

