-- ==== Sys2Proof/Certificates/Slice0/Obligations.lean ====
section
/-! DEFINITION. The statements about the model that the provers are given, each a rule of the manual or a property of the
whole machine. -/

open Sys2Proof Sys2Proof.Machine

/-! ## The machine as a whole -/

/-- The step of a block (log entry 8): the command at the front of the queue acts on the complex with the rest of the
queue. -/
def Obligations.StepRunsFrontCommand : Prop :=
  ∀ (m : Mx) (c : Instr) (cs : List Instr), step { mx := m, pending := c :: cs } = exec c { mx := m, pending := cs }

/-- 11_meridian_transit.md R411, R412, R418, R420 and R422, on the step the model takes when no command waits (log entry
8): one edge of MREF adds 10 ns where FREQ and SLEW are 0, and adds nothing while MREF is lost. An edge that brings
Meridian to a slot's boundary has it taken, and a pulse on MSYNC_OUT, which begins where Meridian first reaches an
expected time with OUTEN set, lasts four edges. -/
def Obligations.IdleStepIsOneMrefEdge : Prop :=
  (∀ m : Mx, m.md.hold = true → step { mx := m, pending := [] } = .next { mx := m, pending := [] }) ∧
  (∀ m : Mx, m.md.hold = false → m.md.loadDue = false → m.md.freq = 0 → m.md.slew = 0 → m.md.slewLeft = 0 →
    m.md.frac < 2 ^ 32 → m.gl.msyncOut = 0 → bit (syncCfg m) 30 = false → (m.md.time + 10) / 1000 ≤ m.tr.slot →
    step { mx := m, pending := [] } = .next { mx := { m with md := { m.md with time := m.md.time + 10 } }, pending := [] }) ∧
  (∀ m : Mx, m.md.hold = false → m.md.loadDue = false → m.md.freq = 0 → m.md.slew = 0 → m.md.slewLeft = 0 →
    m.md.frac < 2 ^ 32 →
    ∃ t, step { mx := m, pending := [] } = .next t ∧ t.mx.md = { m.md with time := m.md.time + 10 } ∧
      t.mx.tr.slot = max m.tr.slot ((m.md.time + 10) / 1000) ∧
      (bit (syncCfg m) 30 = true → expectedNo m m.md.time < expectedNo m (m.md.time + 10) → t.mx.gl.msyncOut = 4) ∧
      (bit (syncCfg m) 30 = false → t.mx.gl.msyncOut = m.gl.msyncOut - 1))

/-- No command stops the machine, and none touches the commands that wait behind it. -/
def Obligations.EveryCommandAnswersANextState : Prop :=
  ∀ (c : Instr) (s : State), ∃ m, exec c s = .next { s with mx := m }

/-- 15_startup_reset_power.md R534, R557; 03_queues.md R103, R107; 02_boundary.md R45; 13_interrupts.md R489: what reset
leaves. The bytes and check bits of the stage buffer are in canonical form after reset. -/
def Obligations.ResetState : Prop :=
  (State.reset.pending = [] ∧ State.reset.mx.gl.phase = .waitStart ∧ State.reset.mx.gl.pstate = 0 ∧
  State.reset.mx.gl.cperr = 0 ∧ State.reset.mx.md.time = 0 ∧ State.reset.mx.ic.pend = [] ∧ State.reset.mx.ic.en = [] ∧
  (∀ r, ring State.reset.mx r = {}) ∧ (∀ p, port State.reset.mx p = {}) ∧ (∀ e, ent State.reset.mx e = none) ∧
  (∀ a, memGet State.reset.mx.sb.data a = 0) ∧ (∀ off, reg State.reset.mx off = regReset off)) ∧
  (sbWf State.reset.mx)

/-- Every step keeps the stage buffer's bytes and check bits in canonical form, so that equal contents are equal states
(12_stage_buffer.md R440, R444). -/
def Obligations.StepKeepsMemoryCanonical : Prop :=
  ∀ s t : State, sbWf s.mx → step s = .next t → sbWf t.mx

/-- A queue of well-formed commands stays one: a step takes the front command and adds none. -/
def Obligations.StepKeepsQueueWellFormed : Prop :=
  ∀ s t : State, queueWf s → step s = .next t → queueWf t ∧ t.pending = s.pending.tail

/-! ## Resets, pins and clocks -/

/-- 02_boundary.md R78; 11_meridian_transit.md R411; 15_startup_reset_power.md R534, R555: VAON rises, and PORST_N rises;
while PORST_N is low the fuse, interrupt, management and flash outputs stand at their levels of 02_boundary.md R78.
15_startup_reset_power.md R542, R544; 14_dome_nightlog.md R533; 02_boundary.md R73, R78: PORST_N falls: the core is
lost, and what the island and VAON hold stays: DO_STAT, NL_STAT and NL_FIRST read as before. -/
def Obligations.PowerUpAndColdReset : Prop :=
  (∀ s : State, ∃ t, exec .vaonRise s = .next t ∧ t.pending = s.pending ∧ t.mx.md = {} ∧ t.mx.gl.porstN = false ∧
    t.mx.gl.island = none ∧ t.mx.nl = {} ∧ t.mx.dm.dose = 0 ∧ (∀ off, reg t.mx off = regReset off)) ∧
  (∀ s : State, s.mx.gl.porstN = false → exec .porstRelease s =
    .next { s with mx := { s.mx with gl := { s.mx.gl with porstN := true, phase := .waitStart,
                                                          pf := if s.mx.gl.pfailN then .none else .held } } }) ∧
  (∀ s : State, ∃ t, exec .porstAssert s = .next t ∧ fuseReq t.mx = none ∧ wpN t.mx = false ∧ thermN t.mx = none ∧
    msyncOutBall t.mx = none ∧ i3cSda t.mx = none ∧ tdo t.mx = none ∧ (∀ k, intN t.mx k = true ∧ cintN t.mx k = true) ∧
    (∀ c, (∀ k, ceN t.mx c k = true) ∧ weN t.mx c = true ∧ reT t.mx c = true ∧ reC t.mx c = false ∧ ale t.mx c = false ∧
      cle t.mx c = false ∧ dq t.mx c = none ∧ dqsDriven t.mx c = false)) ∧
  (∀ s : State, ∃ t, exec .porstAssert s = .next t ∧ t.pending = s.pending ∧
    t.mx.gl.porstN = false ∧ t.mx.gl.phase = .waitStart ∧ t.mx.gl.island = s.mx.gl.island ∧
    t.mx.md = s.mx.md ∧ t.mx.qe = {} ∧ t.mx.ents = [] ∧ t.mx.hp = [] ∧ t.mx.die = [] ∧ t.mx.ch = [] ∧ t.mx.ic = {} ∧
    t.mx.sb = {} ∧ t.mx.dm.dose = s.mx.dm.dose ∧ t.mx.st.plates = s.mx.st.plates ∧ doRead t.mx 0x88 = doRead s.mx 0x88 ∧
    nlRead t.mx 4 = nlRead s.mx 4 ∧ nlRead t.mx 8 = nlRead s.mx 8 ∧
    (∀ off, islandReg off = true → reg t.mx off = reg s.mx off) ∧
    (∀ off, islandReg off = false → reg t.mx off = regReset off))

/-- 15_startup_reset_power.md R542 steps 1 to 3, R555, R557: a warm reset begins, by WRST_N or by GL_RESET, in P1 and P2
too: fetching stops, the complex is in P0 and every port drains; nothing else has changed yet. WRST_N falling before
READY, within a power failure or in P3 begins none. 15_startup_reset_power.md R542 steps 4 to 7, R544; 03_queues.md
R125: the last port is DRAINED while WRST_N is low, and the complex is cleared as the survival table has it: entries,
transfers, reservations, requests and pending sources go, rings are DISABLED, dies keep their states, every thread has
its GRP_INIT to run, and a SUSPECT die its recovery. A slot write of an UPDATE and a configuration write are cut
(15_startup_reset_power.md R543). 15_startup_reset_power.md R557: a write of GL_RESET without its key, or outside
READY, leaves only a record. 15_startup_reset_power.md R542 steps 7 to 11: WRST_N rises over a cleared complex: cached
sets are in use, the dose is delivered, the stripes come from their Plates, and it is READY again with Dome's rings
running. A rise at any other time moves the pin alone. -/
def Obligations.WarmReset : Prop :=
  (∀ (s : State) (env : WarmEnv) (q : Nat), s.mx.gl.porstN = true → s.mx.gl.phase = .ready → s.mx.gl.pstate ≠ 3 →
    s.mx.gl.pf = .none → q < 4 → (port s.mx q).down = false →
    ∃ t, exec (.wrstFall env) s = .next t ∧ t.mx.gl = { s.mx.gl with
        wrstN := false, warmEnv := env, phase := .warm, warm := some .draining, warmOwed := false, warmByReg := false,
        pstate := 0, req := 0, waitQuiet := false } ∧
      (∀ p, port t.mx p = { port s.mx p with drain := decide (p < 4) || (port s.mx p).drain }) ∧ keepsBut [.gl, .hp] s t) ∧
  (∀ (s : State) (env : WarmEnv), s.mx.gl.porstN = true → (s.mx.gl.phase ≠ .ready ∨ s.mx.gl.pf ≠ .none) → s.mx.gl.phase ≠ .warm →
    s.mx.gl.pstate ≠ 3 → exec (.wrstFall env) s =
      .next { s with mx := { s.mx with gl := { s.mx.gl with wrstN := false, warmEnv := env, warmOwed := true } } }) ∧
  (∀ (s : State) (env : WarmEnv), s.mx.gl.porstN = true → s.mx.gl.phase ≠ .warm → s.mx.gl.pstate = 3 →
    ∃ t, exec (.wrstFall env) s = .next t ∧ t.mx.gl = { s.mx.gl with wrstN := false } ∧ keepsBut [.gl, .nl] s t) ∧
  (∀ (s : State) (env : WarmEnv), (s.mx.gl.porstN = false ∨ s.mx.gl.phase = .warm) → exec (.wrstFall env) s =
      .next { s with mx := { s.mx with gl := { s.mx.gl with wrstN := false } } }) ∧
  (∀ (s : State) (val : Word) (env : WarmEnv) (q : Nat), carried s 0xC → fld val 31 24 = 0xA5 → fld val 1 0 = 2 →
    s.mx.gl.phase = .ready → s.mx.gl.pf = .none → q < 4 → (port s.mx q).down = false →
    ∃ t, exec (.warmReset val env) s = .next t ∧ t.mx.gl = { s.mx.gl with
        warmEnv := env, phase := .warm, warm := some .draining, warmOwed := false, warmByReg := false,
        pstate := 0, req := 0, waitQuiet := false } ∧ t.mx.cp = { s.mx.cp with err := false } ∧
      (∀ p, port t.mx p = { port s.mx p with drain := decide (p < 4) || (port s.mx p).drain }) ∧ keepsBut [.gl, .hp, .cp] s t) ∧
  (∀ (s : State) (val : Word) (env : WarmEnv), carried s 0xC → fld val 31 24 = 0xA5 → fld val 1 0 = 2 →
    s.mx.gl.phase = .ready → s.mx.gl.pf ≠ .none → exec (.warmReset val env) s =
      .next { s with mx := { cpOk s.mx with gl := { s.mx.gl with warmEnv := env, warmOwed := true, warmByReg := true } } }) ∧
  (∀ (s : State) (p : Nat), p < 4 → s.mx.gl.pf = .none → s.mx.gl.warm = some .draining → s.mx.gl.wrstN = false →
    (port s.mx p).drain = true → (port s.mx p).out = [] → s.mx.gl.warmEnv.unready = [] → s.mx.gl.warmEnv.tests = [] →
    noFetch s.mx → (∀ q, q < 4 → q ≠ p → (port s.mx q).drain = false ∨ (port s.mx q).down = true) →
    ∃ t, exec (.drained p) s = .next t ∧ t.mx.gl.warm = some .waitRelease ∧ t.mx.gl.phase = s.mx.gl.phase ∧
      (sysW s.mx 11 = none →
        t.mx.gl = { s.mx.gl with warm := some .waitRelease, warms := satInc s.mx.gl.warms 0xFF }) ∧
      (sysW s.mx 11 ≠ none → t.mx.gl.wrBusy = false ∧ t.mx.gl.wrFail = true) ∧
      (s.mx.dm.upd = none → s.mx.dm.acc = none → t.mx.dm = s.mx.dm) ∧
      (∀ w, slotWrite s.mx = some w → t.mx.dm = { s.mx.dm with upd := some (.cut (pkgSeq w.2) 0x200) }) ∧
      (port t.mx p).drain = false ∧ (port t.mx p).reqCr = 0 ∧ t.mx.ents = [] ∧ t.mx.dx = { ids := s.mx.dx.ids } ∧ t.mx.qe.ntcs = [] ∧
      (∀ r, ring t.mx r = { err := (ring s.mx r).err, errIdx := (ring s.mx r).errIdx }) ∧
      (∀ d, die t.mx d = { state := (die s.mx d).state, absent := (die s.mx d).absent, mode := (die s.mx d).mode,
                           ident := (die s.mx d).ident, cap := (die s.mx d).cap, offers := (die s.mx d).offers,
                           ahead := (if d < 2048 ∧ dieCtx d = 0 then [.grpInit] else []) ++
                                    (if (die s.mx d).state = 1 then [.recover] else []) }) ∧
      t.mx.sb = { s.mx.sb with resv := [], wait := [], failed := [], count := 0, alarm := false } ∧ t.mx.tr.reqs = [] ∧ t.mx.tr.holds = [] ∧
      t.mx.ic.en = s.mx.ic.en ∧ (∀ x ∈ t.mx.ic.pend, x = 284 ∨ x = 286 ∨ x = 269) ∧ t.mx.st.ckpt = none ∧ t.mx.st.jobs = [] ∧
      t.mx.st.walk = [] ∧ t.mx.nl.seg = none ∧ (∀ x ∈ t.mx.st.stripes, x.2.state = 1 ∨ x.2.state = 2) ∧
      t.mx.st.plates = s.mx.st.plates ∧ keepsBut [.gl, .hp, .ents, .dx, .qe, .ch, .die, .sb, .cx, .sg, .ph, .tr, .ic, .st, .dm, .nl, .wr, .free] s t) ∧
  (∀ (s : State) (val : Word) (env : WarmEnv), carried s 0xC →
    (fld val 31 24 ≠ 0xA5 ∨ fld val 1 0 ≠ 2 ∨ s.mx.gl.phase ≠ .ready) →
    ∃ t, exec (.warmReset val env) s = .next t ∧ keepsBut [.cp, .nl] s t) ∧
  (∀ s : State, s.mx.gl.pf = .none → s.mx.gl.warm = some .waitRelease →
    ∃ t, exec .wrstRelease s = .next t ∧
      t.mx.gl = { s.mx.gl with wrstN := true, phase := .ready, warm := none } ∧
      (∀ g, g < 32 → (phy t.mx g).hold = false ∧ (phy t.mx g).recal = []) ∧ t.mx.sg.dose = s.mx.dm.dose ∧
      (∀ r, 256 ≤ r → r ≤ 258 → s.mx.dm.boot = 1 → (ring s.mx r).state = .disabled → 4 ≤ ringSize s.mx r →
        ringSize s.mx r ≤ 16 → (ring t.mx r).state = .active) ∧
      (∀ r, r < 256 → ring t.mx r = ring s.mx r) ∧
      (∀ k, stripe t.mx k ≠ {} → (∃ x ∈ s.mx.st.plates, x.1 = k ∧ (stripe t.mx k).row = x.2.row ∧
        (stripe t.mx k).restored = true ∧ (stripe t.mx k).state = 1) ∨ (stripe t.mx k).state = 3) ∧
      287 ∈ t.mx.ic.pend ∧ keepsBut [.gl, .ph, .ch, .die, .qe, .sg, .st, .ic, .hp, .nl, .free] s t) ∧
  (∀ s : State, (s.mx.gl.warm = none ∨ s.mx.gl.pf ≠ .none) → exec .wrstRelease s =
    .next { s with mx := { s.mx with gl := { s.mx.gl with wrstN := true } } })

/-- 02_boundary.md R59, R60: a drain that is confirmed frees every tag and zeroes both counts, and its requests have
failed; one that is not confirmed takes the port out of service with HP_DOWN, and what it owed or had waiting has
failed. That the beats still owed are dropped is the model's choice (log entry 117). -/
def Obligations.PortDrainEnds : Prop :=
  (∀ (s : State) (p : Nat), p < 4 → (port s.mx p).drain = true → (port s.mx p).out = [] → s.mx.gl.warm = none → noFetch s.mx →
    ∃ t, exec (.drained p) s = .next t ∧ keepsBut [.hp] s t ∧ (∀ q, q ≠ p → port t.mx q = port s.mx q) ∧ port t.mx p =
      { port s.mx p with retired := [], reqCr := 0, wrCr := 0, owed := [], drain := false, down := false }) ∧
  (∀ (s : State) (p : Nat) (o : Out) (r : Nat), p < 4 → (port s.mx p).drain = true → (port s.mx p).out = [o] →
    o.req.why = .fetch r → s.mx.gl.warm = none → noFetch s.mx →
    ∃ t, exec (.drained p) s = .next t ∧ ring t.mx r = { ring s.mx r with ans := some (some .drained, []) } ∧
      (∀ q, q ≠ r → ring t.mx q = ring s.mx q) ∧ keepsBut [.hp, .qe, .nl] s t ∧ (∀ q, q ≠ p → port t.mx q = port s.mx q) ∧
      port t.mx p = { port s.mx p with out := [], retired := [], reqCr := 0, wrCr := 0, owed := [], drain := false, down := false }) ∧
  (∀ (s : State) (p : Nat), p < 4 → (port s.mx p).drain = true → (port s.mx p).down = false → (port s.mx p).out = [] →
    (port s.mx p).waiting = [] → s.mx.gl.warm = none → noFetch s.mx →
    ∃ t, exec (.hpDown p) s = .next t ∧ 268 ∈ t.mx.ic.pend ∧ (port t.mx p).down = true ∧ (port t.mx p).owed = [] ∧
      keepsBut onRaise s t) ∧
  (∀ (s : State) (p : Nat) (q : Req) (r : Nat), p < 4 → (port s.mx p).drain = true → (port s.mx p).down = false →
    (port s.mx p).out = [] → (port s.mx p).waiting = [q] → q.why = .fetch r → s.mx.gl.warm = none → noFetch s.mx →
    ∃ t, exec (.hpDown p) s = .next t ∧ 268 ∈ t.mx.ic.pend ∧ (port t.mx p).down = true ∧ (port t.mx p).waiting = [] ∧
      ring t.mx r = { ring s.mx r with ans := some (some .outOfService, []) } ∧ keepsBut (.qe :: onRaise) s t)

/-- 02_boundary.md R74, R75; 15_startup_reset_power.md R550, R555; 11_meridian_transit.md R435; 10_stripes.md R402, R403:
PFAIL_N low in service starts the sequence and raises GL_PFAIL: only anchored array operations stay admitted, erases
are set aside, and suspended where the die offers it, checkpoint, segment, Seeing save, Ephemeris and configuration
write and an UPDATE's slot write are given up, a checkpoint's abandoned copies with JFAIL and ST_JRNL, and the Plate
records settled. Its end, once the FINAL checkpoint is taken, stops launches and raises GL_PFAIL again; PFAIL_N high
for 100 µs lets launches and erases go on. 10_stripes.md R400, R401, R403: the FINAL checkpoint is taken while the
sequence runs, once, when no program or sense runs on a die: it takes the records as they stand, and its copies A,
whose JFLAGS name it FINAL, go to their journal dies, but for a die that skips its copy. Where no journal die holds a
record it is whole at once. -/
def Obligations.PowerFailSequence : Prop :=
  (∀ s : State, s.mx.gl.porstN = true → s.mx.gl.pf = .none → s.mx.gl.pstate ≠ 3 →
    ∃ t, exec .pfailFall s = .next t ∧ t.mx.gl.pfailN = false ∧ t.mx.gl.pf = .running ∧ 300 ∈ t.mx.ic.pend ∧
      (sysW s.mx 11 = none → t.mx.gl = { s.mx.gl with pfailN := false, pf := .running }) ∧
      (sysW s.mx 11 ≠ none → t.mx.gl.wrBusy = false ∧ t.mx.gl.wrFail = true) ∧
      (∀ w, slotWrite s.mx = some w → ∃ x, t.mx.dm = { s.mx.dm with upd := some (.cut (pkgSeq w.2) x) }) ∧
      (slotWrite s.mx = none → t.mx.dm = s.mx.dm) ∧
      (∀ k, s.mx.st.ckpt = some k → k.todo ≠ [] → t.mx.st.jfail = true ∧ 286 ∈ t.mx.ic.pend) ∧
      (∀ h ∈ t.mx.tr.holds, h ∈ s.mx.tr.holds ∧ h.anchor ≠ none) ∧
      (∀ d b, (die s.mx d).busy = some b → b.op = .erase → (die s.mx d).cur ≠ none → (die t.mx d).pfErase = true ∧
        ((die s.mx d).offers.2 = true → (die t.mx d).held ≠ none)) ∧
      (∀ d b, (die s.mx d).busy = some b → b.op ≠ .erase → (die t.mx d).busy = some b) ∧
      t.mx.st.ckpt = none ∧ t.mx.nl.seg = none ∧ ((sysW s.mx 9).isSome → t.mx.sg.saving = none) ∧
      (∀ x ∈ t.mx.st.plates, x.2.pfail = true) ∧ t.mx.st.plates.map (·.1) = s.mx.st.plates.map (·.1) ∧
      t.mx.sb.data = s.mx.sb.data ∧
      keepsBut (.gl :: .tr :: .ents :: .sb :: .ch :: .die :: .cx :: .sg :: .st :: .ph :: .dm :: .wr :: onRaise) s t) ∧
  (∀ s : State, (s.mx.gl.porstN = false ∨ s.mx.gl.pf ≠ .none ∨ s.mx.gl.pstate = 3) → exec .pfailFall s =
    .next { s with mx := { s.mx with gl := { s.mx.gl with pfailN := false } } }) ∧
  (∀ s : State, s.mx.gl.pf = .running → finalTaken s.mx = true →
    ∃ t, exec .powerFailEnd s = .next t ∧ t.mx.gl.pf = .stopped ∧ 300 ∈ t.mx.ic.pend ∧
      (s.mx.gl.warmOwed = false → t.mx.gl = { s.mx.gl with pf := .stopped }) ∧ keepsBut (.gl :: onRaise) s t) ∧
  (∀ s : State, (s.mx.gl.pf ≠ .running ∨ finalTaken s.mx = false) → exec .powerFailEnd s = .next s) ∧
  (∀ s : State, s.mx.gl.pf = .stopped → s.mx.gl.startOwed = none → s.mx.gl.warmOwed = false → s.mx.gl.warm = none →
    ∃ t, exec .pfailRecovery s = .next t ∧ t.mx.gl = { s.mx.gl with pfailN := true, pf := .none } ∧
      (∀ x ∈ t.mx.die, x.2.pfErase = false) ∧
      (∀ d, (die s.mx d).pfErase = true → die t.mx d = { die s.mx d with
        pfErase := false, busy := (die s.mx d).busy.map (fun b => { b with next := max b.next s.mx.md.time }) }) ∧
      (∀ d, (die s.mx d).pfErase = false → die t.mx d = die s.mx d) ∧ keepsBut [.gl, .nl, .die] s t) ∧
  (∀ s : State, s.mx.gl.pf = .running ∨ s.mx.gl.pf = .none → exec .pfailRecovery s =
    .next { s with mx := { s.mx with gl := { s.mx.gl with pfailN := true } } }) ∧
  (∀ (s : State) (b : Told), s.mx.gl.pf = .running → s.mx.gl.warm = none → workDone s.mx = true → jen s.mx = true →
    s.mx.st.finalAsked = false → jDies s.mx false = [] → jDies s.mx true = [] →
    ∃ t, exec (.finalCheckpoint b) s = .next t ∧ t.mx.st = { s.mx.st with
        jnext := s.mx.st.jnext + 1, jseq := s.mx.st.jnext + 1, ckpt := none, jfail := false, changed := false, finalAsked := true,
        ckptAt := s.mx.md.time } ∧ keepsBut [.st] s t) ∧
  (∀ (s : State) (b : Told) (j : Nat), s.mx.gl.pf = .running → s.mx.gl.warm = none → workDone s.mx = true → jen s.mx = true →
    s.mx.st.finalAsked = false → j ∈ jDies s.mx false → skipsFinal s.mx j = false → j ∉ s.mx.st.jerase →
    ∃ t k l, exec (.finalCheckpoint b) s = .next t ∧ t.mx.st.jnext = s.mx.st.jnext + 1 ∧ t.mx.st.finalAsked = true ∧
      t.mx.st.changed = false ∧ t.mx.st.jseq = s.mx.st.jseq ∧ t.mx.st.jfail = s.mx.st.jfail ∧
      t.mx.st.plates = s.mx.st.plates ∧ t.mx.st.stripes = s.mx.st.stripes ∧
      t.mx.st.ckpt = some k ∧ k.final = true ∧ j ∈ k.todo ∧ k.seq = s.mx.st.jnext + 1 ∧
      sysW t.mx j = some { die := jdieOf s.mx j, ops := [(jRow s.mx j + tabGet 0 s.mx.st.jpage j, .bytes l)] } ∧
      (leAt l 7 1).testBit 1 = true ∧ leAt l 8 8 = s.mx.st.jnext + 1 ∧ keepsBut [.st, .wr, .ents, .die, .sb] s t) ∧
  (∀ (s : State) (b : Told), (s.mx.gl.pf ≠ .running ∨ workDone s.mx = false ∨ s.mx.st.finalAsked = true) →
    exec (.finalCheckpoint b) s = .next s)

/-- 01_architecture.md R25; 11_meridian_transit.md R420: a monitored clock is lost, and returns. -/
def Obligations.ClockLossAndReturn : Prop :=
  (∀ s : State, Clock.mref ∉ s.mx.gl.lost →
    ∃ t, exec (.clkLoss .mref) s = .next t ∧ t.mx.md.hold = true ∧ t.mx.md.time = s.mx.md.time ∧
      t.mx.gl.lost = s.mx.gl.lost ++ [.mref] ∧ 266 ∈ t.mx.ic.pend ∧ keepsBut (.gl :: .md :: onRaise) s t) ∧
  (∀ s : State, s.mx.md.hold = true → s.mx.md.time / 1000 ≤ s.mx.tr.slot →
    ∃ t, exec .mrefReturn s = .next t ∧ t.mx.md = { s.mx.md with hold := false } ∧
      Clock.mref ∉ t.mx.gl.lost ∧ t.mx.tr.slot = s.mx.md.time / 1000 ∧
      (s.mx.tr.slot = s.mx.md.time / 1000 → t.mx.tr = s.mx.tr) ∧ keepsBut [.gl, .md, .tr] s t) ∧
  (∀ s : State, Clock.mclk ∉ s.mx.gl.lost → s.mx.gl.pstate ≠ 3 →
    ∃ t, exec (.clkLoss .mclk) s = .next t ∧ t.mx.dm = { s.mx.dm with mclkLost := true } ∧
      t.mx.gl.lost = s.mx.gl.lost ++ [.mclk] ∧ 266 ∈ t.mx.ic.pend ∧ keepsBut (.gl :: .dm :: onRaise) s t) ∧
  (∀ (s : State) (c : Clock), c = .hclk ∨ c = .cpclk → c ∉ s.mx.gl.lost → (c = .hclk → s.mx.gl.pstate = 0) →
    ∃ t, exec (.clkLoss c) s = .next t ∧ t.mx.gl = { s.mx.gl with lost := s.mx.gl.lost ++ [c] } ∧ 266 ∈ t.mx.ic.pend ∧
      keepsBut (.gl :: onRaise) s t) ∧
  (∀ (s : State) (c : Clock), c ∈ s.mx.gl.lost → exec (.clkLoss c) s = .next s) ∧
  (∀ (s : State) (c : Clock), c = .hclk ∨ c = .cpclk → c ∈ s.mx.gl.lost →
    exec (.clockReturn c) s = .next { s with mx := setGl s.mx { s.mx.gl with lost := s.mx.gl.lost.filter (fun x => x != c) } }) ∧
  (∀ s : State, s.mx.md.hold = true → ∃ t, exec .mrefReturn s = .next t ∧ t.mx.md = { s.mx.md with hold := false } ∧
      Clock.mref ∉ t.mx.gl.lost ∧ t.mx.tr.slot = s.mx.md.time / 1000) ∧
  (∀ s : State, s.mx.md.hold = false → ∃ t, exec .mrefReturn s = .next t ∧ Clock.mref ∉ t.mx.gl.lost ∧ keepsBut [.gl] s t)

/-! ## Start, self-test and configuration -/

/-- 15_startup_reset_power.md R534, R536, R538, R540, R553, R555, R557; 14_dome_nightlog.md R511, R515: START leaves
WAIT_START. Where Dome boots, the start goes on until the complex is READY with its dies as DIE_INIT found them, the
dose delivered and the replay ended, or until the warm reset that waited for READY; where it does not, the complex
stays in BOOT, and with no slot and no configuration Dome waits, the defaults stand, and the dies are as the boot
DIE_INIT found them. While launches are held the start waits. START at any other time leaves only a record. -/
def Obligations.ColdStart : Prop :=
  (∀ (s : State) (env : StartEnv), carried s 4 → s.mx.gl.phase = .waitStart → s.mx.gl.pf = .none →
    ∃ t, exec (.start env) s = .next t ∧ t.pending = s.pending ∧
      (if domeBoots env (cpOk s.mx) then t.mx.gl.phase = .ready ∨ t.mx.gl.phase = .warm else t.mx.gl.phase = .boot)) ∧
  (∀ (s : State) (env : StartEnv), carried s 4 → s.mx.gl.phase = .waitStart → s.mx.gl.pf = .none →
    s.mx.gl.warmOwed = false →
    ∃ t, exec (.start env) s = .next t ∧ t.pending = s.pending ∧ t.mx.gl.porstN = true ∧ t.mx.gl.pf = .none ∧
      (domeBoots env (cpOk s.mx) = true → t.mx.gl.phase = .ready ∧ t.mx.gl.fresh = false ∧
        t.mx.gl.p3exit = false ∧ t.mx.dm.boot = 1 ∧ t.mx.sg.dose = t.mx.dm.dose ∧ 287 ∈ t.mx.ic.pend ∧
        (∀ d, d < 2048 → (die t.mx d).absent = !(presentDies env t.mx).any (fun x => x.die == d))) ∧
      (domeBoots env (cpOk s.mx) = false → t.mx.gl.phase = .boot ∧ t.mx.dm.boot ≠ 1)) ∧
  (∀ (s : State) (env : StartEnv), carried s 4 → s.mx.gl.phase = .waitStart → s.mx.gl.pf = .none →
    s.mx.gl.island = none → s.mx.gl.p3exit = false → env.cfgA = none → env.cfgB = none → env.fuses = [] →
    env.slotA = none → env.slotB = none →
    ∃ t, exec (.start env) s = .next t ∧ t.mx.gl.phase = .boot ∧ t.mx.gl.cfgdef = true ∧ t.mx.gl.cfgSrc = 0 ∧
      t.mx.dm.boot = 2 ∧ t.mx.dm.fuseok = false ∧ 295 ∈ t.mx.ic.pend ∧
      (∀ d, d < 2048 → (die t.mx d).absent = !(presentDies env s.mx).any (fun x => x.die == d)) ∧
      (∀ off, geomDie off = none → reg t.mx off = reg s.mx off) ∧
      keepsBut (.gl :: .cp :: .dm :: .die :: .regs :: onRaise) s t) ∧
  (∀ (s : State) (env : StartEnv), carried s 4 → s.mx.gl.phase = .waitStart → s.mx.gl.pf ≠ .none →
    exec (.start env) s =
      .next { s with mx := { cpOk s.mx with gl := { s.mx.gl with phase := .boot, startOwed := some env } } }) ∧
  (∀ (s : State) (env : StartEnv), carried s 4 → s.mx.gl.phase ≠ .waitStart →
    ∃ t, exec (.start env) s = .next t ∧ t.mx.cp = { s.mx.cp with err := false } ∧ keepsBut [.cp, .nl] s t)

/-- 15_startup_reset_power.md R553, R554, R557; 12_stage_buffer.md R447: BIST runs the self-test; its end leaves a
signature for every unit and the stage buffer filled with zeros, and where Dome boots every unit is judged with
BT_DONE raised. BIST at any other time leaves only a record. While it runs it can be ended, whatever it found. -/
def Obligations.SelfTest : Prop :=
  (∀ s : State, carried s 4 → s.mx.gl.phase = .waitStart →
    ∃ t, exec .bist s = .next t ∧ t.mx.gl = { s.mx.gl with phase := .bist } ∧
      t.mx.bt = { running := true, runs := s.mx.bt.runs + 1 } ∧ t.mx.cp = { s.mx.cp with err := false } ∧
      t.mx.sb = { s.mx.sb with scrub := false, trk := [] } ∧ keepsBut [.gl, .cp, .sb, .bt] s t) ∧
  (∀ s : State, carried s 4 → s.mx.gl.phase ≠ .waitStart →
    ∃ t, exec .bist s = .next t ∧ t.mx.cp = { s.mx.cp with err := false } ∧ keepsBut [.cp, .nl] s t) ∧
  (∀ (s : State) (env : StartEnv), s.mx.gl.phase = .bist → s.mx.gl.pf = .held →
    ∃ t, exec (.selfTestEnd env) s = .next t ∧ t.mx.gl = { s.mx.gl with phase := .boot, startOwed := some env } ∧
      t.mx.sb = { s.mx.sb with data := [], chk := [], allWritten := true } ∧ (∀ a, memGet t.mx.sb.data a = 0) ∧
      t.mx.bt = { s.mx.bt with sig := t.mx.bt.sig } ∧ t.mx.bt.sig.map (·.1) = List.range 72 ∧ keepsBut [.gl, .sb, .bt] s t) ∧
  (∀ (s : State) (env : StartEnv), s.mx.gl.phase = .bist → s.mx.gl.pf = .none →
    ∃ t, exec (.selfTestEnd env) s = .next t ∧ t.pending = s.pending ∧
      (if domeBoots env (bistEnd s.mx) then t.mx.gl.phase = .ready ∨ t.mx.gl.phase = .warm else t.mx.gl.phase = .boot)) ∧
  (∀ (s : State) (env : StartEnv), s.mx.gl.phase = .bist → s.mx.gl.pf = .none → s.mx.gl.warmOwed = false →
    s.mx.bt.running = true →
    ∃ t, exec (.selfTestEnd env) s = .next t ∧ t.pending = s.pending ∧ t.mx.bt.sig.map (·.1) = List.range 72 ∧
      (domeBoots env (bistEnd s.mx) = true → t.mx.gl.phase = .ready ∧ t.mx.bt.running = false ∧
        t.mx.bt.done = true ∧ 298 ∈ t.mx.ic.pend ∧ (∀ u, u < 72 → tabGet 0 t.mx.bt.res u = unitResult env t.mx u)) ∧
      (domeBoots env (bistEnd s.mx) = false → t.mx.gl.phase = .boot ∧ t.mx.bt.running = true)) ∧
  (∀ (s : State) (env : StartEnv), s.mx.gl.phase ≠ .bist → exec (.selfTestEnd env) s = .next s) ∧
  (∀ s : State, s.mx.gl.porstN = true → accessCause s.mx 4 15 = none → s.mx.gl.phase = .waitStart →
    ∃ t, exec .bist s = .next t ∧ t.mx.gl.phase = .bist ∧ t.mx.bt.running = true ∧ t.mx.bt.runs = s.mx.bt.runs + 1) ∧
  (∀ (s : State) (env : StartEnv), s.mx.gl.phase = .bist →
    ∃ t, exec (.selfTestEnd env) s = .next t ∧ t.pending = s.pending ∧ t.mx.gl.phase ≠ .bist ∧ t.mx.gl.phase ≠ .waitStart)

/-- 14_dome_nightlog.md R508, R511, R512: a trial that has not reported running fails for good, with DO_UPDATE, and the
ROM chooses again: with no slot left it waits, and in service the command RESTART it held up is answered from the
firmware that runs. In WAIT DO_BOOT.HOSTPKG has the package read on DO_BOOT.PORT, at most 4 KiB a request; on a port
out of service the read fails. Its last beat has it checked, and it runs where it passes; a refused one leaves a
record and DO_UPDATE. -/
def Obligations.TrialAndHostPackage : Prop :=
  (∀ (s : State) (env : StartEnv) (q : Nat), s.mx.dm.trial = some q → s.mx.dm.slotA = none → s.mx.dm.slotB = none →
    s.mx.dm.cmds = [] →
    ∃ t, exec (.trialBootTimeout env) s = .next t ∧ t.mx.dm.boot = 2 ∧ q ∈ t.mx.dm.failed ∧ t.mx.dm.trial = none ∧
      294 ∈ t.mx.ic.pend ∧ keepsBut (.dm :: onRaise) s t) ∧
  (∀ (s : State) (env : StartEnv) (q : Nat), s.mx.dm.trial = some q → s.mx.gl.phase = .ready → s.mx.dm.cmds = [] →
    env.fwRuns = true →
    let d := { s.mx.dm with failed := insN s.mx.dm.failed q, trial := none }
    ∃ t, exec (.trialBootTimeout env) s = .next t ∧ 294 ∈ t.mx.ic.pend ∧ keepsBut (.dm :: .qe :: onRaise) s t ∧
      (∀ r, r ∉ [256, 257, 258] → ring t.mx r = ring s.mx r) ∧
      t.mx.dm = (match bootChoice (setDome s.mx d) with
        | none => { d with boot := 2 }
        | some x => { d with boot := 1, srcSlot := x.1, pkg := some x.2, booted := insN d.booted (pkgSeq x.2),
                             restarting := false })) ∧
  (∀ (s : State) (env : StartEnv), s.mx.dm.trial = none → exec (.trialBootTimeout env) s = .next s) ∧
  (∀ (s : State) (env : StartEnv) (b : Told), carried s 0x5000A8 → s.mx.dm.boot = 2 → s.mx.dm.hostEnv = none → 0 < hostLen s.mx →
    (port s.mx (fld (reg s.mx 0x5000A8) 1 0)).down = false →
    let a := (reg s.mx 0x5000AC).toNat + 2 ^ 32 * (reg s.mx 0x5000B0).toNat
    let q := readReq a (min (hostLen s.mx) (4096 - a % 4096)) (.own false s.mx.dm.accNo)
    ∃ t, exec (.hostPkg b env) s = .next t ∧ t.mx.dm.hostEnv = some env ∧ t.mx.dm.boot = 2 ∧
      t.mx.hp = (request s.mx (fld (reg s.mx 0x5000A8) 1 0) q).hp ∧ q.addr = 128 * (a / 128) ∧ q.beats ≤ 32 ∧
      (∀ k, k ≠ 0x5000A8 → reg t.mx k = reg s.mx k) ∧ keepsBut [.cp, .regs, .dm, .hp, .free] s t) ∧
  (∀ (s : State) (env : StartEnv) (b : Told), carried s 0x5000A8 → s.mx.dm.boot = 2 → s.mx.dm.hostEnv = none → 0 < hostLen s.mx →
    (port s.mx (fld (reg s.mx 0x5000A8) 1 0)).down = true →
    ∃ t, exec (.hostPkg b env) s = .next t ∧ (∀ k, k ≠ 0x5000A8 → reg t.mx k = reg s.mx k) ∧
      t.mx.dm = { s.mx.dm with accNo := s.mx.dm.accNo + 1, acc := none } ∧ keepsBut [.cp, .regs, .nl, .dm] s t) ∧
  (∀ (s : State) (env : StartEnv) (b : Told), carried s 0x5000A8 → (s.mx.dm.boot ≠ 2 ∨ s.mx.dm.hostEnv ≠ none) →
    exec (.hostPkg b env) s = .next { s with mx := setReg (cpOk s.mx) 0x5000A8 (reg s.mx 0x5000A8 ||| 0x80000000) }) ∧
  (∀ (s : State) (p tag : Nat) (data : BitVec 1024) (o : Out) (a : OwnAcc) (e : StartEnv), p < 4 → tag < 1024 →
    (port s.mx p).out = [o] → o.tag = tag → o.req.op = .read → o.req.why = .own false a.no → o.bad = none →
    o.got + 1 = o.req.beats → (port s.mx p).waiting = [] → (port s.mx p).owed = [] →
    s.mx.dm.acc = some a → a.todo = [] → a.ended = none → s.mx.dm.hostEnv = some e → s.mx.gl.cfgAcc = none →
    s.mx.gl.phase = .boot → s.mx.gl.pf = .none → s.mx.dm.boot = 2 →
    let l := memRead (a.data ++ placeBeat o data) (hostAddr s.mx) (hostLen s.mx)
    ∃ t, exec (.responseBeat p false tag 0 data true) s = .next t ∧ t.pending = s.pending ∧
      (if pkgFault s.mx l (reg s.mx 0x5000B4).toNat = none then (t.mx.gl.phase = .ready ∨ t.mx.gl.phase = .warm) ∧
          t.mx.dm.boot = 1 ∧ t.mx.dm.srcSlot = 2 ∧ t.mx.dm.pkg = some l
       else 294 ∈ t.mx.ic.pend ∧ t.mx.dm = { s.mx.dm with acc := none, hostEnv := none } ∧ keepsBut (.dm :: onRaise) s t))

/-- 15_startup_reset_power.md R541, R543, R557: CFGWR sets WRBUSY and reads GL_CFGLEN bytes from GL_CFGADDR on HP0, at
most 4 KiB a request. The last beat has the record checked and its first copy begun, on that copy's die, under one SEQ
above every copy's; a record that fails a check, or a read that fails, sets WRFAIL. A copy that passes replaces the
island's, where it is the first, and has the other begun; the second ends the write. A copy that fails, or is
abandoned, is invalid and sets WRFAIL. CFGWR outside READY, or while WRBUSY, leaves only a record. 00_scope.md R16;
15_startup_reset_power.md R545, R546, R548: GL_LOCK closes; a request for a low-power state is taken in READY at P0
and entered once the complex is quiescent, read-aheads being given up meanwhile; refused outside READY and between
low-power states; a request for P0 withdraws it or wakes the complex, from P3 through the steps of a start. -/
def Obligations.ConfigurationAndPowerStates : Prop :=
  (∀ (s : State) (b c d : Told), carried s 4 → s.mx.gl.phase = .ready → s.mx.gl.wrBusy = false → (port s.mx 0).down = false →
    0 < fld (reg s.mx 0x44) 16 0 →
    let a := (reg s.mx 0x3C).toNat + 2 ^ 32 * (reg s.mx 0x40).toNat
    let q := readReq a (min (fld (reg s.mx 0x44) 16 0) (4096 - a % 4096)) (.own true s.mx.dm.accNo)
    ∃ t, exec (.cfgwr b c d) s = .next t ∧ t.mx.gl.wrBusy = true ∧ t.mx.gl = { s.mx.gl with wrBusy := true, cfgAcc := t.mx.gl.cfgAcc } ∧
      t.mx.gl.cfgAcc.isSome = true ∧ t.mx.hp = (request s.mx 0 q).hp ∧ q.addr = 128 * (a / 128) ∧ q.beats ≤ 32 ∧
      t.mx.dm = { s.mx.dm with accNo := s.mx.dm.accNo + 1 } ∧ keepsBut [.gl, .cp, .dm, .hp, .free] s t) ∧
  (∀ (s : State) (b c d : Told), carried s 4 → s.mx.gl.phase = .ready → s.mx.gl.wrBusy = false → (port s.mx 0).down = true →
    0 < fld (reg s.mx 0x44) 16 0 →
    ∃ t, exec (.cfgwr b c d) s = .next t ∧ t.mx.gl = { s.mx.gl with wrBusy := false, wrFail := true, cfgAcc := none } ∧
      t.mx.dm = { s.mx.dm with accNo := s.mx.dm.accNo + 1 } ∧ keepsBut [.gl, .cp, .dm, .nl] s t) ∧
  (∀ (s : State) (b c d : Told), carried s 4 → s.mx.gl.phase ≠ .ready ∨ s.mx.gl.wrBusy = true →
    ∃ t, exec (.cfgwr b c d) s = .next t ∧ t.mx.cp = { s.mx.cp with err := false } ∧ keepsBut [.cp, .nl] s t) ∧
  (∀ (s : State) (tag stat : Nat) (data : BitVec 1024) (o : Out) (a : OwnAcc), tag < 1024 → stat < 4 →
    (port s.mx 0).out = [o] → o.tag = tag → o.req.op = .read → o.req.why = .own true a.no → o.bad = none →
    o.got + 1 = o.req.beats → (port s.mx 0).waiting = [] → (port s.mx 0).owed = [] →
    s.mx.gl.cfgAcc = some a → a.todo = [] → a.ended = none → s.mx.dm.hostEnv = none → s.mx.gl.wrBusy = true →
    let n := fld (reg s.mx 0x44) 16 0
    let l := memRead (a.data ++ placeBeat o data) ((reg s.mx 0x3C).toNat + 2 ^ 32 * (reg s.mx 0x40).toNat) n
    ∃ t, exec (.responseBeat 0 false tag stat data true) s = .next t ∧ t.pending = s.pending ∧ t.mx.gl.cfgAcc = none ∧
      (stat = 0 → cfgShape l = true → n = 64 + 8 * cfgPairs l → cfgLocValid s.mx = true → s.mx.gl.pf = .none →
        t.mx.gl.wrBusy = true ∧ t.mx.gl.wrFail = s.mx.gl.wrFail ∧ t.mx.gl.island = s.mx.gl.island ∧
        (∃ w, sysW t.mx 11 = some w ∧ w.die = cfgDie s.mx (cfgBFirst s.mx) ∧ w.copyB = cfgBFirst s.mx ∧ w.later = false ∧
          w.ops.map (·.2) = (if ppb s.mx (cfgDie s.mx (cfgBFirst s.mx)) ≤
              (if cfgBFirst s.mx then s.mx.gl.cfgAtB else s.mx.gl.cfgAtA) then [.erase] else []) ++ [.bytes t.mx.gl.cfgNew]) ∧
        ∃ q, t.mx.gl.cfgNew = cfgFill s.mx q l ∧ (∀ k, s.mx.gl.cfgA = some k → k < q) ∧
          (∀ k, s.mx.gl.cfgB = some k → k < q) ∧ (∀ k, cfgFound s.mx.gl.island = some k → k < q)) ∧
      ((stat ≠ 0 ∨ cfgShape l = false ∨ n ≠ 64 + 8 * cfgPairs l ∨ cfgLocValid s.mx = false ∨ s.mx.gl.pf ≠ .none) →
        t.mx.gl = { s.mx.gl with wrBusy := false, wrFail := true, cfgAcc := none })) ∧
  (∀ (m : Mx) (w : SysW), sysW m 11 = some w → w.ended = some (0, 0) → w.later = false →
    let q := leAt m.gl.cfgNew 8 8
    (if w.copyB then (cfgTurn m).gl.cfgB = some q ∧ (cfgTurn m).gl.cfgA = m.gl.cfgA
     else (cfgTurn m).gl.cfgA = some q ∧ (cfgTurn m).gl.cfgB = m.gl.cfgB) ∧
      (cfgTurn m).gl.island = some m.gl.cfgNew ∧ (cfgTurn m).gl.wrBusy = m.gl.wrBusy ∧
      (∃ v, sysW (cfgTurn m) 11 = some v ∧ v.copyB = !w.copyB ∧ v.later = true ∧ v.die = cfgDie m (!w.copyB))) ∧
  (∀ (m : Mx) (w : SysW), sysW m 11 = some w → w.ended = some (0, 0) → w.later = true →
    let q := leAt m.gl.cfgNew 8 8
    (if w.copyB then (cfgTurn m).gl.cfgB = some q ∧ (cfgTurn m).gl.cfgA = m.gl.cfgA
     else (cfgTurn m).gl.cfgA = some q ∧ (cfgTurn m).gl.cfgB = m.gl.cfgB) ∧
      (cfgTurn m).gl.island = m.gl.island ∧ (cfgTurn m).gl.wrBusy = false ∧ (cfgTurn m).gl.wrFail = false ∧ sysW (cfgTurn m) 11 = none) ∧
  (∀ (m : Mx) (w : SysW) (x : Nat × Nat), sysW m 11 = some w → w.ended = some x → x.1 ≠ 0 →
    (if w.copyB then (cfgTurn m).gl.cfgB = none ∧ (cfgTurn m).gl.cfgA = m.gl.cfgA
     else (cfgTurn m).gl.cfgA = none ∧ (cfgTurn m).gl.cfgB = m.gl.cfgB) ∧
      (cfgTurn m).gl.island = m.gl.island ∧ (cfgTurn m).gl.wrBusy = false ∧ (cfgTurn m).gl.wrFail = true) ∧
  (∀ s : State, carried s 0x10 → ∃ t, exec .glLockClose s = .next t ∧ t.mx.gl = { s.mx.gl with lockClosed := true } ∧
    keepsBut [.gl, .cp] s t) ∧
  (∀ (s : State) (aw : Bool) (c : Instr) (n : Nat), carried s 0x14 → s.mx.gl.phase = .ready → s.mx.gl.pstate = 0 →
    (∀ x ∈ s.mx.die, x.2.spec = none) →
    (c = .p1Request aw ∧ n = 1 ∨ c = .p2Request aw ∧ n = 2 ∨ c = .p3Request aw ∧ n = 3) →
    ∃ t, exec c s = .next t ∧ t.mx.gl = { s.mx.gl with req := n, autowake := aw, waitQuiet := true } ∧
      keepsBut [.gl, .cp] s t) ∧
  (∀ (s : State) (aw : Bool) (c : Instr) (n : Nat), carried s 0x14 → s.mx.gl.phase = .ready → s.mx.gl.pstate = 0 →
    (c = .p1Request aw ∧ n = 1 ∨ c = .p2Request aw ∧ n = 2 ∨ c = .p3Request aw ∧ n = 3) →
    ∃ t, exec c s = .next t ∧ t.mx.gl = { s.mx.gl with req := n, autowake := aw, waitQuiet := true } ∧
      (∀ d a, (die t.mx d).spec = some a → a.cancelled = true) ∧
      keepsBut [.gl, .cp, .die, .ch, .sb, .sg, .ents, .tr, .cx] s t) ∧
  (∀ s : State, s.mx.gl.waitQuiet = true → quiescent s.mx = true → s.mx.gl.req = 1 ∨ s.mx.gl.req = 2 →
    ∃ t, exec .quiescence s = .next t ∧ t.mx.gl = { s.mx.gl with pstate := s.mx.gl.req, waitQuiet := false } ∧
      keepsBut [.gl] s t) ∧
  (∀ s : State, s.mx.gl.waitQuiet = true → quiescent s.mx = true → s.mx.gl.req = 3 →
    ∃ t, exec .quiescence s = .next t ∧ t.mx.gl = { s.mx.gl with pstate := 3, waitQuiet := false } ∧ t.mx.md = s.mx.md ∧
      t.mx.dm.dose = s.mx.dm.dose ∧ t.mx.qe = {} ∧ t.mx.ents = [] ∧ t.mx.hp = [] ∧ t.mx.sb = {} ∧ t.mx.die = [] ∧
      (∀ off, islandReg off = true → reg t.mx off = reg s.mx off) ∧
      (∀ off, islandReg off = false → reg t.mx off = regReset off)) ∧
  (∀ (s : State) (aw : Bool) (env : StartEnv), carried s 0x14 → s.mx.gl.pstate = 0 →
    ∃ t, exec (.p0Request aw env) s = .next t ∧ t.mx.gl = { s.mx.gl with req := 0, autowake := aw, waitQuiet := false } ∧
      keepsBut [.gl, .cp] s t) ∧
  (∀ (s : State) (aw : Bool) (env : StartEnv), carried s 0x14 → s.mx.gl.pstate = 1 →
    ∃ t, exec (.p0Request aw env) s = .next t ∧ t.mx.gl = { s.mx.gl with req := 0, autowake := aw, pstate := 0 } ∧
      keepsBut [.gl, .cp] s t) ∧
  (∀ (s : State) (aw : Bool) (env : StartEnv), carried s 0x14 → s.mx.gl.pstate = 2 → env.sets = [] →
    ∃ t, exec (.p0Request aw env) s = .next t ∧ t.mx.gl = { s.mx.gl with req := 0, autowake := aw, pstate := 0 } ∧
      (∀ g, (phy t.mx g).mode = (phy s.mx g).mode ∧ (phy t.mx g).rate = (phy s.mx g).rate) ∧ keepsBut [.gl, .cp, .ph] s t) ∧
  (∀ (s : State) (aw : Bool) (env : StartEnv), carried s 0x14 → s.mx.gl.pstate = 3 → s.mx.gl.pfailN = false →
    s.mx.dm.cmds = [] →
    ∃ t, exec (.p0Request aw env) s = .next t ∧ t.mx.gl = { s.mx.gl with
        autowake := aw, pstate := 0, req := 0, p3exit := true, lockClosed := false, pf := .held, phase := .boot, startOwed := some env } ∧
      t.mx.dm = { s.mx.dm with restarts := satInc s.mx.dm.restarts 0xFFFF, restarting := true } ∧ keepsBut [.gl, .cp, .dm] s t) ∧
  (∀ (s : State) (aw : Bool) (env : StartEnv), carried s 0x14 → s.mx.gl.pstate = 3 → s.mx.gl.pfailN = true →
    s.mx.gl.warmOwed = false →
    ∃ t, exec (.p0Request aw env) s = .next t ∧ t.pending = s.pending ∧ t.mx.gl.pstate = 0 ∧ t.mx.gl.req = 0 ∧
      (t.mx.gl.phase = .ready ∧ t.mx.dm.boot = 1 ∧ 287 ∈ t.mx.ic.pend ∨ t.mx.gl.phase = .boot ∧ t.mx.dm.boot ≠ 1)) ∧
  (∀ (s : State) (aw : Bool) (c : Instr) (n : Nat), carried s 0x14 →
    (s.mx.gl.phase ≠ .ready ∨ (s.mx.gl.pstate ≠ 0 ∧ s.mx.gl.pstate ≠ n)) →
    (c = .p1Request aw ∧ n = 1 ∨ c = .p2Request aw ∧ n = 2 ∨ c = .p3Request aw ∧ n = 3) →
    ∃ t, exec c s = .next t ∧ t.mx.cp = { s.mx.cp with err := false } ∧ keepsBut [.cp, .nl] s t) ∧
  (∀ s : State, (s.mx.gl.waitQuiet = false ∨ quiescent s.mx = false) → exec .quiescence s = .next s)

/-! ## Weron and the control port -/

/-- 02_boundary.md R45: request credits are counted up to 64 and write-data credits up to 256; one more is ignored, raises
HP_CRD (267) and writes a record that names the port. -/
def Obligations.CreditsCounted : Prop :=
  (∀ (s : State) (p : Nat), p < 4 → (port s.mx p).reqCr < 64 → (port s.mx p).owed = [] →
    ((port s.mx p).waiting = [] ∨ (port s.mx p).drain = true ∨ (port s.mx p).down = true ∨ s.mx.gl.phase = .warm) →
    ∃ t, exec (.requestCredit p) s = .next t ∧
      port t.mx p = { port s.mx p with reqCr := (port s.mx p).reqCr + 1 } ∧
      (∀ q, q ≠ p → port t.mx q = port s.mx q) ∧ keepsBut [.hp] s t) ∧
  (∀ (s : State) (p : Nat), p < 4 → (port s.mx p).wrCr < 256 → (port s.mx p).owed = [] →
    ((port s.mx p).waiting = [] ∨ (port s.mx p).drain = true ∨ (port s.mx p).down = true ∨ s.mx.gl.phase = .warm) →
    ∃ t, exec (.writeCredit p) s = .next t ∧
      port t.mx p = { port s.mx p with wrCr := (port s.mx p).wrCr + 1 } ∧
      (∀ q, q ≠ p → port t.mx q = port s.mx q) ∧ keepsBut [.hp] s t) ∧
  (∀ (s : State) (p : Nat), p < 4 → 64 ≤ (port s.mx p).reqCr →
    ∃ t, exec (.requestCredit p) s = .next t ∧ t.mx = raise (log s.mx .hpCrd p) 267 ∧ 267 ∈ t.mx.ic.pend ∧
      keepsBut onRaise s t) ∧
  (∀ (s : State) (p : Nat), p < 4 → 256 ≤ (port s.mx p).wrCr →
    ∃ t, exec (.writeCredit p) s = .next t ∧ t.mx = raise (log s.mx .hpCrd p) 267 ∧ 267 ∈ t.mx.ic.pend ∧
      keepsBut onRaise s t)

/-- 02_boundary.md R44, R46, R47, R48: the credit that a waiting request needs issues it: it uses the credit and a free
tag, and a write owes its data beats; a write-data credit sends the oldest beat owed. 02_boundary.md R49, R51, R55,
R56, R58: a read beat is taken; the last beat of a fetch's READ hands its bytes, or the failure its status names, to
the ring and frees the tag, and a write response its outcome to the entry; a request that times out retires its tag,
which the rest of its response frees; a beat for no request is discarded with HP_PROTO (301). That a write response
before its write's last beat fails the request with PROTO and retires the tag is the model's choice (log entry 118). -/
def Obligations.RequestsAndResponses : Prop :=
  (∀ (s : State) (p : Nat) (q : Req), p < 4 → s.mx.gl.phase ≠ .warm → (port s.mx p).waiting = [q] →
    (port s.mx p).reqCr = 0 → (port s.mx p).wrCr = 0 → (port s.mx p).drain = false → (port s.mx p).down = false →
    (tagsUsed (port s.mx p)).length < 900 → (∀ x ∈ tagsUsed (port s.mx p), x < 1024) →
    ∃ t tag, exec (.requestCredit p) s = .next t ∧ tag < 1024 ∧ tag ∉ tagsUsed (port s.mx p) ∧
      (port t.mx p).out = (port s.mx p).out ++ [{ tag := tag, req := q }] ∧ (port t.mx p).waiting = [] ∧
      (port t.mx p).reqCr = 0 ∧ (port t.mx p).drain = false ∧
      (port t.mx p).owed = (port s.mx p).owed ++ beatsOf tag q ∧ (∀ i, i ≠ p → port t.mx i = port s.mx i) ∧
      keepsBut [.hp, .free] s t) ∧
  (∀ (s : State) (p : Nat) (b : Beat) (bs : List Beat), p < 4 → (port s.mx p).wrCr = 0 → (port s.mx p).owed = b :: bs →
    (port s.mx p).waiting = [] →
    ∃ t, exec (.writeCredit p) s = .next t ∧ port t.mx p = { port s.mx p with owed := bs, wire := [b] } ∧
      (∀ i, i ≠ p → port t.mx i = port s.mx i) ∧ keepsBut [.hp] s t) ∧
  (∀ (s : State) (p tag stat r : Nat) (d : BitVec 1024) (o : Out), noFetch s.mx → p < 4 → tag < 1024 → stat < 4 →
    (port s.mx p).out = [o] → o.tag = tag → o.req.op = .read → o.got + 1 = o.req.beats → o.bad = none →
    o.req.why = .fetch r → (port s.mx p).retired = [] →
    ∃ t, exec (.responseBeat p false tag stat d true) s = .next t ∧ port t.mx p = { port s.mx p with out := [] } ∧
      ring t.mx r = { ring s.mx r with ans := some (statCause stat, placeBeat o d) } ∧
      (∀ q, q ≠ r → ring t.mx q = ring s.mx q) ∧ keepsBut [.hp, .qe, .nl] s t) ∧
  (∀ (s : State) (p tag r : Nat) (o : Out), noFetch s.mx → p < 4 → tag < 1024 → (port s.mx p).out = [o] → o.tag = tag →
    o.req.why = .fetch r → (port s.mx p).retired = [] →
    ∃ t, exec (.hostRequestTmo p tag) s = .next t ∧
      port t.mx p = { port s.mx p with out := [], retired := [{ tag := tag, op := o.req.op }] } ∧
      ring t.mx r = { ring s.mx r with ans := some (some .tmo, []) } ∧
      (∀ q, q ≠ r → ring t.mx q = ring s.mx q) ∧ keepsBut [.hp, .qe, .nl] s t) ∧
  (∀ (s : State) (p tag stat : Nat) (kind last : Bool) (d : BitVec 1024), noFetch s.mx → p < 4 → tag < 1024 →
    (∀ o ∈ (port s.mx p).out, o.tag ≠ tag) → (∀ x ∈ (port s.mx p).retired, x.tag ≠ tag) →
    ∃ t, exec (.responseBeat p kind tag stat d last) s = .next t ∧ 301 ∈ t.mx.ic.pend ∧ keepsBut onRaise s t) ∧
  (∀ (s : State) (p tag stat : Nat) (d : BitVec 1024) (o : Out), noFetch s.mx → p < 4 → tag < 1024 → stat < 4 →
    (port s.mx p).out = [o] → o.tag = tag → o.req.op = .read → o.got + 1 < o.req.beats →
    exec (.responseBeat p false tag stat d false) s = .next { s with mx := setPort s.mx p { port s.mx p with
      out := [{ o with got := o.got + 1, data := placeBeat o d, bad := o.bad.or (statCause stat) }] } }) ∧
  (∀ (s : State) (p tag stat e : Nat) (d : BitVec 1024) (o : Out) (x : Ent), noFetch s.mx → p < 4 → tag < 1024 → stat < 4 →
    (port s.mx p).out = [o] → o.tag = tag → o.req.op = .writeOrd → o.req.why = .cplOrd e → ent s.mx e = some x →
    (∀ b ∈ (port s.mx p).owed, b.tag ≠ tag) → (port s.mx p).retired = [] →
    ∃ t, exec (.responseBeat p true tag stat d true) s = .next t ∧ port t.mx p = { port s.mx p with out := [] } ∧
      ent t.mx e = some { x with ordAns := some (statCause stat) } ∧ (∀ i, i ≠ e → ent t.mx i = ent s.mx i) ∧
      keepsBut [.hp, .ents, .nl] s t) ∧
  (∀ (s : State) (p tag stat e : Nat) (d : BitVec 1024) (o : Out) (b : Beat) (x : Ent), noFetch s.mx → p < 4 → tag < 1024 →
    (port s.mx p).out = [o] → o.tag = tag → o.req.op = .writeOrd → o.req.why = .cplOrd e → ent s.mx e = some x →
    (port s.mx p).owed = [b] → b.tag = tag →
    ∃ t, exec (.responseBeat p true tag stat d true) s = .next t ∧ 301 ∈ t.mx.ic.pend ∧
      ent t.mx e = some { x with ordAns := some (some .proto) } ∧ (∀ y ∈ (port t.mx p).out, y.tag ≠ tag ∨ y.req ≠ o.req) ∧
      keepsBut (.ents :: onRaise) s t) ∧
  (∀ (s : State) (p tag stat : Nat) (kind last : Bool) (d : BitVec 1024) (r : Retired), noFetch s.mx → p < 4 → tag < 1024 →
    (∀ o ∈ (port s.mx p).out, o.tag ≠ tag) → (port s.mx p).retired = [r] → r.tag = tag →
    (kind = true ∧ r.op ≠ .read ∨ kind = false ∧ r.op = .read) →
    exec (.responseBeat p kind tag stat d last) s = .next (if kind = true ∨ last = true then
      { s with mx := setPort s.mx p { port s.mx p with retired := [] } } else s))

/-- 02_boundary.md R66; 15_startup_reset_power.md R557: which accesses the control port refuses, and what a refused one
leaves: CP_ERR, read data zero, the first cause and offset in GL_CPERR, its event, and nothing else. -/
def Obligations.AccessRefused : Prop :=
  (∀ (m : Mx) (off be : Nat), accessCause m off be = none ↔
    (be % 16 = 15 ∧ off % 4 = 0 ∧ occupied off = true ∧ ¬(m.gl.phase = .warm ∧ 0x10000 ≤ off) ∧
      ¬(m.gl.pstate = 3 ∧ p3Open off = false))) ∧
  (∀ (s : State) (off be c : Nat) (v : Word), off < 2 ^ 24 → s.mx.gl.porstN = true → accessCause s.mx off be = some c →
    ∃ t, exec (.controlPortWrite .host off be v) s = .next t ∧ t.mx.cp.err = true ∧ t.mx.cp.rdata = 0 ∧
      299 ∈ t.mx.ic.pend ∧ (bit s.mx.gl.cperr 31 = true → t.mx.gl = s.mx.gl) ∧
      (bit s.mx.gl.cperr 31 = false → bit t.mx.gl.cperr 31 = true ∧ bit t.mx.gl.cperr 30 = true ∧
        fld t.mx.gl.cperr 29 27 = c ∧ fld t.mx.gl.cperr 23 0 = off) ∧ keepsBut (.cp :: .gl :: onRaise) s t) ∧
  (∀ (s : State) (off be c : Nat), off < 2 ^ 24 → s.mx.gl.porstN = true → accessCause s.mx off be = some c →
    ∃ t, exec (.loRegisterRead { addr := off, be := be }) s = .next t ∧ t.mx.cp.err = true ∧ t.mx.cp.rdata = 0 ∧
      299 ∈ t.mx.ic.pend ∧ (bit s.mx.gl.cperr 31 = true → t.mx.gl = s.mx.gl) ∧
      (bit s.mx.gl.cperr 31 = false → bit t.mx.gl.cperr 31 = true ∧ bit t.mx.gl.cperr 30 = false ∧
        fld t.mx.gl.cperr 29 27 = c ∧ fld t.mx.gl.cperr 23 0 = off) ∧ keepsBut (.cp :: .gl :: onRaise) s t)

/-- 00_scope.md R14, R15, R16; 02_boundary.md R62; 16_register_index.md R560; 15_startup_reset_power.md R557: a write that
is carried out sets an RW register; an RWL register only while GL_LOCK is open, a refused change leaving it and a
record, but for Dome, whose internal path GL_LOCK does not close; a read of a _LO register captures the word that the
next read of its _HI register returns; and a read of a register that 16_register_index.md R560 does not name answers
its value and does nothing else. -/
def Obligations.RegisterAccess : Prop :=
  (∀ (s : State) (v : Word), carried s 0x3C → ∃ t, exec (.controlPortWrite .host 0x3C 15 v) s = .next t ∧
    t.mx.cp = { s.mx.cp with err := false } ∧ reg t.mx 0x3C = v ∧ (∀ o, o ≠ 0x3C → reg t.mx o = reg s.mx o) ∧
    keepsBut [.regs, .cp] s t) ∧
  (∀ (s : State) (v : Word), carried s 0x20 → s.mx.gl.lockClosed = false →
    ∃ t, exec (.controlPortWrite .host 0x20 15 v) s = .next t ∧ t.mx.cp = { s.mx.cp with err := false } ∧
      reg t.mx 0x20 = v ∧ (∀ o, o ≠ 0x20 → reg t.mx o = reg s.mx o) ∧ keepsBut [.regs, .cp] s t) ∧
  (∀ (s : State) (v : Word), carried s 0x20 → s.mx.gl.lockClosed = true →
    ∃ t, exec (.controlPortWrite .host 0x20 15 v) s = .next t ∧ t.mx.cp.err = false ∧
      (∀ o, reg t.mx o = reg s.mx o) ∧ keepsBut [.regs, .cp, .nl] s t) ∧
  (∀ (s : State) (off : Nat), off < 2 ^ 24 → carried s off → isLo off = true →
    ∃ t, exec (.loRegisterRead { addr := off }) s = .next t ∧ t.mx.cp.rdata = regRead s.mx off ∧ t.mx.cp.err = false ∧
      tabGet 0 t.mx.cp.loCap off = regRead s.mx (off + 4) ∧ keepsBut [.cp] s t) ∧
  (∀ (s : State) (off : Nat) (w : Word), off + 4 < 2 ^ 24 → carried s (off + 4) → isLo off = true →
    s.mx.cp.loCap.find? (fun x => x.1 == off) = some (off, w) →
    ∃ t, exec (.loRegisterRead { addr := off + 4 }) s = .next t ∧ t.mx.cp.rdata = w ∧ t.mx.cp.err = false ∧
      t.mx.cp.loCap.find? (fun x => x.1 == off) = none ∧ keepsBut [.cp] s t) ∧
  (∀ (s : State) (v : Word) (be : Nat), ∃ t, exec (.controlPortWrite .dome 0x20 be v) s = .next t ∧ reg t.mx 0x20 = v ∧
    (∀ o, o ≠ 0x20 → reg t.mx o = reg s.mx o) ∧ keepsBut [.regs] s t) ∧
  (∀ (s : State) (off : Nat), off < 0x800000 → carried s off → isLo off = false → (4 ≤ off → isLo (off - 4) = false) →
    off ∉ [sgOff 0x3C, trOff 0x14, 0x600004, nlOff 0x20, nlOff 0x3C] →
    (off < 0x11000 ∨ 0x11800 ≤ off ∨ off % 0x40 ≠ 4) →
    exec (.loRegisterRead { addr := off }) s =
      .next { s with mx := { s.mx with cp := { s.mx.cp with rdata := regRead s.mx off, err := false } } })

/-! ## Queues -/

/-- 03_queues.md R106, R110, R111, R115, R122, R124; 14_dome_nightlog.md R491: the ring's states: ENABLE, SHUTDOWN and
FRESET, of a ring with nothing in hand and of any other, the end of a function reset, and RESUME; a control in a state
it does not act in, and host firmware's write to a management ring, leave at most a record. A ring that stops fetching
has no fetch left that waits at its port, and CPT keeps its value. Rings 259 to 263 stay DISABLED. 03_queues.md R111,
R122: an ENABLE with a size out of range is refused with CFG_BAD and QE_DB (264); a SHUTDOWN aborts an entry that is
still in the ring's cache with detail SHUTDOWN. -/
def Obligations.RingStates : Prop :=
  (∀ (s : State) (a : Agent) (r : Nat), r < 259 → writes a (decide (256 ≤ r)) s (qeRingOff r 0xC) →
    (ring s.mx r).state = .disabled → 4 ≤ ringSize s.mx r → ringSize s.mx r ≤ 16 →
    ∃ t, exec (.enable a r) s = .next t ∧
      ring t.mx r = { state := .active, err := (ring s.mx r).err, errIdx := (ring s.mx r).errIdx } ∧
      (∀ q, q ≠ r → ring t.mx q = ring s.mx q) ∧ keepsBut [.qe, .cp] s t) ∧
  (∀ (s : State) (a : Agent) (r : Nat), r < 264 → writes a (decide (256 ≤ r)) s (qeRingOff r 0xC) →
    (ring s.mx r).state = .active ∨ (ring s.mx r).state = .stoppedErr → (ring s.mx r).live = [] →
    (ring s.mx r).reqAt = none → lockedDies s.mx r = [] →
    (∀ q ∈ (port s.mx (ringPort s.mx r)).waiting, q.why ≠ .fetch r) →
    ∃ t, exec (.shutdown a r) s = .next t ∧ (ring t.mx r).state = .disabled ∧
      (ring t.mx r).fetch = (ring s.mx r).fetch ∧ (ring t.mx r).tail = (ring s.mx r).tail ∧ (ring t.mx r).cpt = cptAt s.mx r ∧
      (∀ q, q ≠ r → ring t.mx q = ring s.mx q) ∧ keepsBut [.qe, .cp] s t) ∧
  (∀ (s : State) (a : Agent) (r : Nat), r < 264 → writes a (decide (256 ≤ r)) s (qeRingOff r 0xC) →
    (ring s.mx r).state = .active ∨ (ring s.mx r).state = .stoppedErr ∨ (ring s.mx r).state = .stopping →
    (ring s.mx r).live = [] → lockedDies s.mx r = [] →
    (∀ q ∈ (port s.mx (ringPort s.mx r)).waiting, q.why ≠ .fetch r) →
    ∃ t, exec (.ringFreset a r) s = .next t ∧ (ring t.mx r).state = .resetting ∧ (ring t.mx r).cache = [] ∧
      (ring t.mx r).hold = none ∧ (∀ q, q ≠ r → ring t.mx q = ring s.mx q) ∧ keepsBut [.qe, .cp] s t) ∧
  (∀ (s : State) (r : Nat), r < 264 → (ring s.mx r).state = .resetting → (ring s.mx r).live = [] →
    (ring s.mx r).reqAt = none →
    ∃ t, exec (.ringFresetDone r) s = .next t ∧ ring t.mx r = { ring s.mx r with
        state := .disabled, fence := none, cpt := cptAt s.mx r, orded := (ring t.mx r).orded } ∧
      (∀ q, q ≠ r → ring t.mx q = ring s.mx q) ∧ keepsBut [.qe] s t) ∧
  (∀ (s : State) (a : Agent) (r : Nat), r < 264 → writes a (decide (256 ≤ r)) s (qeRingOff r 0xC) →
    (ring s.mx r).state = .stoppedErr →
    ∃ t, exec (.resume a r) s = .next t ∧ ring t.mx r = { ring s.mx r with state := .active } ∧
      (∀ q, q ≠ r → ring t.mx q = ring s.mx q) ∧ keepsBut [.qe, .cp] s t) ∧
  (∀ (s : State) (a : Agent) (r : Nat), r < 264 → writes a (decide (256 ≤ r)) s (qeRingOff r 0xC) →
    (ring s.mx r).state = .active ∨ (ring s.mx r).state = .stoppedErr →
    ∃ t, exec (.shutdown a r) s = .next t ∧ ((ring t.mx r).state = .stopping ∨ (ring t.mx r).state = .disabled) ∧
      (ring t.mx r).cache = [] ∧ (ring t.mx r).hold = none ∧ (ring t.mx r).fetch = (ring s.mx r).fetch ∧
      (ring t.mx r).tail = (ring s.mx r).tail ∧ (ring t.mx r).live = (ring s.mx r).live ∧
      (∀ q ∈ (port t.mx (ringPort s.mx r)).waiting, q.why ≠ .fetch r) ∧
      (∀ q, q ≠ r → ring t.mx q = ring s.mx q) ∧
      keepsBut [.qe, .cp, .ents, .dx, .hp, .sb, .ch, .die, .cx, .tr, .st, .ic, .nl, .free] s t) ∧
  (∀ (s : State) (a : Agent) (r : Nat), r < 264 → writes a (decide (256 ≤ r)) s (qeRingOff r 0xC) →
    (ring s.mx r).state = .active ∨ (ring s.mx r).state = .stoppedErr ∨ (ring s.mx r).state = .stopping →
    ∃ t, exec (.ringFreset a r) s = .next t ∧ (ring t.mx r).state = .resetting ∧ (ring t.mx r).cache = [] ∧
      (ring t.mx r).hold = none ∧ (ring t.mx r).live = (ring s.mx r).live ∧
      (∀ q ∈ (port t.mx (ringPort s.mx r)).waiting, q.why ≠ .fetch r) ∧
      (∀ i ∈ (ring s.mx r).live, (ent t.mx (eidOf r i)).all
        (fun e => e.stage == .final || e.stage == .written || e.stage == .noticed) = true) ∧
      (∀ q, q ≠ r → ring t.mx q = ring s.mx q) ∧
      keepsBut [.qe, .cp, .ents, .dx, .hp, .sb, .ch, .die, .cx, .tr, .st, .ic, .nl, .free] s t) ∧
  (∀ (s : State) (a : Agent) (r : Nat) (c : Instr), r < 264 → writes a (decide (256 ≤ r)) s (qeRingOff r 0xC) →
    ((ring s.mx r).state = .disabled ∧ (c = .shutdown a r ∨ c = .ringFreset a r ∨ c = .resume a r) ∨
     ((ring s.mx r).state = .active ∨ (ring s.mx r).state = .stoppedErr) ∧ c = .enable a r) →
    ∃ t, exec c s = .next t ∧ t.mx.nl = (log s.mx .ctrlIgnored r).nl ∧ keepsBut [.cp, .nl] s t) ∧
  (∀ (s : State) (r : Nat), r < 264 → ((ring s.mx r).state ≠ .resetting ∨ (ring s.mx r).live ≠ [] ∨ (ring s.mx r).reqAt ≠ none) →
    exec (.ringFresetDone r) s = .next s) ∧
  (∀ (s : State) (r : Nat) (c : Instr), 256 ≤ r → r < 264 → carried s (qeRingOff r 0xC) →
    (c = .enable .host r ∨ c = .shutdown .host r ∨ c = .ringFreset .host r ∨ c = .resume .host r) →
    ∃ t, exec c s = .next t ∧ t.mx.nl = (log s.mx .mgmtWrite (qeRingOff r 0xC)).nl ∧ keepsBut [.cp, .nl] s t) ∧
  (∀ (s : State) (r : Nat), 259 ≤ r → r < 264 → (ring s.mx r).state = .disabled → exec (.enable .dome r) s = .next s) ∧
  (∀ (s : State) (a : Agent) (r : Nat), r < 259 → writes a (decide (256 ≤ r)) s (qeRingOff r 0xC) →
    (ring s.mx r).state = .disabled → ringSize s.mx r < 4 ∨ 16 < ringSize s.mx r → bit (ring s.mx r).err 31 = false →
    ∃ t, exec (.enable a r) s = .next t ∧ (ring t.mx r).state = .disabled ∧ bit (ring t.mx r).err 31 = true ∧
      fld (ring t.mx r).err 15 0 = 0x14 ∧ 264 ∈ t.mx.ic.pend ∧ keepsBut (.qe :: .cp :: onRaise) s t) ∧
  (∀ (s : State) (a : Agent) (r i : Nat) (e : Ent), r < 256 → i < 131072 →
    writes a false s (qeRingOff r 0xC) → (ring s.mx r).state = .active → (ring s.mx r).live = [i] →
    ent s.mx (eidOf r i) = some e → e.stage = .cached → e.admitted = false → eOpc e = 0x19 → e.stripe = none →
    s.mx.sb.resv = [] → s.mx.sb.wait = [] → s.mx.die = [] → s.mx.dx.queue = [] → s.mx.dx.eng = [] → s.mx.cx.cl = [] →
    s.mx.tr.reqs = [] → s.mx.tr.holds = [] →
    ∃ t f, exec (.shutdown a r) s = .next t ∧ (ring t.mx r).state = .stopping ∧ (ring t.mx r).cache = [] ∧
      ent t.mx (eidOf r i) = some f ∧ f.stage = .final ∧ f.status = 0x0200 ∧ f.detail = 1)

/-- 03_queues.md R104: BASE and CFG are written only while the ring is DISABLED. -/
def Obligations.RingConfiguration : Prop :=
  (∀ (s : State) (a : Agent) (r : Nat) (v : Word), r < 264 → writes a (decide (256 ≤ r)) s (qeRingOff r 0) →
    (ring s.mx r).state = .disabled →
    ∃ t, exec (.ringConfigWrite a r 0 v) s = .next t ∧ reg t.mx (qeRingOff r 0) = v &&& 0xFFFFF000 ∧
      (∀ o, o ≠ qeRingOff r 0 → reg t.mx o = reg s.mx o) ∧ keepsBut [.regs, .cp] s t) ∧
  (∀ (s : State) (a : Agent) (r : Nat) (v : Word), r < 264 → writes a (decide (256 ≤ r)) s (qeRingOff r 4) →
    (ring s.mx r).state = .disabled →
    ∃ t, exec (.ringConfigWrite a r 4 v) s = .next t ∧ reg t.mx (qeRingOff r 4) = v ∧
      (∀ o, o ≠ qeRingOff r 4 → reg t.mx o = reg s.mx o) ∧ keepsBut [.regs, .cp] s t) ∧
  (∀ (s : State) (a : Agent) (r : Nat) (v : Word), r < 264 → writes a (decide (256 ≤ r)) s (qeRingOff r 8) →
    (ring s.mx r).state = .disabled → s.mx.gl.lockClosed = false →
    ∃ t, exec (.ringConfigWrite a r 8 v) s = .next t ∧ reg t.mx (qeRingOff r 8) = v &&& 0x83FF001F ∧
      (∀ o, o ≠ qeRingOff r 8 → reg t.mx o = reg s.mx o) ∧ keepsBut [.regs, .cp] s t) ∧
  (∀ (s : State) (a : Agent) (r k : Nat) (v : Word), r < 264 → k = 0 ∨ k = 4 ∨ k = 8 →
    writes a (decide (256 ≤ r)) s (qeRingOff r k) → (ring s.mx r).state ≠ .disabled →
    ∃ t, exec (.ringConfigWrite a r k v) s = .next t ∧ t.mx.nl = (log s.mx .ringCfgRefused r).nl ∧
      t.mx.cp.err = (if a = .dome then s.mx.cp.err else false) ∧ keepsBut [.cp, .nl] s t)

/-- 03_queues.md R108, R113, R114: a doorbell is accepted within the bounds of R113 and R114 and refused otherwise with
its ring-level error and QE_DB (264). 03_queues.md R110, R120: HELD, LATE and NOT_POSTED, and RELEASE; a management
ring is Dome's to hold. -/
def Obligations.DoorbellsAndHolds : Prop :=
  (∀ (s : State) (a : Agent) (r : Nat) (v : Word), r < 264 → writes a (decide (256 ≤ r)) s (dbOff r 0) →
    (ring s.mx r).state = .active ∨ (ring s.mx r).state = .stoppedErr → v.toNat < idxMod s.mx r →
    occupancy s.mx r + idxSub s.mx r v.toNat (ring s.mx r).tail ≤ slots s.mx r → s.mx.gl.pstate = 0 →
    ∃ t, exec (.dbTail a r v) s = .next t ∧ ring t.mx r = { ring s.mx r with tail := v.toNat } ∧
      (∀ q, q ≠ r → ring t.mx q = ring s.mx q) ∧ keepsBut [.qe, .cp] s t) ∧
  (∀ (s : State) (a : Agent) (r : Nat) (v : Word), r < 264 → writes a (decide (256 ≤ r)) s (dbOff r 4) →
    (ring s.mx r).state = .active ∨ (ring s.mx r).state = .stoppedErr ∨ (ring s.mx r).state = .stopping →
    v.toNat < idxMod s.mx r →
    idxSub s.mx r v.toNat (ring s.mx r).head ≤ idxSub s.mx r (ring s.mx r).cpt (ring s.mx r).head →
    s.mx.gl.pstate = 0 →
    ∃ t, exec (.dbHead a r v) s = .next t ∧ ring t.mx r = { ring s.mx r with head := v.toNat } ∧
      (∀ q, q ≠ r → ring t.mx q = ring s.mx q) ∧ keepsBut [.qe, .cp] s t) ∧
  (∀ (s : State) (a : Agent) (r code : Nat) (v : Word), r < 264 → writes a (decide (256 ≤ r)) s (dbOff r 0) →
    bit (ring s.mx r).err 31 = false →
    ((ring s.mx r).state ≠ .active ∧ (ring s.mx r).state ≠ .stoppedErr ∧ code = 0x12 ∨
     (ring s.mx r).state = .active ∧ idxMod s.mx r ≤ v.toNat ∧ code = 0x13 ∨
     (ring s.mx r).state = .active ∧ v.toNat < idxMod s.mx r ∧
       slots s.mx r < occupancy s.mx r + idxSub s.mx r v.toNat (ring s.mx r).tail ∧ code = 0x10) →
    ∃ t, exec (.dbTail a r v) s = .next t ∧ (ring t.mx r).tail = (ring s.mx r).tail ∧ bit (ring t.mx r).err 31 = true ∧
      fld (ring t.mx r).err 15 0 = code ∧ 264 ∈ t.mx.ic.pend ∧ keepsBut (.qe :: .cp :: onRaise) s t) ∧
  (∀ (s : State) (r slot i : Nat), r < 256 → slot < 65536 → carried s 0x29000 → dispatches (ring s.mx r) = true →
    slot < slots s.mx r → ownedIdx s.mx r slot = some i → dispatchedIdx s.mx r i = false → (ring s.mx r).hold = none →
    ∃ t, exec (.hold r slot) s = .next t ∧ t.mx.qe.invRes = 1 ∧ (ring t.mx r).hold = some i ∧
      (∀ j ∈ (ring t.mx r).cache, j ∈ (ring s.mx r).cache ∧ fromHead s.mx r j < fromHead s.mx r i) ∧
      (∀ q, q ≠ r → ring t.mx q = ring s.mx q) ∧ keepsBut [.qe, .ents, .cp] s t) ∧
  (∀ (s : State) (r slot i : Nat), r < 256 → slot < 65536 → carried s 0x29000 → dispatches (ring s.mx r) = true →
    slot < slots s.mx r → ownedIdx s.mx r slot = some i → dispatchedIdx s.mx r i = true →
    ∃ t, exec (.hold r slot) s = .next t ∧ t.mx.qe = { s.mx.qe with invRes := 2 } ∧ keepsBut [.qe, .cp] s t) ∧
  (∀ (s : State) (r slot : Nat), r < 256 → slot < 65536 → carried s 0x29000 →
    (dispatches (ring s.mx r) = false ∨ slots s.mx r ≤ slot ∨ ownedIdx s.mx r slot = none) →
    ∃ t, exec (.hold r slot) s = .next t ∧ t.mx.qe = { s.mx.qe with invRes := 3 } ∧ keepsBut [.qe, .cp] s t) ∧
  (∀ (s : State) (r : Nat), r < 256 → carried s 0x29000 →
    ∃ t, exec (.release r) s = .next t ∧ ring t.mx r = { ring s.mx r with hold := none } ∧
      (∀ q, q ≠ r → ring t.mx q = ring s.mx q) ∧ keepsBut [.qe, .cp] s t) ∧
  (∀ (s : State) (r slot : Nat), 256 ≤ r → r < 512 → slot < 65536 → carried s 0x29000 →
    ∃ t, exec (.hold r slot) s = .next t ∧ t.mx.qe = { s.mx.qe with invRes := 3 } ∧ t.mx.nl = (log s.mx .mgmtWrite r).nl ∧
      keepsBut [.qe, .cp, .nl] s t) ∧
  (∀ (s : State) (r : Nat), 256 ≤ r → r < 512 → carried s 0x29000 →
    ∃ t, exec (.release r) s = .next t ∧ t.mx.nl = (log s.mx .mgmtWrite r).nl ∧ keepsBut [.cp, .nl] s t)

/-- 03_queues.md R96, R116, R117, R126: a fetch asks for the entries from FETCH on, for the ring whose turn it is; where
every beat is OK, FETCH moves past the entries, which are held and dispatched in their turn; where one is not, an
ACTIVE ring stops with QE_STOP (265). -/
def Obligations.EntryFetch : Prop :=
  (∀ (s : State) (r : Nat), r < 264 → nextFetch s.mx = some r → parked s.mx (ringPort s.mx r) →
    ∃ t, exec (.entryFetch r) s = .next t ∧
      ring t.mx r = { ring s.mx r with reqAt := some ((ring s.mx r).fetch, fetchRoom s.mx r),
                                       keep := fetchRoom s.mx r, ans := none } ∧
      t.mx.qe.rot = (r + 1) % 264 ∧ (∀ q, q ≠ r → ring t.mx q = ring s.mx q) ∧
      (port t.mx (ringPort s.mx r)).waiting =
        [readReq (slotAddr s.mx r (ring s.mx r).fetch) (64 * fetchRoom s.mx r) (.fetch r)] ∧
      keepsBut [.qe, .hp] s t) ∧
  (∀ (s : State) (r i : Nat) (data : Mem), r < 264 → (ring s.mx r).state = .active →
    (ring s.mx r).ans = some (none, data) → (ring s.mx r).reqAt = some (i, 1) → (ring s.mx r).keep = 1 →
    i < idxMod s.mx r →
    ∃ t, exec (.entryFetchDone r) s = .next t ∧ (ring t.mx r).fetch = idxAdd s.mx r i 1 ∧
      (ring t.mx r).reqAt = none ∧ (ring t.mx r).live = (ring s.mx r).live ++ [i] ∧
      (ring t.mx r).cache = (ring s.mx r).cache ++ [i] ∧
      ent t.mx (eidOf r i) = some { raw := BitVec.ofNat 512 (leNat (memRead data (slotAddr s.mx r i) 64)) } ∧
      (∀ q, q ≠ r → ring t.mx q = ring s.mx q) ∧ (∀ e, e ≠ eidOf r i → ent t.mx e = ent s.mx e) ∧
      keepsBut [.qe, .ents] s t) ∧
  (∀ (s : State) (r : Nat), r < 264 → nextFetch s.mx ≠ some r → exec (.entryFetch r) s = .next s) ∧
  (∀ (s : State) (r i n : Nat) (data : Mem), r < 264 → (ring s.mx r).state = .active → 4 ≤ ringSize s.mx r →
    (ring s.mx r).ans = some (none, data) → (ring s.mx r).reqAt = some (i, n) → (ring s.mx r).keep = n → 0 < n → n ≤ 8 →
    i < idxMod s.mx r →
    let l := (List.range n).map (idxAdd s.mx r i)
    ∃ t, exec (.entryFetchDone r) s = .next t ∧ (ring t.mx r).fetch = idxAdd s.mx r i n ∧ (ring t.mx r).reqAt = none ∧
      (ring t.mx r).ans = none ∧ (ring t.mx r).live = (ring s.mx r).live ++ l ∧ (ring t.mx r).cache = (ring s.mx r).cache ++ l ∧
      (∀ j ∈ l, ent t.mx (eidOf r j) = some { raw := BitVec.ofNat 512 (leNat (memRead data (slotAddr s.mx r j) 64)) }) ∧
      (∀ q, q ≠ r → ring t.mx q = ring s.mx q) ∧ (∀ e, e ∉ l.map (eidOf r) → ent t.mx e = ent s.mx e) ∧
      keepsBut [.qe, .ents] s t) ∧
  (∀ (s : State) (r i n : Nat) (c : Cause) (data : Mem), r < 264 → (ring s.mx r).state = .active →
    (ring s.mx r).ans = some (some c, data) → (ring s.mx r).reqAt = some (i, n) → bit (ring s.mx r).err 31 = false →
    ∃ t, exec (.entryFetchDone r) s = .next t ∧ (ring t.mx r).state = .stoppedErr ∧
      (ring t.mx r).fetch = (ring s.mx r).fetch ∧ (ring t.mx r).errIdx = i ∧ fld (ring t.mx r).err 15 0 = 0x20 ∧
      fld (ring t.mx r).err 23 16 = causeCode c ∧ 265 ∈ t.mx.ic.pend ∧ keepsBut (.qe :: onRaise) s t)

/-- 03_queues.md R115, R133, R145; 01_architecture.md R35; 13_interrupts.md R470; 02_boundary.md R60: the completion's two
requests, with CPT passing the slot once its WRITE_ORD is issued, and what their answers lead to: the ring's vector,
at once or coalesced, or its notice first, or QE_STOP (265). On a port out of service both have failed. 03_queues.md
R146 with R111, and 01_architecture.md R35: the answer to a notice's write: the ring's vector follows it, and a notice
write that fails leaves the notice ring as it stands and stops the completing entry's ring with NTC_FAIL. -/
def Obligations.CompletionsAndNotices : Prop :=
  (∀ (s : State) (r i : Nat) (e : Ent), r < 264 → i < 131072 → ent s.mx (eidOf r i) = some e → e.stage = .final →
    parked s.mx (ringPort s.mx r) → (ring s.mx r).cpt = i → (ring s.mx r).orded = [] →
    ∃ t, exec (.completionWrite r i) s = .next t ∧ ent t.mx (eidOf r i) = some { e with stage := .written } ∧
      (port t.mx (ringPort s.mx r)).waiting =
        [writeReq .write (slotAddr s.mx r i + 2) ((completion e).drop 2) (.cplBody (eidOf r i)),
         writeReq .writeOrd (slotAddr s.mx r i) ((completion e).take 2) (.cplOrd (eidOf r i))] ∧
      cptAt t.mx r = i ∧ (∀ q, q ≠ r → ring t.mx q = ring s.mx q) ∧ keepsBut [.ents, .qe, .hp] s t) ∧
  (∀ (s : State) (r i : Nat) (e : Ent), r < 264 → i < idxMod s.mx r → i < 131072 → ent s.mx (eidOf r i) = some e → e.stage = .final →
    (ring s.mx r).cpt = i → (ring s.mx r).orded = [] → s.mx.gl.phase ≠ .warm →
    (let p := port s.mx (ringPort s.mx r)
     p.reqCr = 2 ∧ p.waiting = [] ∧ p.out = [] ∧ p.retired = [] ∧ p.drain = false ∧ p.down = false) →
    ∃ t, exec (.completionWrite r i) s = .next t ∧ ent t.mx (eidOf r i) = some { e with stage := .written } ∧
      (port t.mx (ringPort s.mx r)).out.map (·.req) =
        [writeReq .write (slotAddr s.mx r i + 2) ((completion e).drop 2) (.cplBody (eidOf r i)),
         writeReq .writeOrd (slotAddr s.mx r i) ((completion e).take 2) (.cplOrd (eidOf r i))] ∧
      (port t.mx (ringPort s.mx r)).reqCr = 0 ∧ (ring t.mx r).cpt = idxAdd s.mx r i 1 ∧ (ring t.mx r).orded = [] ∧
      (∀ q, q ≠ r → ring t.mx q = ring s.mx q) ∧ keepsBut [.ents, .qe, .hp, .free] s t) ∧
  (∀ (s : State) (r i : Nat) (e : Ent), r < 264 → i < 131072 → ent s.mx (eidOf r i) = some e → e.stage = .final →
    (port s.mx (ringPort s.mx r)).down = true → (ring s.mx r).orded = [] →
    ∃ t, exec (.completionWrite r i) s = .next t ∧
      ent t.mx (eidOf r i) = some { e with stage := .written, bodyBad := some .outOfService, ordAns := some (some .outOfService) } ∧
      (∀ q, ring t.mx q = ring s.mx q) ∧ keepsBut [.ents, .qe, .nl] s t) ∧
  (∀ (s : State) (r i : Nat) (e : Ent), r < 264 → i < 131072 → ent s.mx (eidOf r i) = some e → e.stage = .written →
    e.ordAns = some none → e.bodyBad = none → eNotice e = false → (ring s.mx r).fence = none →
    (ring s.mx r).state = .active → ccnt s.mx r = 0 → ctime s.mx r = 0 →
    ∃ t, exec (.writeOrdResponse r i) s = .next t ∧ ent t.mx (eidOf r i) = none ∧
      (ring t.mx r).live = (ring s.mx r).live.filter (fun j => j != i) ∧ r ∈ t.mx.ic.pend ∧
      resvOf t.mx (.entry (eidOf r i)) = none ∧ keepsBut (.ents :: .qe :: .sb :: onRaise) s t) ∧
  (∀ (s : State) (r i : Nat) (e : Ent), r < 264 → i < 131072 → ent s.mx (eidOf r i) = some e → e.stage = .written →
    e.ordAns = some none → e.bodyBad = none → eNotice e = false → (ring s.mx r).fence = none →
    (ring s.mx r).state = .active → heldCount s.mx r + 1 < ccnt s.mx r →
    ∃ t, exec (.writeOrdResponse r i) s = .next t ∧ ent t.mx (eidOf r i) = none ∧
      (ring t.mx r).live = (ring s.mx r).live.filter (fun j => j != i) ∧ heldCount t.mx r = heldCount s.mx r + 1 ∧
      t.mx.ic.pend = s.mx.ic.pend ∧ (ctime s.mx r ≠ 0 → r ∈ t.mx.ic.timer) ∧ keepsBut [.ents, .qe, .sb, .ic] s t) ∧
  (∀ (s : State) (r i : Nat) (e : Ent), r < 264 → i < 131072 → ent s.mx (eidOf r i) = some e → e.stage = .written →
    e.ordAns = some none → e.bodyBad = none → eNotice e = true → (ring s.mx r).fence = none → (ring s.mx r).state = .active →
    (ntc s.mx (grpOf r)).en = true → ((ntc s.mx (grpOf r)).ovf = true ∨ ntcFull s.mx (grpOf r) = true) →
    ccnt s.mx r = 0 → ctime s.mx r = 0 →
    ∃ t, exec (.writeOrdResponse r i) s = .next t ∧ ent t.mx (eidOf r i) = none ∧ r ∈ t.mx.ic.pend ∧
      ntc t.mx (grpOf r) = { ntc s.mx (grpOf r) with ovf := true, drops := satInc (ntc s.mx (grpOf r)).drops 0xFFFF } ∧
      keepsBut (.ents :: .qe :: .sb :: onRaise) s t) ∧
  (∀ (s : State) (r i : Nat) (e : Ent), r < 264 → i < 131072 → ent s.mx (eidOf r i) = some e → e.stage = .written →
    e.ordAns = some none → e.bodyBad = none → eNotice e = true → (ring s.mx r).fence = none →
    (ntc s.mx (grpOf r)).en = true → (ntc s.mx (grpOf r)).ovf = false → ntcFull s.mx (grpOf r) = false →
    parked s.mx (ringPort s.mx r) →
    ∃ t, exec (.writeOrdResponse r i) s = .next t ∧
      ent t.mx (eidOf r i) = some { e with ordAns := none, stage := .noticed } ∧
      (ntc t.mx (grpOf r)).tail = ((ntc s.mx (grpOf r)).tail + 1) % ntcMod s.mx (grpOf r) ∧
      (port t.mx (ringPort s.mx r)).waiting =
        [writeReq .write (ntcBase s.mx (grpOf r) + 8 * ((ntc s.mx (grpOf r)).tail % 2 ^ ntcSize s.mx (grpOf r)))
          (noticeBytes s.mx (grpOf r) r i (ntc s.mx (grpOf r)).tail e) (.notice (eidOf r i))] ∧
      keepsBut [.ents, .qe, .sb, .hp] s t) ∧
  (∀ (s : State) (r i : Nat) (e : Ent) (c : Cause), r < 264 → i < 131072 → ent s.mx (eidOf r i) = some e →
    e.stage = .written → e.ordAns = some (some c) → (ring s.mx r).fence = none → (ring s.mx r).state = .active →
    ∃ t, exec (.writeOrdResponse r i) s = .next t ∧ ent t.mx (eidOf r i) = none ∧ (ring t.mx r).state = .stoppedErr ∧
      265 ∈ t.mx.ic.pend ∧ keepsBut (.ents :: .qe :: .sb :: onRaise) s t) ∧
  (∀ (s : State) (r i : Nat) (e : Ent), r < 264 → i < 131072 → ent s.mx (eidOf r i) = some e → e.stage = .noticed →
    e.ntcAns = some none → (ring s.mx r).fence = none → (ring s.mx r).state = .active → ccnt s.mx r = 0 →
    ctime s.mx r = 0 →
    ∃ t, exec (.noticeWriteResponse r i) s = .next t ∧ ent t.mx (eidOf r i) = none ∧ r ∈ t.mx.ic.pend ∧
      t.mx.qe.ntcs = s.mx.qe.ntcs ∧ keepsBut (.ents :: .qe :: onRaise) s t) ∧
  (∀ (s : State) (r i : Nat) (e : Ent) (c : Cause), r < 264 → i < 131072 → ent s.mx (eidOf r i) = some e →
    e.stage = .noticed → e.ntcAns = some (some c) → (ring s.mx r).fence = none → (ring s.mx r).state = .active →
    bit (ring s.mx r).err 31 = false →
    ∃ t, exec (.noticeWriteResponse r i) s = .next t ∧ ent t.mx (eidOf r i) = none ∧
      (ring t.mx r).state = .stoppedErr ∧ fld (ring t.mx r).err 15 0 = 0x22 ∧ (ring t.mx r).errIdx = i ∧
      t.mx.qe.ntcs = s.mx.qe.ntcs ∧ 265 ∈ t.mx.ic.pend ∧ keepsBut (.ents :: .qe :: onRaise) s t)

/-- 03_queues.md R140, R141: notices are enabled with both indices 0, and stopped by EN 0; HEAD moves within TAIL and not
past it. That a write while EN is 1 does not change SIZE, and that EN is set whatever SIZE holds, are the model's
choices (log entries 138 and 139). -/
def Obligations.NoticeGroups : Prop :=
  (∀ (s : State) (a : Agent) (g : Nat) (v : Word), g < 33 → writes a (decide (g = 32)) s (qeNtcOff g 8) →
    (ntc s.mx g).en = false → bit v 31 = true →
    ∃ t, exec (.noticeEnable a g v) s = .next t ∧ ntc t.mx g = { ntc s.mx g with en := true, head := 0, tail := 0 } ∧
      ntcSize t.mx g = fld v 4 0 ∧ (∀ q, q ≠ g → ntc t.mx q = ntc s.mx q) ∧ t.mx.qe.rings = s.mx.qe.rings ∧
      (∀ o, o ≠ qeNtcOff g 8 → reg t.mx o = reg s.mx o) ∧ keepsBut [.regs, .qe, .cp] s t) ∧
  (∀ (s : State) (a : Agent) (g : Nat) (v : Word), g < 33 → writes a (decide (g = 32)) s (qeNtcOff g 0xC) →
    fld v 16 0 < ntcMod s.mx g → ntcSub s.mx g (fld v 16 0) (ntc s.mx g).head ≤ ntcSub s.mx g (ntc s.mx g).tail (ntc s.mx g).head →
    ∃ t, exec (.noticeHeadWrite a g v) s = .next t ∧ ntc t.mx g = { ntc s.mx g with head := fld v 16 0 } ∧
      (∀ q, q ≠ g → ntc t.mx q = ntc s.mx q) ∧ t.mx.qe.rings = s.mx.qe.rings ∧ keepsBut [.qe, .cp] s t) ∧
  (∀ (s : State) (a : Agent) (g : Nat) (v : Word), g < 33 → writes a (decide (g = 32)) s (qeNtcOff g 0xC) →
    ntcSub s.mx g (ntc s.mx g).tail (ntc s.mx g).head < ntcSub s.mx g (fld v 16 0) (ntc s.mx g).head →
    ∃ t, exec (.noticeHeadWrite a g v) s = .next t ∧ t.mx.nl = (log s.mx .ntcHead g).nl ∧ keepsBut [.cp, .nl] s t) ∧
  (∀ (s : State) (a : Agent) (g : Nat) (v : Word), g < 33 → writes a (decide (g = 32)) s (qeNtcOff g 8) → bit v 31 = false →
    (ntc s.mx g).en = true →
    ∃ t, exec (.noticeEnable a g v) s = .next t ∧ ntc t.mx g = { ntc s.mx g with en := false } ∧
      (∀ q, q ≠ g → ntc t.mx q = ntc s.mx q) ∧ t.mx.qe.rings = s.mx.qe.rings ∧ keepsBut [.qe, .cp] s t) ∧
  (∀ (s : State) (a : Agent) (g : Nat) (v : Word), g < 33 → writes a (decide (g = 32)) s (qeNtcOff g 8) → bit v 31 = true →
    (ntc s.mx g).en = true → ∃ t, exec (.noticeEnable a g v) s = .next t ∧ keepsBut [.cp] s t)

/-! ## Commands and the data mover -/

/-- 03_queues.md R129; 04_commands.md R148, R151: an entry that fails a check completes at its turn with the STATUS and
DETAIL of the check, and does nothing else; one whose OPC is no opcode completes with FIELD, detail 0x0500. -/
def Obligations.EntryChecks : Prop :=
  (∀ (s : State) (c : Instr) (r op i st d : Nat) (e : Ent), opcodeOf c = some (r, op) → atTurn s.mx r i e → eOpc e = op →
    entryFault s.mx r e = some (st, d) →
    ∃ t, exec c s = .next t ∧ ent t.mx (eidOf r i) = some (concluded s.mx e st d) ∧
      (∀ q, q ≠ eidOf r i → ent t.mx q = ent s.mx q) ∧
      ring t.mx r = { ring s.mx r with cache := (ring s.mx r).cache.drop 1 } ∧ (∀ q, q ≠ r → ring t.mx q = ring s.mx q) ∧
      t.mx.sb.data = s.mx.sb.data ∧ keepsBut [.ents, .qe, .sb] s t) ∧
  (∀ (s : State) (r i : Nat) (e : Ent), atTurn s.mx r i e → isOpcode (eOpc e) = false → eFlag e 7 = false →
    ∃ t, exec (.unknownOpcode r) s = .next t ∧ ent t.mx (eidOf r i) = some (concluded s.mx e 0x1000 0x0500) ∧
      (∀ q, q ≠ eidOf r i → ent t.mx q = ent s.mx q) ∧
      ring t.mx r = { ring s.mx r with cache := (ring s.mx r).cache.drop 1 } ∧ (∀ q, q ≠ r → ring t.mx q = ring s.mx q) ∧
      keepsBut [.ents, .qe] s t) ∧
  (∀ (s : State) (c : Instr) (r op i : Nat) (e : Ent), opcodeOf c = some (r, op) → atTurn s.mx r i e → eOpc e ≠ op →
    exec c s = .next s)

/-- 01_architecture.md R30; 04_commands.md R190; 12_stage_buffer.md R448: an opcode that needs stage-buffer lines asks its
class for them at its turn, and waits. -/
def Obligations.OpcodesAskForLines : Prop :=
  ∀ (s : State) (c : Instr) (r op i : Nat) (e : Ent), opcodeOf c = some (r, op) → atTurn s.mx r i e → eOpc e = op →
    (c = .read r ∨ c = .program r ∨ c = .copy r ∨ c = .readRaw r ∨ c = .programRaw r ∨ c = .status r ∨
     c = .featureGet r ∨ c = .stripeOpen r ∨ c = .scan r ∨ c = .call r) →
    entryFault s.mx r e = none → resBytes s.mx e ≠ 0 →
    ∃ t f, exec c s = .next t ∧ ent t.mx (eidOf r i) = some f ∧ f.raw = e.raw ∧ f.stage = .waitRes ∧
      (c = .read r ∨ c = .copy r ∨ c = .scan r → f.cws = List.replicate (eNcw e) .pending) ∧
      t.mx.sb = { s.mx.sb with wait := s.mx.sb.wait ++
        [{ owner := .entry (eidOf r i), cls := resClass op, n := (resBytes s.mx e + 127) / 128 }], failed := t.mx.sb.failed } ∧
      (∀ q, q ≠ eidOf r i → ent t.mx q = ent s.mx q) ∧
      ring t.mx r = { ring s.mx r with cache := (ring s.mx r).cache.drop 1 } ∧ (∀ q, q ≠ r → ring t.mx q = ring s.mx q) ∧
      keepsBut [.ents, .qe, .sb, .nl] s t

/-- 01_architecture.md R30, R36; 04_commands.md R160, R171–R173, R190: an opcode that needs no lines is ready for its die
at its turn. 04_commands.md R175, R176, R177: NOP completes with Success at its turn and takes no resource; FENCE
waits for every earlier entry of its ring and is done where there is none; FILL waits for an engine of the data mover. -/
def Obligations.OpcodesGoOn : Prop :=
  (∀ (s : State) (c : Instr) (r op i : Nat) (e : Ent), opcodeOf c = some (r, op) → atTurn s.mx r i e → eOpc e = op →
    (c = .erase r ∨ c = .featureSet r ∨ c = .resetDie r ∨ (c = .call r ∧ eArg0 e / 2 ^ 30 = 0)) →
    entryFault s.mx r e = none →
    ∃ t, exec c s = .next t ∧ ent t.mx (eidOf r i) = some { e with stage := .toPlace } ∧
      (∀ q, q ≠ eidOf r i → ent t.mx q = ent s.mx q) ∧
      ring t.mx r = { ring s.mx r with cache := (ring s.mx r).cache.drop 1 } ∧ (∀ q, q ≠ r → ring t.mx q = ring s.mx q) ∧
      keepsBut [.ents, .qe] s t) ∧
  (∀ (s : State) (r i : Nat) (e : Ent), atTurn s.mx r i e → eOpc e = 0x19 → entryFault s.mx r e = none →
    ∃ t, exec (.nop r) s = .next t ∧ ent t.mx (eidOf r i) = some (concluded s.mx e 0 0) ∧
      (∀ q, q ≠ eidOf r i → ent t.mx q = ent s.mx q) ∧
      ring t.mx r = { ring s.mx r with cache := (ring s.mx r).cache.drop 1 } ∧ (∀ q, q ≠ r → ring t.mx q = ring s.mx q) ∧
      keepsBut [.ents, .qe] s t) ∧
  (∀ (s : State) (r i : Nat) (e : Ent), atTurn s.mx r i e → i < 131072 → eOpc e = 0x1A → entryFault s.mx r e = none →
    ∃ t, exec (.fence r) s = .next t ∧ (ring t.mx r).fence = some i ∧
      ent t.mx (eidOf r i) = some (if earlierOpen s.mx r (eidOf r i) then { e with stage := .fenced }
                                   else concluded s.mx e 0 0) ∧
      ring t.mx r = { ring s.mx r with cache := (ring s.mx r).cache.drop 1, fence := some i } ∧
      (∀ q, q ≠ r → ring t.mx q = ring s.mx q) ∧
      (∀ q, q ≠ eidOf r i → ent t.mx q = ent s.mx q) ∧ keepsBut [.ents, .qe] s t) ∧
  (∀ (s : State) (r i : Nat) (e : Ent), atTurn s.mx r i e → i < 131072 → eOpc e = 0x28 → entryFault s.mx r e = none →
    portEngOff s.mx (ringPort s.mx r) = false →
    ∃ t x, exec (.fill r) s = .next t ∧ ent t.mx (eidOf r i) = some { e with stage := .xferIn } ∧
      t.mx.dx = { s.mx.dx with queue := s.mx.dx.queue ++ [x] } ∧ x.owner = .fill (eidOf r i) ∧
      x.pat = some (word (eArg0 e)) ∧ x.left = eLen e ∧ x.toHost = (eArg1 e).testBit 0 ∧ x.port = ringPort s.mx r ∧
      x.parts = (if (eArg1 e).testBit 0 then rawPart e (dataSide e) else []) ∧
      (∀ q, q ≠ eidOf r i → ent t.mx q = ent s.mx q) ∧
      ring t.mx r = { ring s.mx r with cache := (ring s.mx r).cache.drop 1 } ∧ (∀ q, q ≠ r → ring t.mx q = ring s.mx q) ∧
      keepsBut [.ents, .qe, .dx] s t) ∧
  (∀ (s : State) (r i : Nat) (e : Ent), atTurn s.mx r i e → i < 131072 → eOpc e = 0x28 → entryFault s.mx r e = none →
    portEngOff s.mx (ringPort s.mx r) = true → e.stripe = none → e.admitted = false →
    ∃ t, exec (.fill r) s = .next t ∧ ent t.mx (eidOf r i) = some (concluded s.mx e 0x0200 6) ∧
      (∀ q, q ≠ eidOf r i → ent t.mx q = ent s.mx q) ∧ t.mx.st.stripes = s.mx.st.stripes ∧
      keepsBut [.ents, .qe, .st] s t)

/-- 10_stripes.md R380, R391, R392: STRIPE_CLOSE asks for its lines where its stripe is OPEN, and fails FIELD otherwise.
REBUILD asks the data mover for the map entry of its die and row, fails FIELD where the map is off or its stripe is
not FREE, waits for its lines once the entry has come, and takes its stripe with them. -/
def Obligations.StripeOpcodes : Prop :=
  (∀ (s : State) (r i : Nat) (e : Ent), atTurn s.mx r i e → eOpc e = 0x11 → entryFault s.mx r e = none →
    (stripe s.mx (eStripe e)).state = 1 → resBytes s.mx e ≠ 0 →
    ∃ t, exec (.stripeClose r) s = .next t ∧ ent t.mx (eidOf r i) = some { e with stage := .waitRes } ∧
      t.mx.sb = { s.mx.sb with wait := s.mx.sb.wait ++
        [{ owner := .entry (eidOf r i), cls := 3, n := (resBytes s.mx e + 127) / 128 }], failed := t.mx.sb.failed } ∧
      (∀ q, q ≠ eidOf r i → ent t.mx q = ent s.mx q) ∧
      ring t.mx r = { ring s.mx r with cache := (ring s.mx r).cache.drop 1 } ∧ (∀ q, q ≠ r → ring t.mx q = ring s.mx q) ∧
      keepsBut [.ents, .qe, .sb] s t) ∧
  (∀ (s : State) (r i : Nat) (e : Ent), atTurn s.mx r i e → eOpc e = 0x11 → entryFault s.mx r e = none →
    (stripe s.mx (eStripe e)).state ≠ 1 →
    ∃ t, exec (.stripeClose r) s = .next t ∧ ent t.mx (eidOf r i) = some (concluded s.mx e 0x1000 0x0424) ∧
      (∀ q, q ≠ eidOf r i → ent t.mx q = ent s.mx q) ∧
      ring t.mx r = { ring s.mx r with cache := (ring s.mx r).cache.drop 1 } ∧ (∀ q, q ≠ r → ring t.mx q = ring s.mx q) ∧
      keepsBut [.ents, .qe] s t) ∧
  (∀ (s : State) (r i : Nat) (e : Ent), atTurn s.mx r i e → eOpc e = 0x12 → entryFault s.mx r e = none →
    mapOn s.mx = true → portEngOff s.mx (ringPort s.mx r) = false → i < 131072 →
    ∃ t x, exec (.rebuild r .held) s = .next t ∧ ent t.mx (eidOf r i) = some { e with stage := .stripeWork } ∧
      walkOf t.mx (eidOf r i) = { row := eRow e } ∧ t.mx.dx = { s.mx.dx with queue := s.mx.dx.queue ++ [x] } ∧
      x.owner = .stMap (eidOf r i) ∧ x.port = ringPort s.mx r ∧ x.toHost = false ∧ x.lines = [] ∧
      x.parts = flatParts (mapAddr s.mx (eDie e) (eRow e)) 0 8 ∧
      (∀ q, q ≠ eidOf r i → ent t.mx q = ent s.mx q) ∧ t.mx.st.stripes = s.mx.st.stripes ∧
      ring t.mx r = { ring s.mx r with cache := (ring s.mx r).cache.drop 1 } ∧ (∀ q, q ≠ r → ring t.mx q = ring s.mx q) ∧
      keepsBut [.ents, .qe, .dx, .st] s t) ∧
  (∀ (s : State) (r i : Nat) (e : Ent), atTurn s.mx r i e → eOpc e = 0x12 → entryFault s.mx r e = none →
    mapOn s.mx = false →
    ∃ t, exec (.rebuild r .held) s = .next t ∧ ent t.mx (eidOf r i) = some (concluded s.mx e 0x1000 0x0408) ∧
      (∀ q, q ≠ eidOf r i → ent t.mx q = ent s.mx q) ∧
      ring t.mx r = { ring s.mx r with cache := (ring s.mx r).cache.drop 1 } ∧ (∀ q, q ≠ r → ring t.mx q = ring s.mx q) ∧
      keepsBut [.ents, .qe] s t) ∧
  (∀ (s : State) (ee eid a : Nat) (e : Ent) (x : Xfer) (l : List Byte), ee < 64 → (engine s.mx ee).cur = some x →
    x.owner = .stMap eid → x.pieces = [] → x.parts = [] → x.stop = none → x.lines = [(a, l)] → ent s.mx eid = some e →
    eOpc e = 0x12 → (walkOf s.mx eid).at_ = .first → (mapEnt (leAt l 0 8)).valid = true →
    (stripe s.mx (eStripe e)).state = 0 →
    ∃ t, exec (.transferDone ee) s = .next t ∧ (engine t.mx ee).cur = none ∧
      ent t.mx eid = some { e with stage := .waitRes, rbProf := (mapEnt (leAt l 0 8)).prof } ∧
      walkOf t.mx eid = { walkOf s.mx eid with npar := (mapEnt (leAt l 0 8)).npar } ∧
      t.mx.sb = { s.mx.sb with wait := s.mx.sb.wait ++
        [{ owner := .entry eid, cls := 3, n := (16 * frameLen (mapEnt (leAt l 0 8)).prof + 127) / 128 }], failed := t.mx.sb.failed } ∧
      (∀ q, q ≠ eid → ent t.mx q = ent s.mx q) ∧ t.mx.st.stripes = s.mx.st.stripes ∧ keepsBut [.dx, .ents, .sb, .st] s t) ∧
  (∀ (s : State) (ee eid a : Nat) (e : Ent) (x : Xfer) (l : List Byte), ee < 64 → (engine s.mx ee).cur = some x →
    x.owner = .stMap eid → x.pieces = [] → x.parts = [] → x.stop = none → x.lines = [(a, l)] → ent s.mx eid = some e →
    eOpc e = 0x12 → e.stripe = none → (walkOf s.mx eid).at_ = .first → (walkOf s.mx eid).held = false →
    (mapEnt (leAt l 0 8)).valid = true → (stripe s.mx (eStripe e)).state ≠ 0 →
    ∃ t, exec (.transferDone ee) s = .next t ∧ (engine t.mx ee).cur = none ∧
      ent t.mx eid = some (concluded s.mx e 0x1000 0x0424) ∧ (∀ q, q ≠ eid → ent t.mx q = ent s.mx q) ∧
      t.mx.st.stripes = s.mx.st.stripes ∧ keepsBut [.dx, .ents, .st] s t) ∧
  (∀ (s : State) (eid : Nat) (e : Ent) (q : RReq) (ls : List Nat), nextGrant s.mx = some q → q.owner = .entry eid →
    grantable s.mx q.n ls = true → ent s.mx eid = some e → e.stage = .waitRes → eOpc e = 0x12 → rbCount e ≠ 0 →
    (stripe s.mx (eStripe e)).state = 0 →
    ∃ t, exec (.reservationGrant q.cls ls) s = .next t ∧ ent t.mx eid = some { e with stage := .stripeWork } ∧
      stripe t.mx (eStripe e) = { state := 3, profile := e.rbProf, npar := (walkOf s.mx eid).npar } ∧
      (∀ k, k ≠ eStripe e → stripe t.mx k = stripe s.mx k) ∧
      walkOf t.mx eid = { walkOf s.mx eid with held := true, at_ := .idle } ∧
      t.mx.sb = { s.mx.sb with wait := s.mx.sb.wait.erase q,
                               resv := s.mx.sb.resv ++ [{ owner := .entry eid, cls := q.cls, lines := ls }], failed := t.mx.sb.failed } ∧
      (∀ k, k ≠ eid → ent t.mx k = ent s.mx k) ∧ keepsBut [.ents, .sb, .st] s t)

/-- 12_stage_buffer.md R448, R449, R450; 01_architecture.md R31, R36; 04_commands.md R173, R174: lines are granted to the
oldest request of the class that may be served next, where they are free, unfenced, distinct and in consecutive banks
as far as free lines allow. A request is tested at once where it is its class's oldest, and again, once it has failed,
when lines are released; an opcode with nothing to fetch then goes to its die, and another's data come from host
memory first. 04_commands.md R177, R178: a FILL of the stage buffer writes its pattern into every line it names that
no reservation holds, and changes no other byte of the stage buffer. 04_commands.md R177, R184, R185, R187, R188,
R192, R193: an engine takes the oldest transfer of its port and asks for its bytes, or writes the pattern of a FILL;
the end of a transfer frees the engine, and the entry goes on or ends; a transfer still at work has no end; DISABLE
stops an engine and aborts the entry it served, whose requests not yet issued are withdrawn. -/
def Obligations.LinesAndTransfers : Prop :=
  (∀ (s : State) (eid : Nat) (e : Ent) (q : RReq) (ls : List Nat), nextGrant s.mx = some q → q.owner = .entry eid →
    grantable s.mx q.n ls = true → ent s.mx eid = some e → e.stage = .waitRes →
    eOpc e = 1 ∨ eOpc e = 5 ∨ eOpc e = 8 ∨ eOpc e = 0x0A ∨ eOpc e = 0x20 ∨ (eOpc e = 4 ∧ eStriped e = false) ∨
      (eOpc e = 0x18 ∧ (eArg0 e).testBit 30 = false) →
    ∃ t, exec (.reservationGrant q.cls ls) s = .next t ∧ ent t.mx eid = some { e with stage := .toPlace } ∧
      t.mx.sb = { s.mx.sb with wait := s.mx.sb.wait.erase q,
                               resv := s.mx.sb.resv ++ [{ owner := .entry eid, cls := q.cls, lines := ls }], failed := t.mx.sb.failed } ∧
      (∀ q, q ≠ eid → ent t.mx q = ent s.mx q) ∧ keepsBut [.ents, .sb] s t) ∧
  (∀ (s : State) (eid : Nat) (e : Ent) (q : RReq) (ls : List Nat) (ps : List Part), nextGrant s.mx = some q →
    q.owner = .entry eid → grantable s.mx q.n ls = true → ent s.mx eid = some e → e.stage = .waitRes →
    (eOpc e = 2 ∧ eStriped e = false ∧ eMptr e ≠ 0 ∧ ps = pageParts e (fun _ => true) ∨
     eOpc e = 6 ∧ ps = rawPart e (dataSide e) ∨ eOpc e = 0x10 ∧ ps = rawPart e (.flat (eDptr e)) ∨
     eOpc e = 0x18 ∧ (eArg0 e).testBit 30 = true ∧ ps = rawPart e (.flat (eDptr e))) →
    portEngOff s.mx (ringPort s.mx (eidRing eid)) = false →
    ∃ t, exec (.reservationGrant q.cls ls) s = .next t ∧ ent t.mx eid = some { e with stage := .xferIn } ∧
      t.mx.sb = { s.mx.sb with wait := s.mx.sb.wait.erase q,
                               resv := s.mx.sb.resv ++ [{ owner := .entry eid, cls := q.cls, lines := ls }], failed := t.mx.sb.failed } ∧
      t.mx.dx = { s.mx.dx with queue := s.mx.dx.queue ++
        [{ owner := .entryIn eid, port := ringPort s.mx (eidRing eid), ring := eidRing eid, opc := eOpc e, toHost := false,
           parts := ps, left := partsLen ps, lines := e.chain }] } ∧
      (∀ q, q ≠ eid → ent t.mx q = ent s.mx q) ∧ keepsBut [.ents, .sb, .dx] s t) ∧
  (∀ (s : State) (c : Nat) (ls : List Nat), (∀ q, nextGrant s.mx = some q → q.cls ≠ c ∨ grantable s.mx q.n ls = false) →
    exec (.reservationGrant c ls) s = .next s) ∧
  (∀ (m : Mx) (o : ROwner) (c n k : Nat), c < 5 → k < 5 →
    let t := askResv m o c n
    (k ∈ t.sb.failed ↔ (oldest t k).any (fun r => m.sb.failed.contains k || !grantOk t r.cls r.n) = true)) ∧
  (∀ (m : Mx) (o : ROwner) (k : Nat), k < 5 → m.sb.resv.any (fun r => r.owner == o) = true →
    let t := freeResv m o
    resvOf t o = none ∧ (k ∈ t.sb.failed ↔ (oldest t k).any (fun r => !grantOk t r.cls r.n) = true)) ∧
  (∀ (s : State) (ee eid : Nat) (e : Ent) (x : Xfer), ee < 64 → (engine s.mx ee).cur = none → engOff s.mx ee = false →
    s.mx.gl.phase ≠ .warm → nextXfer s.mx (ee / 16) = some x → x.owner = .fill eid → x.toHost = false → x.parts = [] →
    ent s.mx eid = some e →
    ∃ t, exec (.dxTransferStart ee) s = .next t ∧ (engine t.mx ee).cur = some { x with left := 0 } ∧
      (∀ a, memGet t.mx.sb.data a =
        (if eDptr e / 128 ≤ a / 128 ∧ a / 128 < eDptr e / 128 + eLen e / 128 ∧ reserved s.mx (a / 128) = false
         then patByte (word (eArg0 e)) (a % 128) else memGet s.mx.sb.data a)) ∧
      t.mx.sb.resv = s.mx.sb.resv ∧ keepsBut [.dx, .sb] s t) ∧
  (∀ (s : State) (ee eid a n : Nat) (x : Xfer), ee < 64 → (engine s.mx ee).cur = none → engOff s.mx ee = false →
    s.mx.gl.phase ≠ .warm → nextXfer s.mx (ee / 16) = some x → x.owner = .entryIn eid → x.toHost = false → x.stop = none →
    x.walk = {} → x.pieces = [] → x.parts = [{ side := .flat a, runs := [{ off := 0, len := n }] }] → 0 < n →
    n ≤ 4096 - a % 4096 → parked s.mx x.port →
    ∃ t, exec (.dxTransferStart ee) s = .next t ∧
      engine t.mx ee = { cur := some { x with parts := [], pieces := [{ id := s.mx.dx.ids, addr := a,
                                                                         runs := [{ off := 0, len := n }] }] },
                         resid := x.left } ∧
      t.mx.dx.queue = s.mx.dx.queue.filter (fun y => y.owner != x.owner) ∧
      (∀ k, k ≠ ee → engine t.mx k = engine s.mx k) ∧ t.mx.dx.ids = s.mx.dx.ids + 1 ∧
      (port t.mx x.port).waiting = [readReq a n (.xfer ee s.mx.dx.ids)] ∧
      (∀ p, p ≠ x.port → port t.mx p = port s.mx p) ∧ keepsBut [.dx, .hp] s t) ∧
  (∀ (s : State) (ee eid a n : Nat) (e : Ent) (w : Word) (x : Xfer), ee < 64 → (engine s.mx ee).cur = none →
    engOff s.mx ee = false → s.mx.gl.phase ≠ .warm → nextXfer s.mx (ee / 16) = some x → x.owner = .fill eid →
    x.toHost = true → x.pat = some w → x.stop = none → x.walk = {} → x.pieces = [] →
    x.parts = [{ side := .flat a, runs := [{ off := 0, len := n }] }] → 0 < n → n ≤ 4096 - a % 4096 → parked s.mx x.port →
    ent s.mx eid = some e →
    ∃ t, exec (.dxTransferStart ee) s = .next t ∧
      (engine t.mx ee).cur = some { x with parts := [], pieces := [{ id := s.mx.dx.ids, addr := a,
                                                                     runs := [{ off := 0, len := n }] }] } ∧
      (port t.mx x.port).waiting =
        [writeReq .write a ((List.range n).map (fun i => patByte w (a + i))) (.xfer ee s.mx.dx.ids)] ∧
      (∀ p, p ≠ x.port → port t.mx p = port s.mx p) ∧ keepsBut [.dx, .hp] s t) ∧
  (∀ (s : State) (ee : Nat), ((engine s.mx ee).cur ≠ none ∨ engOff s.mx ee = true ∨ s.mx.gl.phase = .warm ∨
      nextXfer s.mx (ee / 16) = none) →
    exec (.dxTransferStart ee) s = .next s) ∧
  (∀ (s : State) (ee eid : Nat) (e : Ent) (x : Xfer), ee < 64 → (engine s.mx ee).cur = some x → x.owner = .entryIn eid →
    x.toHost = false → x.pieces = [] → x.parts = [] → x.stop = none → x.bad = [] → ent s.mx eid = some e →
    (eOpc e = 6 ∨ eOpc e = 0x18 ∨ eOpc e = 2 ∧ e.stripe.isSome = true) →
    ∃ t, exec (.transferDone ee) s = .next t ∧ engine t.mx ee = { engine s.mx ee with cur := none } ∧
      (∀ k, k ≠ ee → engine t.mx k = engine s.mx k) ∧
      ent t.mx eid = some { e with stage := if eOpc e = 2 then .pass else .toPlace, chain := x.lines } ∧
      (∀ q, q ≠ eid → ent t.mx q = ent s.mx q) ∧ keepsBut [.dx, .ents] s t) ∧
  (∀ (s : State) (ee eid : Nat) (e : Ent) (x : Xfer), ee < 64 → (engine s.mx ee).cur = some x → x.owner = .fill eid →
    x.pieces = [] → x.parts = [] → x.stop = none → x.bad = [] → ent s.mx eid = some e → eOpc e = 0x28 → e.stripe = none →
    ∃ t f, exec (.transferDone ee) s = .next t ∧ engine t.mx ee = { engine s.mx ee with cur := none } ∧
      (∀ k, k ≠ ee → engine t.mx k = engine s.mx k) ∧
      ent t.mx eid = some f ∧ f.raw = e.raw ∧ f.stage = .final ∧ f.status = 0 ∧ f.detail = 0 ∧ f.partF = false ∧
      f.tdone = s.mx.md.time ∧ (∀ q, q ≠ eid → ent t.mx q = ent s.mx q) ∧ keepsBut [.dx, .ents] s t) ∧
  (∀ (s : State) (ee eid : Nat) (e : Ent) (x : Xfer), ee < 64 → (engine s.mx ee).cur = some x → x.owner = .entryOut eid →
    x.pieces = [] → x.parts = [] → x.stop = none → x.bad = [] → ent s.mx eid = some e → eOpc e = 1 → e.stripe = none →
    ∃ t f, exec (.transferDone ee) s = .next t ∧ engine t.mx ee = { engine s.mx ee with cur := none } ∧
      (∀ k, k ≠ ee → engine t.mx k = engine s.mx k) ∧
      ent t.mx eid = some f ∧ f.raw = e.raw ∧ f.stage = .final ∧ f.status = (outcome e.cws).1 ∧
      f.detail = (outcome e.cws).2 ∧ f.cws = e.cws ∧
      f.cwfail = cwMask e.cws.length (fun i => !(cwAt e i).delivered) ∧ f.tdone = s.mx.md.time ∧
      (∀ q, q ≠ eid → ent t.mx q = ent s.mx q) ∧ keepsBut [.dx, .ents] s t) ∧
  (∀ (s : State) (ee eid : Nat) (e : Ent) (x : Xfer) (st dt : Nat), ee < 64 → (engine s.mx ee).cur = some x →
    x.owner = .entryIn eid → x.toHost = false → x.pieces = [] → x.stop = some ⟨st, dt⟩ → st ≠ 0x0200 → ent s.mx eid = some e →
    eOpc e = 6 → e.stripe = none →
    ∃ t, exec (.transferDone ee) s = .next t ∧ engine t.mx ee = { engine s.mx ee with cur := none } ∧
      (∀ k, k ≠ ee → engine t.mx k = engine s.mx k) ∧
      ent t.mx eid = some (concluded s.mx { e with chain := x.lines } st dt) ∧
      (∀ q, q ≠ eid → ent t.mx q = ent s.mx q) ∧ keepsBut [.dx, .ents] s t) ∧
  (∀ (s : State) (ee : Nat), ((engine s.mx ee).cur = none ∨ (∃ x, (engine s.mx ee).cur = some x ∧ xferEnded x = false)) →
    exec (.transferDone ee) s = .next s) ∧
  (∀ (s : State) (ee : Nat), ee < 64 → carried s (dxEngOff ee) → (engine s.mx ee).cur = none → s.mx.dx.queue = [] →
    ∃ t, exec (.disable ee) s = .next t ∧ reg t.mx (dxEngOff ee) = 1 ∧
      (∀ o, o ≠ dxEngOff ee → reg t.mx o = reg s.mx o) ∧ keepsBut [.regs, .cp] s t) ∧
  (∀ (s : State) (ee eid : Nat) (e : Ent) (x : Xfer), ee < 64 → carried s (dxEngOff ee) →
    s.mx.dx.queue.all (fun y => y.port != ee / 16) = true → (engine s.mx ee).cur = some x → xEid x.owner = eid →
    ent s.mx eid = some e → e.stripe = none → eOpc e ≠ 0x11 → eOpc e ≠ 0x12 →
    ∃ t f, exec (.disable ee) s = .next t ∧ reg t.mx (dxEngOff ee) = 1 ∧ (engine t.mx ee).cur = none ∧
      (∀ o, o ≠ dxEngOff ee → reg t.mx o = reg s.mx o) ∧ (∀ k, k ≠ ee → engine t.mx k = engine s.mx k) ∧
      ent t.mx eid = some f ∧ f.raw = e.raw ∧ f.stage = .final ∧ f.status = 0x0200 ∧ f.detail = 6 ∧ f.partF = e.admitted ∧
      f.tdone = s.mx.md.time ∧
      (port t.mx x.port).waiting = (port s.mx x.port).waiting.filter (fun r => x.pieces.all (fun p => r.why != .xfer ee p.id)) ∧
      (∀ p, p ≠ x.port → port t.mx p = port s.mx p) ∧ (∀ q, q ≠ eid → ent t.mx q = ent s.mx q) ∧
      t.mx.dx.queue = s.mx.dx.queue ∧ t.mx.st.stripes = s.mx.st.stripes ∧ t.mx.sb.data = s.mx.sb.data ∧
      keepsBut [.regs, .cp, .dx, .ents, .free, .hp, .st, .sb] s t)

/-! ## Channel engines and dies -/

/-- 05_channel_engine.md R195, R199, R217, R221, 08_codec.md R302: an entry that reaches its die takes a place, adopts the
die's read-ahead, or joins the wait list while all eight places are taken or a lock keeps its ring out; a dead die, or
a geometry that cannot carry it, ends it. 05_channel_engine.md R196, R212; 06_microcode.md R235, R257, R262;
02_boundary.md R85: a context that is free starts its next item at the address of the item's kind; an entry that the
loaded image does not allow ends FIELD; a context with nothing to start, or of a disabled channel, starts nothing.
05_channel_engine.md R197, R198; 02_boundary.md R86; 11_meridian_transit.md R429: the marks, and the outcome of a
die's recovery, which sends RESET (FFh) once Transit admits it, in class 3, and the bus is granted; each change of
state raises CH_DIE (271), a die of a Fervon group that shows ready waits for the group's re-entry, and a mark that
does not apply leaves only a record. -/
def Obligations.DieWork : Prop :=
  (∀ (s : State) (r i : Nat) (e : Ent), ent s.mx (eidOf r i) = some e → e.stage = .toPlace → e.dst = false →
    eOpc e ≠ 0x11 → (die s.mx (eDie e)).state = 0 → (die s.mx (eDie e)).absent = false → geomFault s.mx (eDie e) e = none →
    lockOut (die s.mx (eDie e)) (eidRing (eidOf r i)) = false → (die s.mx (eDie e)).spec = none →
    (die s.mx (eDie e)).queue.length < 8 →
    ∃ t, exec (.entryPlace r i) s = .next t ∧ ent t.mx (eidOf r i) = some { e with stage := .placed, arr := true } ∧
      die t.mx (eDie e) = { die s.mx (eDie e) with queue := (die s.mx (eDie e)).queue ++ [.entry (eidOf r i)] } ∧
      (∀ d, d ≠ eDie e → die t.mx d = die s.mx d) ∧ (∀ q, q ≠ eidOf r i → ent t.mx q = ent s.mx q) ∧
      keepsBut [.ents, .die] s t) ∧
  (∀ (s : State) (r i : Nat) (e : Ent), ent s.mx (eidOf r i) = some e → e.stage = .toPlace → e.dst = false →
    eOpc e ≠ 0x11 → (die s.mx (eDie e)).state = 0 → (die s.mx (eDie e)).absent = false → geomFault s.mx (eDie e) e = none →
    (8 ≤ (die s.mx (eDie e)).queue.length ∨ lockOut (die s.mx (eDie e)) (eidRing (eidOf r i)) = true) →
    ∃ t, exec (.entryPlace r i) s = .next t ∧ ent t.mx (eidOf r i) = some { e with stage := .placed, arr := true } ∧
      die t.mx (eDie e) = { die s.mx (eDie e) with wait := (die s.mx (eDie e)).wait ++ [eidOf r i] } ∧
      (∀ d, d ≠ eDie e → die t.mx d = die s.mx d) ∧ (∀ q, q ≠ eidOf r i → ent t.mx q = ent s.mx q) ∧
      keepsBut [.ents, .die] s t) ∧
  (∀ (s : State) (r i : Nat) (e : Ent), ent s.mx (eidOf r i) = some e → e.stage = .toPlace → eOpc e = 3 →
    e.dst = false → e.stripe = none → e.admitted = false → (die s.mx (eDie e)).state = 2 →
    ∃ t, exec (.entryPlace r i) s = .next t ∧ ent t.mx (eidOf r i) = some (concluded s.mx e 0x2500 1) ∧
      (∀ q, q ≠ eidOf r i → ent t.mx q = ent s.mx q) ∧ t.mx.st.stripes = s.mx.st.stripes ∧ keepsBut [.ents, .st] s t) ∧
  (∀ (s : State) (r i f : Nat) (e : Ent), ent s.mx (eidOf r i) = some e → e.stage = .toPlace →
    eOpc e = 1 ∨ eOpc e = 2 ∨ eOpc e = 5 ∨ eOpc e = 6 ∨ eOpc e = 0x20 →
    e.dst = false → e.stripe = none → (die s.mx (eDie e)).state = 0 → geomFault s.mx (eDie e) e = some f →
    ∃ t, exec (.entryPlace r i) s = .next t ∧ ent t.mx (eidOf r i) = some (concluded s.mx e 0x1000 f) ∧
      (∀ q, q ≠ eidOf r i → ent t.mx q = ent s.mx q) ∧
      t.mx.sb.resv = s.mx.sb.resv.filter (fun q => q.owner != .entry (eidOf r i)) ∧ t.mx.sb.data = s.mx.sb.data ∧
      keepsBut [.ents, .sb] s t) ∧
  (∀ (s : State) (r i : Nat) (e : Ent) (a : Ahead), r < 264 → i < 131072 → ent s.mx (eidOf r i) = some e →
    e.stage = .toPlace → e.dst = false → (die s.mx (eDie e)).state = 0 → (die s.mx (eDie e)).absent = false →
    geomFault s.mx (eDie e) e = none → lockOut (die s.mx (eDie e)) r = false → (die s.mx (eDie e)).spec = some a →
    mayAdopt e (die s.mx (eDie e)) = true → (die s.mx (eDie e)).cur = some .spec → (die s.mx (eDie e)).aside = none →
    (die s.mx (eDie e)).queue.length < 8 →
    ∃ t, exec (.entryPlace r i) s = .next t ∧
      ent t.mx (eidOf r i) = some { e with stage := .placed, arr := true, specUsed := true, base := a.base, bin := a.bin,
                                           admitted := true } ∧
      die t.mx (eDie e) = { die s.mx (eDie e) with queue := (die s.mx (eDie e)).queue ++ [.entry (eidOf r i)],
                                                   cur := some (.entry (eidOf r i)), adopt := true, spec := none,
                                                   frame := { (die s.mx (eDie e)).frame with ahead := false } } ∧
      ent t.mx (specEid (eDie e)) = none ∧ (∀ d, d ≠ eDie e → die t.mx d = die s.mx d) ∧
      (∀ q, q ≠ eidOf r i → q ≠ specEid (eDie e) → ent t.mx q = ent s.mx q) ∧ keepsBut [.ents, .die, .sb] s t) ∧
  (∀ (s : State) (r i : Nat), (ent s.mx (eidOf r i) = none ∨
      (∃ e, ent s.mx (eidOf r i) = some e ∧ e.stage ≠ .toPlace)) → exec (.entryPlace r i) s = .next s) ∧
  (∀ (s : State) (c k : Nat) (i : Item), c < 128 → k < 16 → chEnabled s.mx c = true → (die s.mx (dieOf c k)).cur = none →
    mayStart s.mx (dieOf c k) = true → nextItem s.mx (dieOf c k) = some i →
    (i = .grpInit ∨ threadReady s.mx (dieCh (dieOf c k)) = true) →
    (isWrite i = false ∨ (die s.mx (dieOf c k)).state ≠ 2) →
    (∀ e, itemEnt s.mx (dieOf c k) i = some e → startRefused s.mx (dieGrp (dieOf c k)) e = false) →
    itemAddr s.mx (dieOf c k) i ≠ 0xFFFF →
    ∃ t, exec (.workItemStart c k) s = .next t ∧
      die t.mx (dieOf c k) = { die s.mx (dieOf c k) with
        cur := some i, frame := { active := true, pc := itemAddr s.mx (dieOf c k) i },
        ahead := (die s.mx (dieOf c k)).ahead.erase i, suspInt := (die s.mx (dieOf c k)).suspInt.erase i,
        suspLeft := (die s.mx (dieOf c k)).suspLeft.filter (fun e => !(itemEntries i).contains e),
        suspN := if (die s.mx (dieOf c k)).held.isSome then (die s.mx (dieOf c k)).suspN else 0 } ∧
      (∀ d, d ≠ dieOf c k → die t.mx d = die s.mx d) ∧ keepsBut [.die] s t) ∧
  (∀ (s : State) (c k eid : Nat) (e : Ent), c < 128 → k < 16 → chEnabled s.mx c = true → (die s.mx (dieOf c k)).cur = none →
    mayStart s.mx (dieOf c k) = true → nextItem s.mx (dieOf c k) = some (.entry eid) →
    threadReady s.mx (dieCh (dieOf c k)) = true → ent s.mx eid = some e → eOpc e = 9 ∨ eOpc e = 0x18 →
    startRefused s.mx (dieGrp (dieOf c k)) e = true → e.stripe = none →
    ∃ t, exec (.workItemStart c k) s = .next t ∧
      ent t.mx eid = some (concluded s.mx { e with arr := false } 0x1000 0x0230) ∧ (die t.mx (dieOf c k)).cur = none ∧
      (∀ d, d ≠ dieOf c k → die t.mx d = die s.mx d) ∧ (∀ q, q ≠ eid → ent t.mx q = ent s.mx q) ∧
      keepsBut [.die, .ents] s t) ∧
  (∀ (s : State) (c k : Nat), c < 128 → k < 16 → ((die s.mx (dieOf c k)).cur ≠ none ∨ mayStart s.mx (dieOf c k) = false ∨
      chEnabled s.mx c = false ∨ nextItem s.mx (dieOf c k) = none) → exec (.workItemStart c k) s = .next s) ∧
  (∀ (s : State) (d : Nat), d < 2048 → carried s (dstOff d) → (die s.mx d).absent = false → (die s.mx d).state = 0 →
    (die s.mx d).spec = none → (∀ i ∈ (die s.mx d).ahead, isRead i = false) →
    ∃ t, exec (.markSuspect d) s = .next t ∧
      die t.mx d = { die s.mx d with state := 1, ahead := (die s.mx d).ahead.filter (fun i => i == .grpInit) ++
                                                          .recover :: (die s.mx d).ahead.filter (fun i => i != .grpInit) } ∧ 271 ∈ t.mx.ic.pend ∧
      (∀ x, x ≠ d → die t.mx x = die s.mx x) ∧ keepsBut (.die :: .cp :: onRaise) s t) ∧
  (∀ (s : State) (d : Nat), d < 2048 → carried s (dstOff d) → (die s.mx d).absent = false → (die s.mx d).state ≠ 2 →
    (die s.mx d).queue = [] → (die s.mx d).wait = [] → (die s.mx d).ahead = [] →
    ∃ t, exec (.markDead d) s = .next t ∧
      die t.mx d = { die s.mx d with state := 2, spec := none, cancel := false, adopt := false, holdx := false,
                                     recAgain := false } ∧ 271 ∈ t.mx.ic.pend ∧
      (∀ x, x ≠ d → die t.mx x = die s.mx x) ∧ (∀ q, q ≠ specEid d → ent t.mx q = ent s.mx q) ∧
      t.mx.sb.data = s.mx.sb.data ∧ keepsBut (.die :: .cp :: .ents :: .sb :: .tr :: .ph :: .ch :: onRaise) s t) ∧
  (∀ (s : State) (d : Nat), d < 2048 → carried s (dstOff d) → (die s.mx d).absent = false → (die s.mx d).state = 2 →
    ∃ t, exec (.clearDead d) s = .next t ∧
      die t.mx d = { die s.mx d with state := 1, ahead := (die s.mx d).ahead.filter (fun i => i == .grpInit) ++
                                                          .recover :: (die s.mx d).ahead.filter (fun i => i != .grpInit) } ∧ 271 ∈ t.mx.ic.pend ∧
      (∀ x, x ≠ d → die t.mx x = die s.mx x) ∧ keepsBut (.die :: .cp :: .ph :: .ch :: onRaise) s t) ∧
  (∀ (s : State) (d k : Nat) (c : Instr), d < 2048 → carried s (dstOff d) →
    (c = .markSuspect d ∧ k = 1 ∧ ((die s.mx d).absent = true ∨ (die s.mx d).state ≠ 0) ∨
     c = .markDead d ∧ k = 2 ∧ ((die s.mx d).absent = true ∨ (die s.mx d).state = 2) ∨
     c = .clearDead d ∧ k = 3 ∧ ((die s.mx d).absent = true ∨ (die s.mx d).state ≠ 2)) →
    ∃ t, exec c s = .next t ∧ t.mx.nl = (log s.mx .markRefused d k).nl ∧ keepsBut [.cp, .nl] s t) ∧
  (∀ (s : State) (d : Nat) (a b : Option Byte), d < 2048 → (die s.mx d).state = 1 → (die s.mx d).cur = none →
    (die s.mx d).held = none → (die s.mx d).ahead.head? = some .recover → mayStart s.mx d = true →
    threadReady s.mx (dieCh d) = true → busFor s.mx d = true → chEnabled s.mx (dieCh d) = true → recoverFits s.mx d = true →
    (showsReady a || (!(die s.mx d).recAgain && showsReady b)) = true → (phy s.mx (dieGrp d)).mode ≠ 4 →
    ∃ t, exec (.dieRecovery d a b) s = .next t ∧
      die t.mx d = { die s.mx d with state := 0, ahead := (die s.mx d).ahead.drop 1, busy := none, recAgain := false,
                                     mode := (phy s.mx (dieGrp d)).mode } ∧ 271 ∈ t.mx.ic.pend ∧
      chan t.mx (dieCh d) = { chan s.mx (dieCh d) with
        owner := if (chan s.mx (dieCh d)).pend.isEmpty then some (dieCtx d) else none, bytes := 0, since := s.mx.md.time,
        drive := { cyc := 1, bytes := [0xFF] } } ∧
      (∀ c, c ≠ dieCh d → chan t.mx c = chan s.mx c) ∧
      (∀ x, x ≠ d → die t.mx x = die s.mx x) ∧ keepsBut (.die :: .ch :: .tr :: onRaise) s t) ∧
  (∀ (s : State) (d : Nat) (a b : Option Byte), d < 2048 → (die s.mx d).state = 1 → (die s.mx d).cur = none →
    (die s.mx d).held = none → (die s.mx d).ahead.head? = some .recover → mayStart s.mx d = true →
    threadReady s.mx (dieCh d) = true → busFor s.mx d = true → chEnabled s.mx (dieCh d) = true → recoverFits s.mx d = true →
    (showsReady a || (!(die s.mx d).recAgain && showsReady b)) = true → (phy s.mx (dieGrp d)).mode = 4 →
    ∃ t, exec (.dieRecovery d a b) s = .next t ∧
      die t.mx d = { die s.mx d with ahead := (die s.mx d).ahead.drop 1, busy := none, recAgain := false, mode := 0 } ∧
      (phy t.mx (dieGrp d)).resetDies = insN (phy s.mx (dieGrp d)).resetDies d ∧ (phy t.mx (dieGrp d)).hold = true ∧
      (∀ x, x ≠ d → die t.mx x = die s.mx x) ∧ keepsBut [.die, .ch, .ph, .tr, .nl] s t) ∧
  (∀ (s : State) (d : Nat) (a b : Option Byte), d < 2048 → (die s.mx d).state = 1 → (die s.mx d).cur = none →
    (die s.mx d).held = none → (die s.mx d).ahead = [.recover] → (die s.mx d).queue = [] → (die s.mx d).wait = [] →
    mayStart s.mx d = true → threadReady s.mx (dieCh d) = true → busFor s.mx d = true → chEnabled s.mx (dieCh d) = true → recoverFits s.mx d = true →
    (showsReady a || (!(die s.mx d).recAgain && showsReady b)) = false →
    ∃ t, exec (.dieRecovery d a b) s = .next t ∧ (die t.mx d).state = 2 ∧ (die t.mx d).ahead = [] ∧ 271 ∈ t.mx.ic.pend ∧
      (chan t.mx (dieCh d)).drive = { cyc := 1, bytes := [0xFF] } ∧ (∀ x, x ≠ d → die t.mx x = die s.mx x) ∧
      keepsBut (.die :: .ch :: .ents :: .sb :: .tr :: .ph :: onRaise) s t) ∧
  (∀ (s : State) (d : Nat) (a b : Option Byte), ((die s.mx d).state ≠ 1 ∨ (die s.mx d).cur ≠ none ∨
      (die s.mx d).ahead.head? ≠ some .recover ∨ threadReady s.mx (dieCh d) = false ∨ busFor s.mx d = false ∨
      chEnabled s.mx (dieCh d) = false ∨ recoverFits s.mx d = false) →
    exec (.dieRecovery d a b) s = .next s)

/-- 05_channel_engine.md R201, R202, R208, R216: a poll that falls due, but not before a suspend command has gone out; in
RB_N judgement the limit, but not under FREEZE; and a rise of RB_N, which counts for every busy die of the channel
that is not judged by polling; where a read-ahead has been put aside, it is its frame that waits. 05_channel_engine.md
R204, R205, R207, R208; 02_boundary.md R85: the bus goes to the requesting context with the highest number; a frame
that waits at its LAUNCH word has its chip enable asserted with the grant; nothing is granted during a tenure, a
FREEZE or a hold, nor on a disabled channel. -/
def Obligations.ReadinessAndGrants : Prop :=
  (∀ (s : State) (c k : Nat) (b : Busy), c < 128 → k < 16 → (die s.mx (dieOf c k)).busy = some b →
    (die s.mx (dieOf c k)).pfErase = false → polling s.mx (dieOf c k) b = true → b.next ≤ s.mx.md.time →
    (die s.mx (dieOf c k)).aside = none → ((die s.mx (dieOf c k)).cur = some .suspend → (die s.mx (dieOf c k)).frame.waited = true) →
    ∃ t, exec (.pollDue c k) s = .next t ∧
      die t.mx (dieOf c k) = { die s.mx (dieOf c k) with
        frame := { (die s.mx (dieOf c k)).frame with
                   due := true, rbr := (die s.mx (dieOf c k)).frame.due && (die s.mx (dieOf c k)).frame.rbr },
        busy := some { b with next := b.next + pollIval s.mx (dieCh (dieOf c k)) } } ∧
      (∀ x, x ≠ dieOf c k → die t.mx x = die s.mx x) ∧ keepsBut [.die] s t) ∧
  (∀ (s : State) (c : Nat), c < 128 → ∃ t, exec (.rbRise c) s = .next t ∧
    (∀ d b, dieCh d = c → (die s.mx d).busy = some b → polling s.mx d b = false → (die s.mx d).pfErase = false →
      (die s.mx d).aside = none →
      die t.mx d = { die s.mx d with frame := { (die s.mx d).frame with due := true, rbr := true } }) ∧
    (∀ d b i f, dieCh d = c → (die s.mx d).busy = some b → polling s.mx d b = false → (die s.mx d).pfErase = false →
      (die s.mx d).aside = some (i, f) → f.ahead = true →
      die t.mx d = { die s.mx d with aside := some (i, { f with due := true, rbr := true }) }) ∧
    (∀ d, dieCh d ≠ c ∨ (die s.mx d).busy = none ∨ (die s.mx d).pfErase = true ∨
      (∃ b, (die s.mx d).busy = some b ∧ polling s.mx d b = true) → die t.mx d = die s.mx d) ∧ keepsBut [.die] s t) ∧
  (∀ (s : State) (c k : Nat) (b : Busy), c < 128 → k < 16 → (die s.mx (dieOf c k)).busy = some b →
    (die s.mx (dieOf c k)).pfErase = false → polling s.mx (dieOf c k) b = false → pastLimit s.mx (dieOf c k) = true →
    (chan s.mx c).freeze = false → (die s.mx (dieOf c k)).aside = none → (die s.mx (dieOf c k)).cur ≠ some .suspend →
    ∃ t, exec (.pollDue c k) s = .next t ∧
      die t.mx (dieOf c k) = { die s.mx (dieOf c k) with
        frame := { (die s.mx (dieOf c k)).frame with
                   due := true, rbr := (die s.mx (dieOf c k)).frame.due && (die s.mx (dieOf c k)).frame.rbr } } ∧
      (∀ x, x ≠ dieOf c k → die t.mx x = die s.mx x) ∧ keepsBut [.die] s t) ∧
  (∀ (s : State) (c k : Nat), c < 128 → k < 16 → ((die s.mx (dieOf c k)).busy = none ∨ (die s.mx (dieOf c k)).pfErase = true ∨
      ((die s.mx (dieOf c k)).cur = some .suspend ∧ (die s.mx (dieOf c k)).frame.waited = false) ∨
      (∃ b, (die s.mx (dieOf c k)).busy = some b ∧ polling s.mx (dieOf c k) b = false ∧ (chan s.mx c).freeze = true) ∨
      (∃ b, (die s.mx (dieOf c k)).busy = some b ∧ polling s.mx (dieOf c k) b = true ∧ s.mx.md.time < b.next)) →
    exec (.pollDue c k) s = .next s) ∧
  (∀ (s : State) (c : Nat), c < 128 → chEnabled s.mx c = true → (chan s.mx c).tenure = false → (chan s.mx c).freeze = false →
    (chan s.mx c).held = false → (chan s.mx c).pend ≠ [] →
    (∀ q ∈ (chan s.mx c).pend, q.ctx < 16 ∧ (die s.mx (dieOf c q.ctx)).frame.readmit = false ∧
      (die s.mx (dieOf c q.ctx)).frame.launchAt = none ∧ (die s.mx (dieOf c q.ctx)).frame.regain = false) →
    ∃ t k, exec (.busGrant c) s = .next t ∧ (∃ q ∈ (chan s.mx c).pend, q.ctx = k) ∧
      (∀ q ∈ (chan s.mx c).pend, q.ctx ≤ k) ∧ (chan t.mx c).owner = some k ∧ (chan t.mx c).tenure = true ∧
      (chan t.mx c).bytes = 0 ∧ (chan t.mx c).since = s.mx.md.time ∧ (chan t.mx c).ce = (chan s.mx c).ce ∧
      (chan t.mx c).pend = (chan s.mx c).pend.filter (fun q => q.ctx != k) ∧
      (∀ x, x ≠ c → chan t.mx x = chan s.mx x) ∧ keepsBut [.ch] s t) ∧
  (∀ (s : State) (c : Nat) (q : BusReq), c < 128 → chEnabled s.mx c = true → (chan s.mx c).tenure = false → (chan s.mx c).freeze = false →
    (chan s.mx c).held = false → (chan s.mx c).pend = [q] → q.ctx < 16 → (die s.mx (dieOf c q.ctx)).frame.readmit = false →
    (die s.mx (dieOf c q.ctx)).frame.launchAt.isSome = true → (die s.mx (dieOf c q.ctx)).frame.regain = false →
    ∃ t, exec (.busGrant c) s = .next t ∧ (chan t.mx c).owner = some q.ctx ∧ (chan t.mx c).tenure = true ∧
      (chan t.mx c).pend = [] ∧ (chan t.mx c).ce = insN (chan s.mx c).ce (dieTgt (dieOf c q.ctx)) ∧
      (∀ x, x ≠ c → chan t.mx x = chan s.mx x) ∧ keepsBut [.ch] s t) ∧
  (∀ (s : State) (c : Nat), ((chan s.mx c).tenure = true ∨ (chan s.mx c).freeze = true ∨ (chan s.mx c).held = true ∨
      chEnabled s.mx c = false ∨ (chan s.mx c).pend = []) → exec (.busGrant c) s = .next s)

/-- 05_channel_engine.md R205, R207, R208, R210: a timed launch asks for the bus ahead of its instant, and has it at once
where it is parked on its context; FREEZE withdraws a park; a request that starves raises CH_STARVE (272) once; and
the longest wait is cleared. 05_channel_engine.md R201, R212, R218; 10_stripes.md R387: an operation is suspended for
its reads, at most four with those of the complex's own, and resumed after them, each by its own kind of item; it
counts as busy until the suspend command's end; and the hold of a read-ahead ends at SPEC_HOLD. 05_channel_engine.md
R226; 06_microcode.md R256: the function reset of a channel leaves its bus free, with nothing requested, and each of
its contexts with RESTART to run; in a halted group it is held. -/
def Obligations.ChannelControls : Prop :=
  (∀ (s : State) (c k n : Nat), c < 128 → k < 16 → (die s.mx (dieOf c k)).frame.launchAt = some n →
    n ≤ launchTime s.mx + 1000 → (chan s.mx c).tenure = true → (chan s.mx c).owner ≠ some k →
    (∀ q ∈ (chan s.mx c).pend, q.ctx ≠ k) →
    ∃ t, exec (.launchPrerequest c k) s = .next t ∧
      chan t.mx c = { chan s.mx c with pend := (chan s.mx c).pend ++ [{ ctx := k, since := s.mx.md.time }] } ∧
      (∀ x, x ≠ c → chan t.mx x = chan s.mx x) ∧ keepsBut [.ch] s t) ∧
  (∀ (s : State) (c k n : Nat), c < 128 → k < 16 → (die s.mx (dieOf c k)).frame.launchAt = some n →
    (die s.mx (dieOf c k)).frame.regain = false → n ≤ launchTime s.mx + 1000 → (chan s.mx c).tenure = false →
    (chan s.mx c).owner = some k → (chan s.mx c).freeze = false → (chan s.mx c).held = false →
    ∃ t, exec (.launchPrerequest c k) s = .next t ∧
      chan t.mx c = { chan s.mx c with tenure := true, bytes := 0, since := s.mx.md.time,
                                       ce := insN (chan s.mx c).ce (dieTgt (dieOf c k)) } ∧
      (∀ x, x ≠ c → chan t.mx x = chan s.mx x) ∧ keepsBut [.ch] s t) ∧
  (∀ (s : State) (c : Nat) (on : Bool), c < 128 → carried s (chOff c 8) →
    ∃ t, exec (.freeze c on) s = .next t ∧
      chan t.mx c = { chan s.mx c with
        freeze := on,
        owner := if on = true ∧ (chan s.mx c).tenure = false then none else (chan s.mx c).owner } ∧
      (∀ x, x ≠ c → chan t.mx x = chan s.mx x) ∧ keepsBut [.ch, .cp] s t) ∧
  (∀ (s : State) (c k : Nat) (q : BusReq), c < 128 → k < 16 → (chan s.mx c).pend = [q] → q.ctx = k → q.starved = false →
    fld (reg s.mx (chOff c 0x24)) 15 0 ≠ 0 → q.since + 1000 * fld (reg s.mx (chOff c 0x24)) 15 0 < s.mx.md.time →
    ∃ t, exec (.chStarve c k) s = .next t ∧ (chan t.mx c).pend = [{ q with starved := true }] ∧ 272 ∈ t.mx.ic.pend ∧
      (∀ x, x ≠ c → chan t.mx x = chan s.mx x) ∧ keepsBut (.ch :: onRaise) s t) ∧
  (∀ (s : State) (c : Nat), c < 128 → carried s (chOff c 0x28) →
    ∃ t, exec (.waitmaxClr c) s = .next t ∧ chan t.mx c = { chan s.mx c with wait := 0, waitCtx := 0 } ∧
      (∀ x, x ≠ c → chan t.mx x = chan s.mx x) ∧ keepsBut [.ch, .cp] s t) ∧
  (∀ (s : State) (c k eid : Nat) (b : Busy), c < 128 → k < 16 → (die s.mx (dieOf c k)).cur = some (.entry eid) →
    (die s.mx (dieOf c k)).busy = some b → suspWanted s.mx (dieOf c k) = true →
    (die s.mx (dieOf c k)).frame.waiting = true → groupOpen s.mx (dieGrp (dieOf c k)) = true →
    ∃ t, exec (.suspension c k) s = .next t ∧
      die t.mx (dieOf c k) = { die s.mx (dieOf c k) with
        cur := some .suspend, held := some (.entry eid, (die s.mx (dieOf c k)).frame),
        heldBusy := some b, suspN := (die s.mx (dieOf c k)).suspN + 1,
        suspLeft := suspTakes s.mx (dieOf c k) eid, suspInt := suspInner s.mx (dieOf c k),
        frame := { active := true, pc := kindAddr s.mx (dieGrp (dieOf c k)) 12 } } ∧
      (∀ x, x ≠ dieOf c k → die t.mx x = die s.mx x) ∧ keepsBut [.die] s t) ∧
  (∀ (s : State) (c k : Nat), c < 128 → k < 16 → resumeWanted s.mx (dieOf c k) = true →
    (die s.mx (dieOf c k)).cur = none → mayStart s.mx (dieOf c k) = true →
    ∃ t, exec (.operationResume c k) s = .next t ∧
      die t.mx (dieOf c k) = { die s.mx (dieOf c k) with
        cur := some .resume, frame := { active := true, pc := kindAddr s.mx (dieGrp (dieOf c k)) 13 } } ∧
      (∀ x, x ≠ dieOf c k → die t.mx x = die s.mx x) ∧ keepsBut [.die] s t) ∧
  (∀ (s : State) (c k n : Nat) (a : Ahead), c < 128 → k < 16 → (die s.mx (dieOf c k)).spec = some a →
    (die s.mx (dieOf c k)).cur = some .spec → a.cancelled = false → a.out = false → (die s.mx (dieOf c k)).queue = [] →
    a.at_ = some n → n + 1000 * specHold s.mx (dieCh (dieOf c k)) ≤ s.mx.md.time →
    ∃ t, exec (.readAheadExpiry c k) s = .next t ∧
      die t.mx (dieOf c k) = { die s.mx (dieOf c k) with holdx := true, spec := some { a with out := true } } ∧
      (∀ x, x ≠ dieOf c k → die t.mx x = die s.mx x) ∧ keepsBut [.die] s t) ∧
  (∀ (s : State) (c k : Nat), suspWanted s.mx (dieOf c k) = false → exec (.suspension c k) s = .next s) ∧
  (∀ (s : State) (c k : Nat), resumeWanted s.mx (dieOf c k) = false → exec (.operationResume c k) s = .next s) ∧
  (∀ (s : State) (c k : Nat) (a : Ahead), (die s.mx (dieOf c k)).spec = some a → a.at_ = none →
    exec (.readAheadExpiry c k) s = .next s) ∧
  (∀ (s : State) (c : Nat), c < 128 → carried s (chOff c 4) → (cluster s.mx (c / 4)).halted = false →
    ∃ t, exec (.channelReset c) s = .next t ∧ t.pending = s.pending ∧ (chan t.mx c).owner = none ∧
      (chan t.mx c).tenure = false ∧ (chan t.mx c).pend = [] ∧ (chan t.mx c).ce = [] ∧ (chan t.mx c).resetDue = false) ∧
  (∀ (s : State) (c : Nat), c < 128 → carried s (chOff c 4) → (cluster s.mx (c / 4)).halted = false →
    (∀ k, k < 16 → die s.mx (dieOf c k) = {}) →
    ∃ t, exec (.channelReset c) s = .next t ∧ (∀ k, k < 16 → die t.mx (dieOf c k) = { ahead := [.restart 1] }) ∧
      chan t.mx c = { chan s.mx c with owner := none, tenure := false, bytes := 0, pend := [], ce := [],
                                       resetDue := false } ∧
      (∀ x, x ≠ c → chan t.mx x = chan s.mx x) ∧ (∀ d, dieCh d ≠ c → die t.mx d = die s.mx d) ∧
      t.mx.sb.data = s.mx.sb.data ∧ keepsBut [.ch, .cp, .die, .tr, .ents, .sb] s t) ∧
  (∀ (s : State) (c : Nat), c < 128 → carried s (chOff c 4) → (cluster s.mx (c / 4)).halted = true →
    ∃ t, exec (.channelReset c) s = .next t ∧ chan t.mx c = { chan s.mx c with resetDue := true } ∧
      (∀ x, x ≠ c → chan t.mx x = chan s.mx x) ∧ keepsBut [.ch, .cp] s t)

/-- 05_channel_engine.md R220, R223: ACQUIRE of a free die is HELD at once, and PENDING while an entry of another ring
holds a place; one of a context with a lock leaves only a record; a lock HELD for DL_TMO is broken with CH_LOCK (273),
and its owner's entries that have not been admitted are aborted. -/
def Obligations.LocksTakenAndBroken : Prop :=
  (∀ (s : State) (a : Agent) (c k r : Nat), c < 128 → k < 16 → r < (if a = .host then 256 else 264) →
    a = .dome ∨ carried s (chOff c 0x2C) → (die s.mx (dieOf c k)).lock = .none → (die s.mx (dieOf c k)).queue = [] →
    (∀ i ∈ (die s.mx (dieOf c k)).ahead, isRead i = false) →
    ∃ t, exec (.acquire a c k r) s = .next t ∧
      die t.mx (dieOf c k) = { die s.mx (dieOf c k) with lock := .held r, lockAt := s.mx.md.time, broken := none } ∧
      (∀ x, x ≠ dieOf c k → die t.mx x = die s.mx x) ∧ keepsBut [.die, .cp] s t) ∧
  (∀ (s : State) (a : Agent) (c k r eid : Nat), c < 128 → k < 16 → r < (if a = .host then 256 else 264) →
    a = .dome ∨ carried s (chOff c 0x2C) → (die s.mx (dieOf c k)).lock = .none →
    (die s.mx (dieOf c k)).queue = [.entry eid] → (∀ i ∈ (die s.mx (dieOf c k)).ahead, isRead i = false) → eid < 2 ^ 30 → eidRing eid ≠ r →
    ∃ t, exec (.acquire a c k r) s = .next t ∧
      die t.mx (dieOf c k) = { die s.mx (dieOf c k) with lock := .pending r, broken := none } ∧
      (∀ x, x ≠ dieOf c k → die t.mx x = die s.mx x) ∧ keepsBut [.die, .cp] s t) ∧
  (∀ (s : State) (c k r : Nat), c < 128 → k < 16 → (die s.mx (dieOf c k)).lock = .held r →
    (die s.mx (dieOf c k)).lockAt + 100000 * fld (reg s.mx (chOff c 0x1C)) 15 0 ≤ s.mx.md.time →
    (die s.mx (dieOf c k)).queue = [] → (die s.mx (dieOf c k)).wait = [] →
    ∃ t, exec (.lockBroken c k) s = .next t ∧
      die t.mx (dieOf c k) = { die s.mx (dieOf c k) with lock := .none, broken := some r } ∧
      273 ∈ t.mx.ic.pend ∧ (∀ x, x ≠ dieOf c k → die t.mx x = die s.mx x) ∧ keepsBut (.die :: onRaise) s t) ∧
  (∀ (s : State) (a : Agent) (c k r : Nat), c < 128 → k < 16 → r < 512 → a = .dome ∨ carried s (chOff c 0x2C) →
    (die s.mx (dieOf c k)).lock ≠ .none →
    ∃ t, exec (.acquire a c k r) s = .next t ∧ t.mx.nl = (log s.mx .lockRefused (dieOf c k) r).nl ∧
      keepsBut [.cp, .nl] s t) ∧
  (∀ (s : State) (c k r eid : Nat) (e : Ent), c < 128 → k < 16 → (die s.mx (dieOf c k)).lock = .held r →
    (die s.mx (dieOf c k)).lockAt + 100000 * fld (reg s.mx (chOff c 0x1C)) 15 0 ≤ s.mx.md.time →
    (die s.mx (dieOf c k)).queue = [.entry eid] → (die s.mx (dieOf c k)).wait = [] → (die s.mx (dieOf c k)).cur = none →
    (die s.mx (dieOf c k)).aside = none → eid < 2 ^ 30 → eidRing eid = r → ent s.mx eid = some e → eOpc e = 3 →
    eDie e = dieOf c k → e.stripe = none → e.admitted = false →
    ∃ t, exec (.lockBroken c k) s = .next t ∧ (die t.mx (dieOf c k)).lock = .none ∧ (die t.mx (dieOf c k)).queue = [] ∧
      273 ∈ t.mx.ic.pend ∧ ent t.mx eid = some (concluded s.mx { e with arr := false } 0x0200 7) ∧
      (∀ q, q ≠ eid → ent t.mx q = ent s.mx q) ∧ (∀ x, x ≠ dieOf c k → die t.mx x = die s.mx x) ∧
      keepsBut (.die :: .ents :: .st :: .cx :: onRaise) s t) ∧
  (∀ (s : State) (c k r : Nat), (die s.mx (dieOf c k)).lock = .held r → c < 128 → k < 16 →
    s.mx.md.time < (die s.mx (dieOf c k)).lockAt + 100000 * fld (reg s.mx (chOff c 0x1C)) 15 0 →
    exec (.lockBroken c k) s = .next s)

/-- 05_channel_engine.md R222: RELEASE by the owner ends the lock at once, and waiting entries take places in wait-list
order; by any other ring it leaves only a record, R220: host firmware naming a ring above 255 included; after the lock
has been broken, its owner's RELEASE leaves nothing. That RELEASE leaves a record where no lock stands is the model's
reading (log entry 146). -/
def Obligations.LockReleased : Prop :=
  (∀ (s : State) (a : Agent) (c k r : Nat), c < 128 → k < 16 → r < 512 → a = .dome ∨ carried s (chOff c 0x2C) →
    a = .dome ∨ r < 256 → (die s.mx (dieOf c k)).lock = .held r ∨ (die s.mx (dieOf c k)).lock = .pending r →
    (die s.mx (dieOf c k)).spec = none → (die s.mx (dieOf c k)).queue.length ≤ 8 → (die s.mx (dieOf c k)).wait.Nodup →
    ∃ t, exec (.lockRelease a c k r) s = .next t ∧ (die t.mx (dieOf c k)).lock = .none ∧
      (die t.mx (dieOf c k)).queue = (die s.mx (dieOf c k)).queue ++
        ((die s.mx (dieOf c k)).wait.take (8 - (die s.mx (dieOf c k)).queue.length)).map Item.entry ∧
      (die t.mx (dieOf c k)).wait = (die s.mx (dieOf c k)).wait.drop (8 - (die s.mx (dieOf c k)).queue.length) ∧
      (∀ x, x ≠ dieOf c k → die t.mx x = die s.mx x) ∧ keepsBut [.die, .cp] s t) ∧
  (∀ (s : State) (a : Agent) (c k r o : Nat), c < 128 → k < 16 → r < 512 → a = .dome ∨ carried s (chOff c 0x2C) →
    (die s.mx (dieOf c k)).lock = .held o ∨ (die s.mx (dieOf c k)).lock = .pending o → o ≠ r →
    ∃ t, exec (.lockRelease a c k r) s = .next t ∧ t.mx.nl = (log s.mx .lockRefused (dieOf c k) r).nl ∧
      keepsBut [.cp, .nl] s t) ∧
  (∀ (s : State) (c k r : Nat), c < 128 → k < 16 → 255 < r → r < 512 → carried s (chOff c 0x2C) →
    ∃ t, exec (.lockRelease .host c k r) s = .next t ∧ t.mx.nl = (log s.mx .lockRefused (dieOf c k) r).nl ∧
      keepsBut [.cp, .nl] s t) ∧
  (∀ (s : State) (a : Agent) (c k r : Nat), c < 128 → k < 16 → r < 512 → a = .dome ∨ carried s (chOff c 0x2C) →
    a = .dome ∨ r < 256 → (die s.mx (dieOf c k)).lock = .none → (die s.mx (dieOf c k)).broken = some r →
    ∃ t, exec (.lockRelease a c k r) s = .next t ∧ keepsBut [.cp] s t) ∧
  (∀ (s : State) (a : Agent) (c k r : Nat), c < 128 → k < 16 → r < 512 → a = .dome ∨ carried s (chOff c 0x2C) →
    (die s.mx (dieOf c k)).lock = .none → (die s.mx (dieOf c k)).broken ≠ some r →
    ∃ t, exec (.lockRelease a c k r) s = .next t ∧ t.mx.nl = (log s.mx .lockRefused (dieOf c k) r).nl ∧
      keepsBut [.cp, .nl] s t)

/-! ## Microcode -/

/-- 06_microcode.md R236, R239; 05_channel_engine.md R202: SEQ, JMP, BR and DISP take their next address; a word with a
bus cycle waits for it, and that of the suspend command dates the die's first poll. 05_channel_engine.md R196, R203;
06_microcode.md R240, R241: the end of a STAT cycle sets the status, and whether two equal values show the die ready,
which frees the place of an ERASE or PROGRAM whose die has been found ready; that of a command or an address goes on;
CE and CE_OFF act on the target's chip enable; FIN fills the feature register; DOUT's bytes go into the reservation of
the entry it works for, the last of a raw page freeing its place. 06_microcode.md R242: results and flags of the ALU:
Z and N from the result, C from an addition's carry, and each kept where the operation does not set it. -/
def Obligations.NextAddressAndResults : Prop :=
  (∀ (s : State) (c k nxt : Nat) (i : Instr), c < 128 → k < 16 → runsWord s.mx (dieOf c k) nxt →
    (i = .seq c k ∧ nxt = 0 ∨ i = .jmp c k ∧ nxt = 1 ∨ i = .br c k ∧ nxt = 2 ∨ i = .disp c k ∧ nxt = 6) →
    ∃ t, exec i s = .next t ∧
      die t.mx (dieOf c k) = { die s.mx (dieOf c k) with
        frame := { afterAlu s.mx (dieOf c k) with
          waiting := false,
          pc := if nxt = 0 then ((die s.mx (dieOf c k)).frame.pc + 1) % 8192
                else if nxt = 1 then mwTgt (wordOf s.mx (dieOf c k))
                else if nxt = 2 then
                  (if wordCond s.mx (dieOf c k) then mwTgt (wordOf s.mx (dieOf c k))
                   else ((die s.mx (dieOf c k)).frame.pc + 1) % 8192)
                else (mwTgt (wordOf s.mx (dieOf c k)) +
                  (asrc s.mx (dieOf c k) (afterAlu s.mx (dieOf c k)) (mwAsrc (wordOf s.mx (dieOf c k)))).toNat % 16) % 8192 } } ∧
      (∀ x, x ≠ dieOf c k → die t.mx x = die s.mx x) ∧ keepsBut [.die] s t) ∧
  (∀ (s : State) (c k nxt : Nat) (i : Instr), c < 128 → k < 16 → runsForm s.mx (dieOf c k) nxt →
    (i = .seq c k ∧ nxt = 0 ∨ i = .jmp c k ∧ nxt = 1 ∨ i = .br c k ∧ nxt = 2 ∨ i = .microCall c k ∧ nxt = 3 ∨
     i = .ret c k ∧ nxt = 4 ∨ i = .wait c k ∧ nxt = 5 ∨ i = .disp c k ∧ nxt = 6 ∨ i = .exit c k ∧ nxt = 7) →
    mwCyc (wordOf s.mx (dieOf c k)) ≠ 0 → mwGate (wordOf s.mx (dieOf c k)) ≠ 4 →
    (mwCyc (wordOf s.mx (dieOf c k)) = 3 ∨ mwCyc (wordOf s.mx (dieOf c k)) = 4 →
      cycCount (afterAlu s.mx (dieOf c k)) (wordOf s.mx (dieOf c k)) ≠ 0) →
    let w := wordOf s.mx (dieOf c k)
    let f := afterAlu s.mx (dieOf c k)
    ∃ t, exec i s = .next t ∧
      die t.mx (dieOf c k) = { die s.mx (dieOf c k) with
        mark := if mwCyc w = 1 ∧ (die s.mx (dieOf c k)).mark = none then some (die s.mx (dieOf c k)).frame
                else (die s.mx (dieOf c k)).mark,
        busy := if mwCyc w = 1 ∧ (die s.mx (dieOf c k)).cur = some .suspend ∧ f.waited = false then
                  (die s.mx (dieOf c k)).busy.map (fun b => { b with next := s.mx.md.time + pollIval s.mx c })
                else (die s.mx (dieOf c k)).busy,
        frame := { f with cmds := f.cmds || mwCyc w == 1,
                          cyc := some { left := if mwCyc w = 3 ∨ mwCyc w = 4 then cycCount f w else 0 } } } ∧
      chan t.mx c = { chan s.mx c with drive := driveOf s.mx (dieOf c k) (if mwCyc w = 3 ∨ mwCyc w = 4 then cycCount f w else 0) f w } ∧ (∀ x, x ≠ c → chan t.mx x = chan s.mx x) ∧
      (∀ x, x ≠ dieOf c k → die t.mx x = die s.mx x) ∧ keepsBut [.die, .ch] s t) ∧
  (∀ (s : State) (c k : Nat) (i : Instr), hasTurn s.mx (dieOf c k) = false → (die s.mx (dieOf c k)).frame.asks = false →
    (i = .seq c k ∨ i = .jmp c k ∨ i = .br c k ∨ i = .microCall c k ∨ i = .wait c k ∨ i = .disp c k ∨ i = .exit c k) →
    exec i s = .next s) ∧
  (∀ (s : State) (c k : Nat) (inp : CycIn) (y : Cyc), c < 128 → k < 16 → inCycle s.mx (dieOf c k) 5 y →
    (∀ i, (die s.mx (dieOf c k)).cur = some i → itemEntries i = []) →
    ∃ t, exec (.busCycleDone c k inp) s = .next t ∧
      die t.mx (dieOf c k) = { die s.mx (dieOf c k) with
        mark := none,
        frame := { (die s.mx (dieOf c k)).frame with
          cyc := none, waiting := false, cmds := false, pc := ((die s.mx (dieOf c k)).frame.pc + 1) % 8192,
          status := inp.data.getD 1 0, ssame := inp.data.getD 0 0 == inp.data.getD 1 0,
          srdy := (inp.data.getD 0 0 == inp.data.getD 1 0) && (inp.data.getD 1 0).getLsbD 6,
          shown := (die s.mx (dieOf c k)).frame.shown ||
            ((inp.data.getD 0 0 == inp.data.getD 1 0) && (inp.data.getD 1 0).getLsbD 6) } } ∧
      (∀ x, x ≠ dieOf c k → die t.mx x = die s.mx x) ∧ keepsBut [.die] s t) ∧
  (∀ (s : State) (c k n : Nat) (inp : CycIn) (y : Cyc), c < 128 → k < 16 → n = 1 ∨ n = 2 → inCycle s.mx (dieOf c k) n y →
    ∃ t, exec (.busCycleDone c k inp) s = .next t ∧
      die t.mx (dieOf c k) = { die s.mx (dieOf c k) with
        frame := { (die s.mx (dieOf c k)).frame with
          cyc := none, waiting := false, pc := ((die s.mx (dieOf c k)).frame.pc + 1) % 8192 } } ∧
      (∀ x, x ≠ dieOf c k → die t.mx x = die s.mx x) ∧ keepsBut [.die] s t) ∧
  (∀ (s : State) (c k n : Nat) (inp : CycIn) (y : Cyc), c < 128 → k < 16 → n = 8 ∨ n = 9 → inCycle s.mx (dieOf c k) n y →
    ∃ t, exec (.busCycleDone c k inp) s = .next t ∧
      chan t.mx c = { chan s.mx c with
        ce := if n = 8 then insN (chan s.mx c).ce (dieTgt (dieOf c k)) else delN (chan s.mx c).ce (dieTgt (dieOf c k)) } ∧
      (die t.mx (dieOf c k)).frame.pc = ((die s.mx (dieOf c k)).frame.pc + 1) % 8192 ∧
      (die t.mx (dieOf c k)).frame.cyc = none ∧ (∀ x, x ≠ c → chan t.mx x = chan s.mx x) ∧
      (∀ x, x ≠ dieOf c k → die t.mx x = die s.mx x) ∧ keepsBut [.die, .ch] s t) ∧
  (∀ (s : State) (c k : Nat) (inp : CycIn) (y : Cyc), c < 128 → k < 16 → inCycle s.mx (dieOf c k) 7 y →
    mwCnt (wordOf s.mx (dieOf c k)) = 4 → inp.data.length = 4 →
    ∃ t, exec (.busCycleDone c k inp) s = .next t ∧
      (die t.mx (dieOf c k)).frame.feat = word (leNat inp.data) ∧ (die t.mx (dieOf c k)).frame.cyc = none ∧
      (die t.mx (dieOf c k)).frame.pc = ((die s.mx (dieOf c k)).frame.pc + 1) % 8192 ∧
      (∀ x, x ≠ dieOf c k → die t.mx x = die s.mx x) ∧ keepsBut [.die] s t) ∧
  (∀ (s : State) (c k eid : Nat) (e : Ent) (inp : CycIn) (y : Cyc), c < 128 → k < 16 → inCycle s.mx (dieOf c k) 4 y →
    inp.dqs = true → inp.eyes = [] → inp.data.length = y.left → (chan s.mx c).bytes + y.left < burstMax s.mx c →
    (die s.mx (dieOf c k)).cur = some (.entry eid) → eid < 2 ^ 30 → ent s.mx eid = some e → eOpc e = 5 → e.cws = [] →
    (die s.mx (dieOf c k)).wait = [] → (die s.mx (dieOf c k)).lock = .none →
    ∃ t, exec (.busCycleDone c k inp) s = .next t ∧
      t.mx.sb = (resvWrite s.mx (.entry eid) (die s.mx (dieOf c k)).frame.sptr.toNat inp.data).sb ∧
      (chan t.mx c).bytes = (chan s.mx c).bytes + y.left ∧ (die t.mx (dieOf c k)).frame.cyc = none ∧
      (die t.mx (dieOf c k)).queue =
        (if eLen e ≤ (die s.mx (dieOf c k)).frame.sptr.toNat + y.left then (die s.mx (dieOf c k)).queue.filter (fun i => i != .entry eid)
         else (die s.mx (dieOf c k)).queue) ∧
      (die t.mx (dieOf c k)).frame.sptr = (die s.mx (dieOf c k)).frame.sptr + BitVec.ofNat 24 y.left ∧
      (die t.mx (dieOf c k)).frame.pc = ((die s.mx (dieOf c k)).frame.pc + 1) % 8192 ∧
      (∀ x, x ≠ c → chan t.mx x = chan s.mx x) ∧ (∀ x, x ≠ dieOf c k → die t.mx x = die s.mx x) ∧
      keepsBut [.die, .ch, .sb] s t) ∧
  (∀ (s : State) (c k : Nat) (inp : CycIn), (die s.mx (dieOf c k)).frame.cyc = none →
    (die s.mx (dieOf c k)).frame.cut = none → exec (.busCycleDone c k inp) s = .next s) ∧
  (∀ (s : State) (c k eid : Nat) (e : Ent) (inp : CycIn) (y : Cyc), c < 128 → k < 16 → inCycle s.mx (dieOf c k) 5 y →
    (die s.mx (dieOf c k)).cur = some (.entry eid) → (die s.mx (dieOf c k)).wait = [] → ent s.mx eid = some e →
    eOpc e = 2 ∨ eOpc e = 3 → (die s.mx (dieOf c k)).lock = .none →
    let ok := (inp.data.getD 0 0 == inp.data.getD 1 0) && (inp.data.getD 1 0).getLsbD 6
    let f := (die s.mx (dieOf c k)).frame
    ∃ t, exec (.busCycleDone c k inp) s = .next t ∧
      die t.mx (dieOf c k) = { die s.mx (dieOf c k) with
        mark := none,
        queue := if f.found && (f.shown || ok) then (die s.mx (dieOf c k)).queue.filter (fun i => i != .entry eid)
                 else (die s.mx (dieOf c k)).queue,
        frame := { f with
          cyc := none, waiting := false, cmds := false, pc := (f.pc + 1) % 8192,
          status := inp.data.getD 1 0, ssame := inp.data.getD 0 0 == inp.data.getD 1 0, srdy := ok, shown := f.shown || ok } } ∧
      (∀ x, x ≠ dieOf c k → die t.mx x = die s.mx x) ∧ keepsBut [.die] s t) ∧
  (∀ (d a : Word) (imm : Nat) (f : AluFlags), imm < 65536 →
    aluResult 1 d a imm f = (some a, { z := a == 0, n := a.msb, c := f.c }) ∧
    aluResult 2 d a imm f = (some (BitVec.ofNat 32 imm), { z := imm == 0, n := false, c := f.c }) ∧
    aluResult 3 d a imm f = (some (d + a), { z := d + a == 0, n := (d + a).msb, c := BitVec.carry 32 d a false }) ∧
    aluResult 4 d a imm f = (some (d + (BitVec.ofNat 16 imm).signExtend 32),
      { z := d + (BitVec.ofNat 16 imm).signExtend 32 == 0, n := (d + (BitVec.ofNat 16 imm).signExtend 32).msb,
        c := BitVec.carry 32 d ((BitVec.ofNat 16 imm).signExtend 32) false }) ∧
    aluResult 5 d a imm f = (some (d &&& a), { z := d &&& a == 0, n := (d &&& a).msb, c := f.c }) ∧
    aluResult 6 d a imm f = (some (d ||| a), { z := d ||| a == 0, n := (d ||| a).msb, c := f.c }) ∧
    aluResult 7 d a imm f = (some (d ^^^ a), { z := d ^^^ a == 0, n := (d ^^^ a).msb, c := f.c }) ∧
    (aluResult 10 d a imm f = (none, { z := d == BitVec.ofNat 32 imm, n := f.n, c := f.c })) ∧
    (aluResult 0 d a imm f = (none, f)))

/-- 06_microcode.md R246, R247: a taken CALL pushes PC + 1, and RET pops it, a cut DIN or DOUT to which it returns going
on, on the balls too; at depth 8, and at depth 0, they raise the machine check of stack overflow (4) and underflow
(5). -/
def Obligations.CallAndReturn : Prop :=
  (∀ (s : State) (c k : Nat), c < 128 → k < 16 → runsWord s.mx (dieOf c k) 3 →
    wordCond s.mx (dieOf c k) = true → (die s.mx (dieOf c k)).frame.stack.length < 8 →
    ∃ t, exec (.microCall c k) s = .next t ∧
      die t.mx (dieOf c k) = { die s.mx (dieOf c k) with
        frame := { afterAlu s.mx (dieOf c k) with
          waiting := false, pc := mwTgt (wordOf s.mx (dieOf c k)),
          stack := ((die s.mx (dieOf c k)).frame.pc + 1) % 8192 :: (die s.mx (dieOf c k)).frame.stack } } ∧
      (cluster t.mx (dieGrp (dieOf c k))).sdepth =
        max (cluster s.mx (dieGrp (dieOf c k))).sdepth ((die s.mx (dieOf c k)).frame.stack.length + 1) ∧
      (cluster t.mx (dieGrp (dieOf c k))).store = (cluster s.mx (dieGrp (dieOf c k))).store ∧
      (∀ g, g ≠ dieGrp (dieOf c k) → cluster t.mx g = cluster s.mx g) ∧
      (∀ x, x ≠ dieOf c k → die t.mx x = die s.mx x) ∧ keepsBut [.die, .mc] s t) ∧
  (∀ (s : State) (c k : Nat), c < 128 → k < 16 → runsWord s.mx (dieOf c k) 3 → wordCond s.mx (dieOf c k) = false →
    ∃ t, exec (.microCall c k) s = .next t ∧
      die t.mx (dieOf c k) = { die s.mx (dieOf c k) with
        frame := { afterAlu s.mx (dieOf c k) with
          waiting := false, pc := ((die s.mx (dieOf c k)).frame.pc + 1) % 8192 } } ∧
      (∀ x, x ≠ dieOf c k → die t.mx x = die s.mx x) ∧ keepsBut [.die] s t) ∧
  (∀ (s : State) (c k a : Nat) (l : List Nat), c < 128 → k < 16 → runsWord s.mx (dieOf c k) 4 →
    (die s.mx (dieOf c k)).frame.stack = a :: l → (die s.mx (dieOf c k)).frame.cut = none →
    ∃ t, exec (.ret c k) s = .next t ∧
      die t.mx (dieOf c k) = { die s.mx (dieOf c k) with
        frame := { afterAlu s.mx (dieOf c k) with waiting := false, pc := a, stack := l } } ∧
      (∀ x, x ≠ dieOf c k → die t.mx x = die s.mx x) ∧ keepsBut [.die] s t) ∧
  (∀ (s : State) (c k : Nat), c < 128 → k < 16 → runsWord s.mx (dieOf c k) 3 → wordCond s.mx (dieOf c k) = true →
    8 ≤ (die s.mx (dieOf c k)).frame.stack.length →
    ∃ t, exec (.microCall c k) s = .next t ∧
      t.mx = machineCheck (dieOf c k) 4 (setFrame (dieOf c k) (afterAlu s.mx (dieOf c k)) s.mx)) ∧
  (∀ (s : State) (c k : Nat), c < 128 → k < 16 → runsWord s.mx (dieOf c k) 4 →
    (die s.mx (dieOf c k)).frame.stack = [] → (die s.mx (dieOf c k)).frame.cut = none →
    ∃ t, exec (.ret c k) s = .next t ∧
      t.mx = resumeCut (dieOf c k) (machineCheck (dieOf c k) 5 (setFrame (dieOf c k) (afterAlu s.mx (dieOf c k)) s.mx))) ∧
  (∀ (s : State) (c k l : Nat) (r : List Nat), c < 128 → k < 16 → runsWord s.mx (dieOf c k) 4 →
    (die s.mx (dieOf c k)).frame.stack = (die s.mx (dieOf c k)).frame.pc :: r →
    (die s.mx (dieOf c k)).frame.cut = some (l, r.length) → (die s.mx (dieOf c k)).frame.regain = false →
    ∃ t, exec (.ret c k) s = .next t ∧
      die t.mx (dieOf c k) = { die s.mx (dieOf c k) with
        frame := { afterAlu s.mx (dieOf c k) with waiting := false, stack := r, cut := none, cyc := some { left := l } } } ∧
      chan t.mx c = { chan s.mx c with
        drive := driveOf s.mx (dieOf c k) l (afterAlu s.mx (dieOf c k)) (wordOf s.mx (dieOf c k)) } ∧
      (∀ x, x ≠ c → chan t.mx x = chan s.mx x) ∧ (∀ x, x ≠ dieOf c k → die t.mx x = die s.mx x) ∧ keepsBut [.die, .ch] s t)

/-- 06_microcode.md R238, R250, R251: a word marked poisoned, one whose upper or lower half fails its parity, and an
illegal one raise the machine check before any of their actions, whatever their form. -/
def Obligations.BadWordsStopTheCluster : Prop :=
  (∀ (s : State) (c k : Nat) (i : Instr), c < 128 → k < 16 → hasTurn s.mx (dieOf c k) = true →
    (die s.mx (dieOf c k)).frame.waiting = false →
    (i = .seq c k ∨ i = .jmp c k ∨ i = .br c k ∨ i = .microCall c k ∨ i = .wait c k ∨ i = .disp c k ∨ i = .exit c k) →
    ∀ n, fetchFault s.mx (dieOf c k) = some n →
    ∃ t, exec i s = .next t ∧ t.mx = machineCheck (dieOf c k) n s.mx) ∧
  (∀ (s : State) (c k n : Nat), c < 128 → k < 16 → hasTurn s.mx (dieOf c k) = true →
    (die s.mx (dieOf c k)).frame.waiting = false → fetchFault s.mx (dieOf c k) = some n →
    ∃ t, exec (.ret c k) s = .next t ∧ t.mx = resumeCut (dieOf c k) (machineCheck (dieOf c k) n s.mx)) ∧
  (∀ (m : Mx) (d : Nat), fetchFault m d =
    (if (cluster m (dieGrp d)).poison.contains (die m d).frame.pc then some 6
     else if mwOnes (wordOf m d) 127 64 % 2 = 1 then some 1
     else if mwOnes (wordOf m d) 63 0 % 2 = 1 then some 2
     else if illegal (wordOf m d) (holdsBus m d) then some 3 else none))

/-- 06_microcode.md R253, R255, R256, R265: a machine check halts the cluster, stops its frames and its buses, gives every
die that is not DEAD its RESTART with the cause, behind its thread's GRP_INIT alone, records its first cause and
place, and raises MC_MCHK (274). Stated of a group none of whose dies has work queued, held or locked. 06_microcode.md
R252, R253, R256, R261, R264: Dome reloads the cluster that halted first, and its threads run GRP_INIT, but those of
disabled channels; the scrubber marks words that fail parity, with MC_POISON (275), and Dome rewrites them; a quiesced
group takes its new image once it is idle, or pauses while a reload is due; and the capture of a word. -/
def Obligations.MachineCheckAndReload : Prop :=
  (∀ (m : Mx) (d n : Nat), d < 2048 → n < 8 → (die m d).frame.pc < 8192 →
    (∀ x, dieGrp x = dieGrp d → (die m x).queue = [] ∧ (die m x).wait = [] ∧ (die m x).held = none ∧
      (die m x).lock = .none) →
    (cluster (machineCheck d n m) (dieGrp d)).halted = true ∧ 274 ∈ (machineCheck d n m).ic.pend ∧
    (bit (cluster m (dieGrp d)).mchk 31 = false →
      (cluster (machineCheck d n m) (dieGrp d)).mchk =
        word (2 ^ 31 + 2 ^ 24 * n + 2 ^ 22 * (dieCh d % 4) + 2 ^ 18 * dieCtx d + (die m d).frame.pc)) ∧
    (bit (cluster m (dieGrp d)).mchk 31 = true →
      (cluster (machineCheck d n m) (dieGrp d)).mchk = (cluster m (dieGrp d)).mchk) ∧
    dieGrp d ∈ (machineCheck d n m).mc.halts ∧
    (∀ x, dieGrp x = dieGrp d → (die (machineCheck d n m) x).cur = none ∧ (die (machineCheck d n m) x).frame = {} ∧
      ((die m x).state ≠ 2 → ((die (machineCheck d n m) x).ahead.filter (fun i => i != .grpInit)).head? =
        some (.restart (if (die m x).frame.active = true ∧ (die m x).frame.cmds = true then 2 else 3)))) ∧
    (∀ c, c / 4 = dieGrp d → (chan (machineCheck d n m) c).owner = none ∧ (chan (machineCheck d n m) c).tenure = false ∧
      (chan (machineCheck d n m) c).pend = [] ∧ (chan (machineCheck d n m) c).ce = [])) ∧
  (∀ (s : State) (g : Nat) (i : Img), g < 32 → (cluster s.mx g).halted = true → domeRuns s.mx = true →
    (cluster s.mx g).img = some i → (∀ c ∈ groupChans g, (chan s.mx c).resetDue = false) →
    s.mx.mc.halts.head? = some g → (∀ x, (cluster s.mx x).load = false) → s.mx.dm.updOwed = none →
    ∃ t, exec (.groupReloadDone g) s = .next t ∧
      cluster t.mx g = { cluster s.mx g with halted := false, poison := [],
                                             store := (List.range i.words.length).zip i.words } ∧
      t.mx.mc.halts = s.mx.mc.halts.filter (fun x => x != g) ∧
      (∀ c, c / 4 = g → chEnabled s.mx c = true → (die t.mx (dieOf c 0)).ahead =
        .grpInit :: (die s.mx (dieOf c 0)).ahead.filter (fun j => j != .grpInit)) ∧
      (∀ d, dieGrp d ≠ g ∨ dieCtx d ≠ 0 ∨ chEnabled s.mx (dieCh d) = false → die t.mx d = die s.mx d) ∧
      (∀ x, x ≠ g → cluster t.mx x = cluster s.mx x) ∧ keepsBut [.mc, .die] s t) ∧
  (∀ (s : State) (g : Nat), s.mx.dm.updOwed = none → ((cluster s.mx g).halted = false ∨ domeRuns s.mx = false ∨
      (∃ x, s.mx.mc.halts.head? = some x ∧ x ≠ g)) → exec (.groupReloadDone g) s = .next s) ∧
  (∀ (s : State) (g : Nat) (ups : List (Nat × Microword)), g < 32 → fld (reg s.mx (mcOff g 0x18)) 15 0 ≠ 0 →
    (∀ u ∈ ups, u.1 < 8192) → (cluster s.mx g).poison = [] →
    let st := ups.foldl (fun t u => tabSet t u.1 u.2) (cluster s.mx g).store
    ∃ t, exec (.controlStoreScrub g ups) s = .next t ∧ (cluster t.mx g).store = st ∧
      (∀ a, a ∈ (cluster t.mx g).poison ↔ ∃ w, (a, w) ∈ st ∧ (parityHi w && parityLo w) = false) ∧
      ((cluster t.mx g).poison ≠ [] → 275 ∈ t.mx.ic.pend) ∧ (∀ x, x ≠ g → cluster t.mx x = cluster s.mx x) ∧ keepsBut (.mc :: onRaise) s t) ∧
  (∀ (s : State) (g a : Nat) (i : Img), g < 32 → a ∈ (cluster s.mx g).poison → domeRuns s.mx = true →
    (cluster s.mx g).img = some i →
    ∃ t, exec (.poisonRewrite g a) s = .next t ∧ wordAt t.mx g a = i.words.getD a 0 ∧ a ∉ (cluster t.mx g).poison ∧
      (cluster t.mx g).repairs = satInc (cluster s.mx g).repairs 0xFFFF ∧
      (∀ b, b ≠ a → wordAt t.mx g b = wordAt s.mx g b) ∧ (∀ x, x ≠ g → cluster t.mx x = cluster s.mx x) ∧
      keepsBut [.mc] s t) ∧
  (∀ (s : State) (g : Nat) (i : Img), g < 32 → (cluster s.mx g).next = some i → (cluster s.mx g).quiesce = true →
    groupDone s.mx g = true → (cluster s.mx g).halted = false → domeRuns s.mx = true → s.mx.mc.halts = [] →
    s.mx.mc.todo = [] → s.mx.dm.updOwed = none →
    ∃ t, exec (.groupIdle g) s = .next t ∧
      cluster t.mx g = { cluster s.mx g with img := some i, quiesce := false, load := false, next := none, poison := [],
                                             store := (List.range i.words.length).zip i.words } ∧
      (∀ c, c / 4 = g → chEnabled s.mx c = true → (die t.mx (dieOf c 0)).ahead.head? = some .grpInit) ∧
      (i.reinit = true → ∀ d, dieGrp d = g → (die s.mx d).state ≠ 2 → .dieInit ∈ (die t.mx d).ahead) ∧
      (∀ d, dieGrp d ≠ g → die t.mx d = die s.mx d) ∧
      (∀ x, x ≠ g → cluster t.mx x = cluster s.mx x) ∧ keepsBut [.mc, .die] s t) ∧
  (∀ (s : State) (g : Nat) (i : Img), g < 32 → (cluster s.mx g).next = some i → (cluster s.mx g).quiesce = true →
    groupDone s.mx g = true → (cluster s.mx g).halted = false → domeRuns s.mx = true → s.mx.mc.halts ≠ [] →
    s.mx.dm.updOwed = none →
    ∃ t, exec (.groupIdle g) s = .next t ∧ cluster t.mx g = { cluster s.mx g with load := true } ∧
      (∀ x, x ≠ g → cluster t.mx x = cluster s.mx x) ∧ keepsBut [.mc] s t) ∧
  (∀ (s : State) (g : Nat), s.mx.dm.updOwed = none → ((cluster s.mx g).next = none ∨ (cluster s.mx g).quiesce = false ∨
      groupDone s.mx g = false) → exec (.groupIdle g) s = .next s) ∧
  (∀ s : State, carried s 0x600004 →
    let w := wordAt s.mx (fld (reg s.mx 0x600000) 20 16) (fld (reg s.mx 0x600000) 12 0)
    ∃ t, exec .idata0Read s = .next t ∧ t.mx.mc.cap = w ∧ t.mx.cp.rdata = w.extractLsb' 0 32 ∧
      t.mx.mc.cl = s.mx.mc.cl ∧ keepsBut [.mc, .cp] s t)

/-- 06_microcode.md R236, R248, R249; 05_channel_engine.md R216: a WAIT blocks its frame until its condition is true, and
at its turn it then goes to PC + 1; one on DUE ends the tenure and anchors the reservation; a read-ahead that blocks
gives the context back to its READ; at its timeout a WAIT goes to TGT, which GRANT and ADMIT never do. 06_microcode.md
R245; 04_commands.md R160; 05_channel_engine.md R201: EXIT ends the work item and its frame; an ERASE or PROGRAM then
completes, with Success or with its die's failure, and a die that gave no result in time becomes SUSPECT. -/
def Obligations.WaitsAndExit : Prop :=
  (∀ (s : State) (c k : Nat), c < 128 → k < 16 → runsWord s.mx (dieOf c k) 5 → mwCond (wordOf s.mx (dieOf c k)) ≠ 7 →
    (die s.mx (dieOf c k)).frame.ahead = false ∨ (die s.mx (dieOf c k)).aside = none ∨ wordCond s.mx (dieOf c k) = true →
    ∃ t, exec (.wait c k) s = .next t ∧
      die t.mx (dieOf c k) = { die s.mx (dieOf c k) with
        frame := { afterAlu s.mx (dieOf c k) with
          waiting := !wordCond s.mx (dieOf c k),
          pc := if wordCond s.mx (dieOf c k) then ((die s.mx (dieOf c k)).frame.pc + 1) % 8192
                else (die s.mx (dieOf c k)).frame.pc } } ∧
      (∀ x, x ≠ dieOf c k → die t.mx x = die s.mx x) ∧ keepsBut [.die] s t) ∧
  (∀ (s : State) (c k : Nat), c < 128 → k < 16 → runsWord s.mx (dieOf c k) 5 → mwCond (wordOf s.mx (dieOf c k)) = 7 →
    (die s.mx (dieOf c k)).frame.ahead = false ∨ (die s.mx (dieOf c k)).aside = none ∨ wordCond s.mx (dieOf c k) = true →
    ∃ t, exec (.wait c k) s = .next t ∧
      die t.mx (dieOf c k) = { die s.mx (dieOf c k) with
        mark := none,
        frame := { afterAlu s.mx (dieOf c k) with
          waiting := !wordCond s.mx (dieOf c k),
          due := (die s.mx (dieOf c k)).frame.due && !wordCond s.mx (dieOf c k), waited := true,
          pc := if wordCond s.mx (dieOf c k) then ((die s.mx (dieOf c k)).frame.pc + 1) % 8192
                else (die s.mx (dieOf c k)).frame.pc } } ∧
      holdsBus t.mx (dieOf c k) = false ∧ (chan t.mx c).ce = delN (chan s.mx c).ce (dieTgt (dieOf c k)) ∧
      (∀ x, x ≠ c → chan t.mx x = chan s.mx x) ∧ t.mx.tr = (anchorHold (dieOf c k) s.mx).tr ∧
      (∀ x, x ≠ dieOf c k → die t.mx x = die s.mx x) ∧ keepsBut [.die, .ch, .tr] s t) ∧
  (∀ (s : State) (c k : Nat) (i j : Item) (f : Frame), c < 128 → k < 16 → runsWord s.mx (dieOf c k) 5 →
    mwCond (wordOf s.mx (dieOf c k)) ≠ 4 → mwCond (wordOf s.mx (dieOf c k)) ≠ 5 → mwCond (wordOf s.mx (dieOf c k)) ≠ 6 →
    mwCond (wordOf s.mx (dieOf c k)) ≠ 7 → wordCond s.mx (dieOf c k) = false → (die s.mx (dieOf c k)).frame.ahead = true →
    (die s.mx (dieOf c k)).aside = some (j, f) → (die s.mx (dieOf c k)).cur = some i → holdsBus s.mx (dieOf c k) = true →
    f.regain = false →
    ∃ t, exec (.wait c k) s = .next t ∧
      die t.mx (dieOf c k) = { die s.mx (dieOf c k) with
        cur := some j, frame := f, aside := some (i, { afterAlu s.mx (dieOf c k) with waiting := true }) } ∧
      (∀ x, x ≠ dieOf c k → die t.mx x = die s.mx x) ∧ keepsBut [.die] s t) ∧
  (∀ (s : State) (c k : Nat) (w : Microword), c < 128 → k < 16 → waitWord s.mx (dieOf c k) = some w →
    hasTurn s.mx (dieOf c k) = true →
    ∃ t, exec (.waitSatisfied c k) s = .next t ∧
      die t.mx (dieOf c k) = { die s.mx (dieOf c k) with
        frame := { (die s.mx (dieOf c k)).frame with
          pc := ((die s.mx (dieOf c k)).frame.pc + 1) % 8192, waiting := false,
          due := (die s.mx (dieOf c k)).frame.due && mwCond w != 7 } } ∧
      (∀ x, x ≠ dieOf c k → die t.mx x = die s.mx x) ∧ keepsBut [.die] s t) ∧
  (∀ (s : State) (c k : Nat) (w : Microword), c < 128 → k < 16 → waitWord s.mx (dieOf c k) = some w →
    (condC s.mx (dieOf c k) (die s.mx (dieOf c k)).frame w = false ∨ hasTurn s.mx (dieOf c k) = false) → exec (.waitSatisfied c k) s = .next s) ∧
  (∀ (s : State) (c k : Nat) (w : Microword), c < 128 → k < 16 → waitWord s.mx (dieOf c k) = some w →
    mwCond w ≠ 4 → mwCond w ≠ 5 → (die s.mx (dieOf c k)).pfErase = false →
    (die s.mx (dieOf c k)).frame.waitAt + waitLimit s.mx (dieOf c k) w ≤ s.mx.md.time →
    ∃ t, exec (.waitTimeout c k) s = .next t ∧
      die t.mx (dieOf c k) = { die s.mx (dieOf c k) with
        frame := { (die s.mx (dieOf c k)).frame with
          pc := mwTgt w, waiting := false } } ∧
      (∀ x, x ≠ dieOf c k → die t.mx x = die s.mx x) ∧ keepsBut [.die] s t) ∧
  (∀ (s : State) (c k : Nat) (w : Microword), c < 128 → k < 16 → waitWord s.mx (dieOf c k) = some w →
    mwCond w = 4 ∨ mwCond w = 5 ∨
      s.mx.md.time < (die s.mx (dieOf c k)).frame.waitAt + waitLimit s.mx (dieOf c k) w →
    exec (.waitTimeout c k) s = .next s) ∧
  (∀ (s : State) (c k n : Nat), c < 128 → k < 16 → runsWord s.mx (dieOf c k) 7 → mwXcode (wordOf s.mx (dieOf c k)) = 0 →
    (die s.mx (dieOf c k)).cur = some (.restart n) → (die s.mx (dieOf c k)).aside = none →
    ∃ t, exec (.exit c k) s = .next t ∧
      die t.mx (dieOf c k) = { die s.mx (dieOf c k) with cur := none, frame := {}, busy := none, mark := none,
                                                         adopt := false } ∧
      holdsBus t.mx (dieOf c k) = false ∧ (∀ x, x ≠ c → chan t.mx x = chan s.mx x) ∧
      (∀ x, x ≠ dieOf c k → die t.mx x = die s.mx x) ∧ keepsBut [.die, .ch, .tr] s t) ∧
  (∀ (s : State) (c k eid xc : Nat) (e : Ent), c < 128 → k < 16 → runsWord s.mx (dieOf c k) 7 →
    mwXcode (wordOf s.mx (dieOf c k)) = xc → (die s.mx (dieOf c k)).cur = some (.entry eid) →
    (die s.mx (dieOf c k)).aside = none → (die s.mx (dieOf c k)).queue = [.entry eid] → (die s.mx (dieOf c k)).wait = [] →
    (die s.mx (dieOf c k)).lock = .none → ent s.mx eid = some e → e.cut = none → e.stripe = none →
    (eOpc e = 3 ∧ (xc = 0 ∨ xc = 0x23) ∨ eOpc e = 2 ∧ (xc = 0 ∨ xc = 0x22)) →
    ∃ t, exec (.exit c k) s = .next t ∧
      ent t.mx eid = some (concluded s.mx { e with arr := false } (256 * xc)
        (if xc = 0 then 0 else (die s.mx (dieOf c k)).frame.status.toNat)) ∧
      (∀ q, q ≠ eid → ent t.mx q = ent s.mx q) ∧ (∀ x, x ≠ dieOf c k → die t.mx x = die s.mx x) ∧
      (die t.mx (dieOf c k)).cur = none ∧ (die t.mx (dieOf c k)).queue = [] ∧ (die t.mx (dieOf c k)).busy = none ∧
      (die t.mx (dieOf c k)).frame = {} ∧ t.mx.sb.data = s.mx.sb.data ∧ keepsBut [.die, .ch, .tr, .ents, .sb] s t) ∧
  (∀ (s : State) (c k eid : Nat) (e : Ent), c < 128 → k < 16 → runsWord s.mx (dieOf c k) 7 →
    mwXcode (wordOf s.mx (dieOf c k)) = 0x24 → (die s.mx (dieOf c k)).cur = some (.entry eid) →
    (die s.mx (dieOf c k)).aside = none → (die s.mx (dieOf c k)).queue = [.entry eid] → (die s.mx (dieOf c k)).wait = [] →
    (die s.mx (dieOf c k)).lock = .none → (die s.mx (dieOf c k)).state = 0 → (die s.mx (dieOf c k)).spec = none →
    (die s.mx (dieOf c k)).ahead = [] → ent s.mx eid = some e → e.cut = none → e.stripe = none → eOpc e = 3 →
    ∃ t, exec (.exit c k) s = .next t ∧
      ent t.mx eid = some (concluded s.mx { e with arr := false } 0x2400 (mwBimm (wordOf s.mx (dieOf c k)))) ∧
      (die t.mx (dieOf c k)).state = 1 ∧ (die t.mx (dieOf c k)).ahead = [.recover] ∧ 271 ∈ t.mx.ic.pend ∧
      (die t.mx (dieOf c k)).cur = none ∧ (die t.mx (dieOf c k)).queue = [] ∧
      (∀ q, q ≠ eid → ent t.mx q = ent s.mx q) ∧ (∀ x, x ≠ dieOf c k → die t.mx x = die s.mx x) ∧
      keepsBut (.die :: .ch :: .tr :: .ents :: onRaise) s t)

/-! ## Flash PHY -/

/-- 07_phy_calibration.md R275, R276, R277, R281, R282, R288: Fervon entry of a quiet group makes every populated die
enter, and the group runs the highest Fervon rate allowed, or its standard mode where no Fervon set is accepted, if
its verify passes; where a die's routine or the verify fails, or the image has none, the group stays in its standard
mode with FVFAIL. A group with a tenure is held first, a park being withdrawn and a tenure that waits at a LAUNCH word
given up. Re-entry makes the reset dies NORMAL; where the fall-back's own verify fails the group stays in the standard
mode, the reset dies with it. A group that is halted, under recalibration, in Fervon mode or not allowed to enter
stays as it is. 00_scope.md R7; 02_boundary.md R86; 07_phy_calibration.md R281, R282, R288, R289, R290, R295: a step
down is asked for at a sample above its limit, a step up after 100 ms of cool samples; both hold the grants, and are
made at the bus-idle boundary, which counts and records them and releases the grants. The rate taken is the highest
not above the one asked for that the dies and the accepted sets then allow. A boundary whose verify does not pass
makes a fault of every channel, but a group that leaves P2 uses the set no longer. Nothing happens where no step is
due or asked for, or a tenure is in progress. -/
def Obligations.FervonAndThermal : Prop :=
  (∀ (s : State) (g : Nat) (r : FvRes), phyFree s.mx g → (cluster s.mx g).halted = false →
    (phy s.mx g).resetDies = [] → (phy s.mx g).mode ≠ 4 → (phy s.mx g).fvfail = false → fvAllowed s.mx g = true →
    kindAddr s.mx g 15 ≠ 0xFFFF → (∀ d ∈ r.fails, d < 2048 ∧ d ∉ popDies s.mx g) → (phy s.mx g).want = none →
    (phy s.mx g).therm = 0 → heat s.mx g = 0 → frateNow s.mx g = 0 → fvRates s.mx g ≠ [] → r.fv.ok = true →
    (r.fv.set = [] ∨ within8 isDeskew (setBytes (phy s.mx g) (setIdx 4 ((fvRates s.mx g).headD 0))) r.fv.set = true) →
    ∃ t, exec (.fervonEntry g r) s = .next t ∧ (phy t.mx g).mode = 4 ∧
      (phy t.mx g).rate = (fvRates s.mx g).headD 0 ∧ (phy t.mx g).fvfail = false ∧ (phy t.mx g).hold = false ∧
      (phy t.mx g).reached = s.mx.md.time ∧ (phy t.mx g).ratechg = satInc (phy s.mx g).ratechg 0xFFFF ∧
      (∀ d ∈ popDies s.mx g, die t.mx d = { die s.mx d with mode := 4 }) ∧
      (∀ d, d ∉ popDies s.mx g → die t.mx d = die s.mx d) ∧ (∀ i, i < 4 → (chan t.mx (4 * g + i)).held = false) ∧
      (∀ x, x ≠ g → phy t.mx x = phy s.mx x) ∧ keepsBut [.ph, .die, .ch] s t) ∧
  (∀ (s : State) (g : Nat) (r : FvRes), phyFree s.mx g → (cluster s.mx g).halted = false →
    (phy s.mx g).resetDies = [] → (phy s.mx g).mode ≠ 4 → (phy s.mx g).fvfail = false → fvAllowed s.mx g = true →
    (kindAddr s.mx g 15 = 0xFFFF ∨ r.fv.ok = false ∨ ∃ d ∈ r.fails, d ∈ popDies s.mx g ∨ 2048 ≤ d) →
    ∃ t, exec (.fervonEntry g r) s = .next t ∧ (phy t.mx g).mode = smode s.mx g ∧
      (phy t.mx g).rate = stdRate s.mx g ∧ (phy t.mx g).fvfail = true ∧ (phy t.mx g).hold = false ∧
      (∀ i, i < 4 → (chan t.mx (4 * g + i)).held = false) ∧
      (∀ d ∈ popDies s.mx g, (die t.mx d).mode ≠ 4) ∧ (∀ d, d ∉ popDies s.mx g → die t.mx d = die s.mx d) ∧
      (∀ x, x ≠ g → phy t.mx x = phy s.mx x) ∧ keepsBut [.ph, .die, .ch, .nl] s t) ∧
  (∀ (s : State) (g : Nat) (r : FvRes), phyFree s.mx g → (cluster s.mx g).halted = false →
    (phy s.mx g).resetDies = [] → (phy s.mx g).mode ≠ 4 → (phy s.mx g).fvfail = false → fvAllowed s.mx g = true →
    kindAddr s.mx g 15 ≠ 0xFFFF → (∀ d ∈ r.fails, d < 2048 ∧ d ∉ popDies s.mx g) → (phy s.mx g).want = none →
    fvRates s.mx g = [] → r.fv.ok = true →
    (r.fv.set = [] ∨ within8 isDeskew (setBytes (phy s.mx g) 3) r.fv.set = true) →
    ∃ t, exec (.fervonEntry g r) s = .next t ∧ (phy t.mx g).mode = smode s.mx g ∧
      (phy t.mx g).rate = stdRate s.mx g ∧ (phy t.mx g).fvfail = false ∧ (phy t.mx g).hold = false ∧
      (∀ d ∈ popDies s.mx g, (die t.mx d).mode ≠ 4) ∧ (∀ d, d ∉ popDies s.mx g → die t.mx d = die s.mx d) ∧
      (∀ i, i < 4 → (chan t.mx (4 * g + i)).held = false) ∧ (∀ x, x ≠ g → phy t.mx x = phy s.mx x) ∧
      keepsBut [.ph, .die, .ch] s t) ∧
  (∀ (s : State) (g : Nat) (r : FvRes), g < 32 → (cluster s.mx g).halted = false → (phy s.mx g).recal = [] →
    (phy s.mx g).mode ≠ 4 → (phy s.mx g).fvfail = false → fvAllowed s.mx g = true → quiet s.mx g = false →
    ∃ t, exec (.fervonEntry g r) s = .next t ∧ phy t.mx g = { phy s.mx g with hold := true } ∧
      (∀ i, i < 4 → (chan s.mx (4 * g + i)).owner.any (fun k => (die s.mx (dieOf (4 * g + i) k)).frame.launchAt.isSome) = false →
        chan t.mx (4 * g + i) = holdChan true (chan s.mx (4 * g + i))) ∧
      (∀ i, i < 4 → (chan s.mx (4 * g + i)).owner.any (fun k => (die s.mx (dieOf (4 * g + i) k)).frame.launchAt.isSome) = true →
        (chan t.mx (4 * g + i)).held = true ∧ (chan t.mx (4 * g + i)).tenure = false) ∧
      (∀ c, c / 4 ≠ g → chan t.mx c = chan s.mx c) ∧ (∀ x, x ≠ g → phy t.mx x = phy s.mx x) ∧ keepsBut [.ph, .ch] s t) ∧
  (∀ (s : State) (g d : Nat) (r : FvRes), phyFree s.mx g → (cluster s.mx g).halted = false →
    (phy s.mx g).resetDies = [d] → (die s.mx d).state = 1 →
    ∃ t, exec (.fervonEntry g r) s = .next t ∧ (phy t.mx g).resetDies = [] ∧ (phy t.mx g).hold = false ∧
      (die t.mx d).state = 0 ∧ (∀ i, i < 4 → (chan t.mx (4 * g + i)).held = false) ∧
      (r.std.ok = false → (phy t.mx g).mode = smode s.mx g ∧ (phy t.mx g).fvfail = true ∧ (die t.mx d).mode = smode s.mx g) ∧
      271 ∈ t.mx.ic.pend ∧ (∀ x, x ≠ d → (die t.mx x).state = (die s.mx x).state) ∧
      (∀ x, x ≠ g → phy t.mx x = phy s.mx x) ∧ keepsBut (.ph :: .die :: .ch :: onRaise) s t) ∧
  (∀ (s : State) (g : Nat) (r : FvRes),
    ((cluster s.mx g).halted = true ∨ (phy s.mx g).recal ≠ [] ∨
      (phy s.mx g).resetDies = [] ∧ ((phy s.mx g).mode = 4 ∨ (phy s.mx g).fvfail = true ∨ fvAllowed s.mx g = false)) →
    exec (.fervonEntry g r) s = .next s) ∧
  (∀ (s : State) (g : Nat) (temp : Int), g < 32 → s.mx.gl.pstate ≠ 3 → temp ≤ 480 →
    ∃ t, exec (.thermalSample g temp) s = .next t ∧ (phy t.mx g).temp = temp ∧ (sensor t.mx g).cur = temp ∧
      (phy t.mx g).mode = (phy s.mx g).mode ∧ (phy t.mx g).rate = (phy s.mx g).rate ∧
      (phy t.mx g).want = (phy s.mx g).want ∧ (phy t.mx g).hold = (phy s.mx g).hold ∧
      (phy t.mx g).cool135 = some ((phy s.mx g).cool135.getD s.mx.md.time) ∧
      (phy t.mx g).cool120 = some ((phy s.mx g).cool120.getD s.mx.md.time) ∧ (∀ x, x ≠ g → phy t.mx x = phy s.mx x) ∧
      (∀ x, x ≠ g → sensor t.mx x = sensor s.mx x) ∧ keepsBut (.ph :: .gl :: .dm :: onRaise) s t) ∧
  (∀ (s : State) (g : Nat) (temp : Int), g < 32 → s.mx.gl.pstate ≠ 3 → 560 < temp → (phy s.mx g).mode = 4 →
    18 < (phy s.mx g).rate → (phy s.mx g).want = none → isTrained (phy s.mx g) 2 = true →
    ∃ t, exec (.thermalSample g temp) s = .next t ∧ (phy t.mx g).temp = temp ∧ (phy t.mx g).above = true ∧ (phy t.mx g).want = some (4, 18, 2) ∧
      (phy t.mx g).hold = true ∧ (phy t.mx g).rate = (phy s.mx g).rate ∧ (phy t.mx g).cool135 = none ∧
      (∀ i, i < 4 → (chan t.mx (4 * g + i)).held = true) ∧ (∀ x, x ≠ g → phy t.mx x = phy s.mx x) ∧
      keepsBut (.ph :: .ch :: .gl :: .dm :: onRaise) s t) ∧
  (∀ (s : State) (g s0 : Nat), g < 32 → (phy s.mx g).mode = 4 → (phy s.mx g).rate = 24 → (phy s.mx g).want = none →
    frateNow s.mx g = 0 → (phy s.mx g).cool120 = some s0 → 32 ∈ fvRates s.mx g →
    s0 + 100000000 ≤ s.mx.md.time → (phy s.mx g).reached + 100000000 ≤ s.mx.md.time →
    ∃ t, exec (.thermalReturn g) s = .next t ∧ phy t.mx g = { phy s.mx g with want := some (4, 32, 0), hold := true } ∧
      (∀ i, i < 4 → (chan t.mx (4 * g + i)).held = true) ∧ (∀ x, x ≠ g → phy t.mx x = phy s.mx x) ∧
      keepsBut [.ph, .ch] s t) ∧
  (∀ (s : State) (g mode rate th : Nat), phyFree s.mx g → (phy s.mx g).want = some (mode, rate, th) →
    (phy s.mx g).hold = true → (phy s.mx g).resetDies = [] →
    let w := if mode = 4 then fvWish s.mx g rate th else (smode s.mx g, stdRate s.mx g, 0)
    ∃ t, exec (.busIdleBoundary g {}) s = .next t ∧ (phy t.mx g).mode = w.1 ∧ (phy t.mx g).rate = w.2.1 ∧
      (phy t.mx g).therm = w.2.2 ∧ (phy t.mx g).want = none ∧ (phy t.mx g).hold = false ∧
      (phy t.mx g).ratechg = (if w.2.1 ≠ (phy s.mx g).rate ∨ w.1 ≠ (phy s.mx g).mode
                              then satInc (phy s.mx g).ratechg 0xFFFF else (phy s.mx g).ratechg) ∧
      (phy t.mx g).reached = (if w.2.1 ≠ (phy s.mx g).rate ∨ w.1 ≠ (phy s.mx g).mode
                              then s.mx.md.time else (phy s.mx g).reached) ∧
      (phy t.mx g).forceTaps = bit (reg s.mx (phOff g 0xC)) 31 ∧ (phy t.mx g).sets = (phy s.mx g).sets ∧
      (w.2.1 ≠ (phy s.mx g).rate ∨ w.1 ≠ (phy s.mx g).mode → frateNow s.mx g = 0 →
        t.mx.nl = (log s.mx .rateStep g (phy s.mx g).rate w.2.1).nl) ∧
      (∀ d ∈ popDies s.mx g, (die t.mx d).mode =
        if w.1 ≠ 4 ∧ (die s.mx d).mode = 4 then smode s.mx g else (die s.mx d).mode) ∧
      (∀ d, d ∉ popDies s.mx g → die t.mx d = die s.mx d) ∧
      (∀ i, i < 4 → (chan t.mx (4 * g + i)).held = false) ∧ (∀ x, x ≠ g → phy t.mx x = phy s.mx x) ∧
      keepsBut [.ph, .die, .ch, .nl] s t) ∧
  (∀ (s : State) (g : Nat) (temp : Int), g < 32 → s.mx.gl.pstate ≠ 3 → 500 < temp → temp ≤ 560 → (phy s.mx g).mode = 4 →
    (phy s.mx g).rate = 32 → (phy s.mx g).want = none → frateNow s.mx g = 0 → isTrained (phy s.mx g) 1 = true →
    ∃ t, exec (.thermalSample g temp) s = .next t ∧ (phy t.mx g).temp = temp ∧ (phy t.mx g).want = some (4, 24, 1) ∧
      (phy t.mx g).hold = true ∧ (phy t.mx g).rate = 32 ∧ (phy t.mx g).cool120 = none ∧
      (∀ i, i < 4 → (chan t.mx (4 * g + i)).held = true) ∧ (∀ x, x ≠ g → phy t.mx x = phy s.mx x) ∧
      keepsBut (.ph :: .ch :: .gl :: .dm :: onRaise) s t) ∧
  (∀ (s : State) (g : Nat) (temp : Int), g < 32 → s.mx.gl.pstate ≠ 3 → 560 < temp →
    (phy s.mx g).want = some (4, 24, 1) → isTrained (phy s.mx g) 2 = true →
    ∃ t, exec (.thermalSample g temp) s = .next t ∧ (phy t.mx g).want = some (4, 18, 2) ∧ (phy t.mx g).hold = true ∧
      (∀ i, i < 4 → (chan t.mx (4 * g + i)).held = true) ∧ (∀ x, x ≠ g → phy t.mx x = phy s.mx x) ∧
      keepsBut (.ph :: .ch :: .gl :: .dm :: onRaise) s t) ∧
  (∀ (s : State) (g s0 : Nat), g < 32 → (phy s.mx g).mode = 4 → (phy s.mx g).rate = 18 → (phy s.mx g).want = none →
    (phy s.mx g).cool135 = some s0 → s0 + 100000000 ≤ s.mx.md.time → (phy s.mx g).reached + 100000000 ≤ s.mx.md.time →
    (frateNow s.mx g = 0 ∧ 24 ∈ fvRates s.mx g ∨ frateNow s.mx g = 1 ∨ frateNow s.mx g = 2) →
    ∃ t, exec (.thermalReturn g) s = .next t ∧
      phy t.mx g = { phy s.mx g with
        want := some (if frateNow s.mx g = 0 then (4, 24, 1) else fvWish s.mx g (setRate (frateNow s.mx g - 1)) 0),
        hold := true } ∧
      (∀ i, i < 4 → (chan t.mx (4 * g + i)).held = true) ∧ (∀ x, x ≠ g → phy t.mx x = phy s.mx x) ∧
      keepsBut [.ph, .ch] s t) ∧
  (∀ (s : State) (g : Nat),
    ((phy s.mx g).mode ≠ 4 ∨ (phy s.mx g).want ≠ none ∨
      (phy s.mx g).rate = 18 ∧ coolFor s.mx (phy s.mx g).cool135 (phy s.mx g).reached = false ∨
      (phy s.mx g).rate = 24 ∧ coolFor s.mx (phy s.mx g).cool120 (phy s.mx g).reached = false) →
    exec (.thermalReturn g) s = .next s) ∧
  (∀ (s : State) (g mode rate th : Nat), phyFree s.mx g → (phy s.mx g).want = some (mode, rate, th) →
    (phy s.mx g).hold = true → (phy s.mx g).waking = false →
    let w := if mode = 4 then fvWish s.mx g rate th else (smode s.mx g, stdRate s.mx g, 0)
    ∃ t, exec (.busIdleBoundary g { ok := false }) s = .next t ∧ (phy t.mx g).mode = w.1 ∧ (phy t.mx g).rate = w.2.1 ∧
      (phy t.mx g).want = none ∧ (∀ i, i < 4 → i ∈ (phy t.mx g).recal) ∧
      (∀ i, i < 4 → (chan t.mx (4 * g + i)).held = true) ∧ 276 ∈ t.mx.ic.pend ∧
      (∀ x, x ≠ g → phy t.mx x = phy s.mx x) ∧ keepsBut (.ph :: .die :: .ch :: onRaise) s t) ∧
  (∀ (s : State) (g : Nat) (r : PhyRes),
    ((phy s.mx g).want = none ∨ (phy s.mx g).hold = false ∨ quiet s.mx g = false ∨ (phy s.mx g).recal ≠ []) →
    exec (.busIdleBoundary g r) s = .next s) ∧
  (∀ (s : State) (g mode rate th : Nat), phyFree s.mx g → (phy s.mx g).want = some (mode, rate, th) →
    (phy s.mx g).hold = true → (phy s.mx g).resetDies = [] → (phy s.mx g).waking = true →
    let w := if mode = 4 then fvWish s.mx g rate th else (smode s.mx g, stdRate s.mx g, 0)
    ∃ t, exec (.busIdleBoundary g { ok := false }) s = .next t ∧ (phy t.mx g).recal = [] ∧ (phy t.mx g).hold = false ∧
      isTrained (phy t.mx g) (setIdx w.1 w.2.1) = false ∧ (phy t.mx g).want = none ∧
      (∀ i, i < 4 → (chan t.mx (4 * g + i)).held = false) ∧ (∀ x, x ≠ g → phy t.mx x = phy s.mx x) ∧
      keepsBut [.ph, .die, .ch, .nl] s t)

/-- 07_phy_calibration.md R267, R283, R284, R286, R287, R288, R291, R296: gradual application moves each trim by at most
one step, within its range, on a channel's pins between its tenures; a loop-back check that fails is a fault of its
channel. Short calibration sets the drive codes of the set in use; a code it cannot reach is a fault of its pad's
channel. A recalibration ends with the grants released, or one rate down where its verify does not pass; one whose
fault came during a rate change is made at the new rate. Forced taps stand on the pins in Fervon mode. Nothing happens
where tracking is off, the complex sleeps or no recalibration is in progress. 00_scope.md R7; 07_phy_calibration.md
R279, R290, R291, R293, R294, R296, R298: FRATE, DFE and RETRAIN, at once, at the next boundary or, written during a
hold, after it; and the writes of the Ephemeris, 32 records under a SEQ above those of both copies, begun with one
copy in its block's next page-set or an erase of the full block. -/
def Obligations.TrimsAndPhyControls : Prop :=
  (∀ (s : State) (g : Nat) (centre : List Byte), g < 32 → s.mx.gl.pstate ≠ 3 → fld (track s.mx g) 15 0 ≠ 0 →
    (phy s.mx g).hold = false → (phy s.mx g).recal = [] → setBytes (phy s.mx g) (curSet (phy s.mx g)) ≠ [] →
    let p := phy s.mx g
    let b := setBytes p (curSet p)
    ∃ t, exec (.gradualApplication g centre 0) s = .next t ∧
      phy t.mx g = { p with sets := tabSet p.sets (curSet p) (setBytes (phy t.mx g) (curSet p)), stale := (phy t.mx g).stale } ∧
      (∀ i k, i < 4 → k < 64 →
        (trimAt (setBytes (phy t.mx g) (curSet p)) i k - trimAt b i k).natAbs ≤ (if k < 0x28 then 1 else 0)) ∧
      (∀ i k, i < 4 → k < 64 → trimAt (setBytes (phy t.mx g) (curSet p)) i k =
        (if k < 8 ∨ k < 0x10 ∧ busFree s.mx (4 * g + i) = true then stepToward (trimAt b i k) (trimAt centre i k) 0 127
         else if 0x10 ≤ k ∧ k < 0x18 then stepToward (trimAt b i k) (trimAt centre i k) 0 70
         else if 0x18 ≤ k ∧ k < 0x20 ∧ p.mode = 4 ∧ p.forceTaps = false then
           stepToward (trimAt b i k) (trimAt centre i k) (-40) 40
         else if 0x20 ≤ k ∧ k < 0x28 ∧ p.mode = 4 ∧ p.forceTaps = false then
           stepToward (trimAt b i k) (trimAt centre i k) (-20) 20
         else trimAt b i k)) ∧
      (∀ i, i < 4 → (chan s.mx (4 * g + i)).tenure = true → (chan s.mx (4 * g + i)).owner ≠ none →
        actingTrims t.mx g i = actingTrims s.mx g i) ∧
      (∀ x, x ≠ g → phy t.mx x = phy s.mx x) ∧ keepsBut [.ph] s t) ∧
  (∀ (s : State) (g : Nat) (pu pd : ZqRes), g < 32 → s.mx.gl.pstate ≠ 3 → fld (track s.mx g) 31 16 ≠ 0 → 0 < pu.code →
    pu.code < 63 → 0 < pd.code → pd.code < 63 → pu.ch < 4 → pd.ch < 4 → setBytes (phy s.mx g) (curSet (phy s.mx g)) ≠ [] →
    let p := phy s.mx g
    ∃ t, exec (.shortZq g pu pd) s = .next t ∧
      phy t.mx g = { p with sets := tabSet p.sets (curSet p)
                              (patch (setBytes p (curSet p)) 2 [BitVec.ofNat 8 pu.code, BitVec.ofNat 8 pd.code]),
                            stale := (phy t.mx g).stale } ∧
      (∀ i, i < 4 → (chan s.mx (4 * g + i)).tenure = true → (chan s.mx (4 * g + i)).owner ≠ none →
        actingTrims t.mx g i = actingTrims s.mx g i) ∧
      (∀ x, x ≠ g → phy t.mx x = phy s.mx x) ∧ keepsBut [.ph] s t) ∧
  (∀ (s : State) (g : Nat) (pu pd : ZqRes), g < 32 → s.mx.gl.pstate ≠ 3 → fld (track s.mx g) 31 16 ≠ 0 → pu.code < 64 →
    pd.code < 64 → pu.ch < 4 → pd.ch < 4 → (pu.code = 0 ∨ pu.code = 63 ∨ pd.code = 0 ∨ pd.code = 63) → quiet s.mx g = true →
    let bad (i : Nat) := (zqBad pu.code && pu.ch == i) || (zqBad pd.code && pd.ch == i)
    ∃ t, exec (.shortZq g pu pd) s = .next t ∧ (∀ i, i < 4 → (i ∈ (phy t.mx g).recal ↔ bad i = true ∨ i ∈ (phy s.mx g).recal)) ∧
      (∀ i, i < 4 → chan t.mx (4 * g + i) =
        if bad i then holdChan true (chan s.mx (4 * g + i)) else chan s.mx (4 * g + i)) ∧ 276 ∈ t.mx.ic.pend ∧
      (∀ c, c / 4 ≠ g → chan t.mx c = chan s.mx c) ∧
      (∀ x, x ≠ g → phy t.mx x = phy s.mx x) ∧ keepsBut (.ph :: .ch :: onRaise) s t) ∧
  (∀ (s : State) (g : Nat), g < 32 → (phy s.mx g).recal ≠ [] → (phy s.mx g).hold = false → (phy s.mx g).retrain = none →
    (phy s.mx g).newRate = false → (phy s.mx g).later = false →
    let p := phy s.mx g
    ∃ t, exec (.recalibrationDone g {}) s = .next t ∧
      phy t.mx g = { p with recal := [], recals := satInc p.recals 0xFFFF, fresh := p.recal.foldl insN p.fresh } ∧
      (∀ i ∈ p.recal, chan t.mx (4 * g + i) = { chan s.mx (4 * g + i) with held := false }) ∧
      (∀ i, i < 4 → i ∉ p.recal → chan t.mx (4 * g + i) = chan s.mx (4 * g + i)) ∧ (∀ x, x ≠ g → phy t.mx x = phy s.mx x) ∧
      keepsBut [.ph, .ch] s t) ∧
  (∀ (s : State) (g i : Nat) (centre : List Byte) (bad : BitVec 4), g < 32 → s.mx.gl.pstate ≠ 3 →
    fld (track s.mx g) 15 0 ≠ 0 → (phy s.mx g).hold = false → (phy s.mx g).recal = [] → i < 4 → bad.getLsbD i = true →
    busFree s.mx (4 * g + i) = true →
    ∃ t, exec (.gradualApplication g centre bad) s = .next t ∧ 276 ∈ t.mx.ic.pend ∧
      (∀ j, j < 4 → (j ∈ (phy t.mx g).recal ↔ bad.getLsbD j = true ∧ busFree s.mx (4 * g + j) = true)) ∧
      (∀ j, j < 4 → chan t.mx (4 * g + j) =
        if bad.getLsbD j && busFree s.mx (4 * g + j) then holdChan true (chan s.mx (4 * g + j)) else chan s.mx (4 * g + j)) ∧
      (∀ x, x ≠ g → phy t.mx x = phy s.mx x) ∧ keepsBut (.ph :: .ch :: onRaise) s t) ∧
  (∀ (s : State) (g : Nat) (centre : List Byte) (bad : BitVec 4),
    (s.mx.gl.pstate = 3 ∨ fld (track s.mx g) 15 0 = 0 ∨ (phy s.mx g).hold = true ∨ (phy s.mx g).recal ≠ []) →
    exec (.gradualApplication g centre bad) s = .next s) ∧
  (∀ (s : State) (g : Nat) (pu pd : ZqRes), (s.mx.gl.pstate = 3 ∨ fld (track s.mx g) 31 16 = 0) →
    exec (.shortZq g pu pd) s = .next s) ∧
  (∀ (s : State) (g : Nat), g < 32 → (phy s.mx g).recal ≠ [] → (phy s.mx g).hold = false → (phy s.mx g).retrain = none →
    (phy s.mx g).newRate = false → (phy s.mx g).later = false → (phy s.mx g).mode ≠ 4 →
    let p := phy s.mx g
    ∃ t, exec (.recalibrationDone g { ok := false }) s = .next t ∧
      phy t.mx g = { p with recal := [], recals := satInc p.recals 0xFFFF, fresh := p.recal.foldl insN p.fresh,
                            fail := p.fail ||| chBits p.recal } ∧
      (∀ i ∈ p.recal, chan t.mx (4 * g + i) = { chan s.mx (4 * g + i) with held := false }) ∧
      (∀ x, x ≠ g → phy t.mx x = phy s.mx x) ∧ keepsBut [.ph, .ch, .nl] s t) ∧
  (∀ (s : State) (g : Nat), g < 32 → (phy s.mx g).recal ≠ [] → (phy s.mx g).retrain = none → (phy s.mx g).hold = false → (phy s.mx g).newRate = false →
    (phy s.mx g).want = none → (phy s.mx g).mode = 4 →
    let p := phy s.mx g
    ∃ t, exec (.recalibrationDone g { ok := false }) s = .next t ∧
      phy t.mx g = { p with recal := [], recals := satInc p.recals 0xFFFF, fresh := p.recal.foldl insN p.fresh,
                            want := some (fvWish s.mx g (p.rate - 1) p.therm), hold := true } ∧
      (∀ i, i < 4 → (chan t.mx (4 * g + i)).held = true) ∧ t.mx.nl = (log s.mx .recalFailed g p.rate).nl ∧
      (∀ x, x ≠ g → phy t.mx x = phy s.mx x) ∧ keepsBut [.ph, .ch, .nl] s t) ∧
  (∀ (s : State) (g : Nat) (r : PhyRes), ((phy s.mx g).recal = [] ∨ (phy s.mx g).newRate = true ∧ quiet s.mx g = false) →
    exec (.recalibrationDone g r) s = .next s) ∧
  (∀ (s : State) (g mode rate th : Nat), g < 32 → (phy s.mx g).recal ≠ [] → (phy s.mx g).newRate = true → quiet s.mx g = true →
    (phy s.mx g).want = some (mode, rate, th) → (phy s.mx g).hold = true → (phy s.mx g).retrain = none →
    (phy s.mx g).resetDies = [] → (phy s.mx g).later = false →
    let w := if mode = 4 then fvWish s.mx g rate th else (smode s.mx g, stdRate s.mx g, 0)
    ∃ t, exec (.recalibrationDone g {}) s = .next t ∧ (phy t.mx g).mode = w.1 ∧ (phy t.mx g).rate = w.2.1 ∧
      (phy t.mx g).want = none ∧ (phy t.mx g).recal = [] ∧ (phy t.mx g).newRate = false ∧ (phy t.mx g).hold = false ∧
      (phy t.mx g).recals = satInc (phy s.mx g).recals 0xFFFF ∧ (∀ i, i < 4 → (chan t.mx (4 * g + i)).held = false) ∧
      (∀ x, x ≠ g → phy t.mx x = phy s.mx x) ∧ keepsBut [.ph, .die, .ch, .nl] s t) ∧
  (∀ (m : Mx) (g i : Nat), (phy m g).forceTaps = true → (phy m g).mode = 4 → (phy m g).stale = [] → i < 4 →
    (setBytes (phy m g) (curSet (phy m g))).length = 272 →
    slice (actingTrims m g i) 0x1A 8 = List.replicate 8 (BitVec.ofNat 8 (fld (reg m (phOff g 0xC)) 7 0)) ∧
    slice (actingTrims m g i) 0x22 8 = List.replicate 8 (BitVec.ofNat 8 (fld (reg m (phOff g 0xC)) 15 8))) ∧
  (∀ (s : State) (g r : Nat), g < 32 → r < 4 → carried s (phOff g 0) →
    phCfgOk ((phCfg s.mx g &&& 0xF3FFFFFF) ||| word (2 ^ 26 * r)) = true → (phy s.mx g).mode ≠ 4 →
    (phy s.mx g).hold = false → (phy s.mx g).recal = [] →
    ∃ t, exec (.frate g r) s = .next t ∧ frateOf t.mx g = r ∧ phy t.mx g = { phy s.mx g with hot := false } ∧
      (∀ o, o ≠ phOff g 0 → reg t.mx o = reg s.mx o) ∧ (∀ x, x ≠ g → phy t.mx x = phy s.mx x) ∧
      keepsBut [.regs, .cp, .ph] s t) ∧
  (∀ (s : State) (g r : Nat), g < 32 → r < 4 → carried s (phOff g 0) →
    phCfgOk ((phCfg s.mx g &&& 0xF3FFFFFF) ||| word (2 ^ 26 * r)) = true → (phy s.mx g).mode = 4 → r ≠ frateOf s.mx g →
    (phy s.mx g).hold = false → (phy s.mx g).recal = [] →
    ∃ t, exec (.frate g r) s = .next t ∧ frateOf t.mx g = r ∧ (phy t.mx g).want ≠ none ∧ (phy t.mx g).hold = true ∧
      ((phy s.mx g).want = none → (phy s.mx g).frate = none → (phy s.mx g).therm ≠ 2 → heat s.mx g ≠ 2 → r ≠ 0 → setRate (r - 1) ∈ fvRates s.mx g →
        (phy t.mx g).want = some (4, setRate (r - 1), 0)) ∧
      ((phy s.mx g).want = some (4, 18, 2) → 18 ∈ fvRates s.mx g → (phy t.mx g).want = some (4, 18, 2)) ∧
      (∀ o, o ≠ phOff g 0 → reg t.mx o = reg s.mx o) ∧ (phy t.mx g).rate = (phy s.mx g).rate ∧ (∀ i, i < 4 → (chan t.mx (4 * g + i)).held = true) ∧
      (∀ x, x ≠ g → phy t.mx x = phy s.mx x) ∧ keepsBut [.regs, .cp, .ph, .ch] s t) ∧
  (∀ (s : State) (g : Nat) (v : Word), g < 32 → carried s (phOff g 0xC) → tapsOk v = true → bit v 31 = true →
    (phy s.mx g).hold = false → (phy s.mx g).recal = [] →
    ∃ t, exec (.dfeForce g v) s = .next t ∧ reg t.mx (phOff g 0xC) = v &&& 0x8000FFFF ∧
      phy t.mx g = { phy s.mx g with forceTaps := true } ∧
      (∀ o, o ≠ phOff g 0xC → reg t.mx o = reg s.mx o) ∧ (∀ x, x ≠ g → phy t.mx x = phy s.mx x) ∧
      keepsBut [.regs, .cp, .ph] s t) ∧
  (∀ (s : State) (g : Nat) (v : Word), g < 32 → carried s (phOff g 0xC) → tapsOk v = false →
    bit (reg s.mx (phOff g 0xC)) 31 = (phy s.mx g).forceTaps →
    ∃ t, exec (.dfeForce g v) s = .next t ∧ t.mx.cp = { s.mx.cp with err := false } ∧
      t.mx.nl = (log s.mx (.regRefused (offBlock (phOff g 0xC))) (phOff g 0xC)).nl ∧ keepsBut [.cp, .nl] s t) ∧
  (∀ (s : State) (g : Nat) (r : TrainRes) (a b : List Byte), phyFree s.mx g → carried s (phOff g 8) →
    (phy s.mx g).hold = false → (phy s.mx g).want = none → (phy s.mx g).resetDies = [] →
    r.grp = g → r.set < 4 → takenPair r.runs = some (a, b) →
    eyeFails s.mx g (meanSet s.mx g r.set a b) = [] →
    ∃ t, exec (.retrain g [r]) s = .next t ∧ isTrained (phy t.mx g) r.set = true ∧
      setBytes (phy t.mx g) r.set = meanSet s.mx g r.set a b ∧ (phy t.mx g).fail = 0 ∧ (phy t.mx g).fvfail = false ∧
      (phy t.mx g).hold = false ∧ (phy t.mx g).retrain = none ∧ (phy t.mx g).ttrain = s.mx.md.time ∧
      (phy t.mx g).iver = iverOf s.mx g ∧ t.mx.ph.due = true ∧ (∀ i, i < 4 → (chan t.mx (4 * g + i)).held = false) ∧
      ((phy s.mx g).mode ≠ 4 → (phy t.mx g).mode = smode s.mx g ∧ (phy t.mx g).rate = stdRate s.mx g) ∧
      (∀ x, x ≠ g → phy t.mx x = phy s.mx x) ∧
      keepsBut [.cp, .ph, .die, .ch, .nl] s t) ∧
  (∀ (s : State) (g : Nat) (rs : List TrainRes), g < 32 → carried s (phOff g 8) →
    ((phy s.mx g).hold = true ∨ (phy s.mx g).recal ≠ []) →
    ∃ t, exec (.retrain g rs) s = .next t ∧
      phy t.mx g = { phy s.mx g with retrain := some rs } ∧
      (∀ x, x ≠ g → phy t.mx x = phy s.mx x) ∧ keepsBut [.cp, .ph] s t) ∧
  (∀ s : State, ephWanted s.mx = true →
    let b := ephBFirst s.mx
    let row := (reg s.mx (phEphOff 4)).toNat
    let q := 1 + max (if s.mx.ph.ephA.valid then s.mx.ph.ephA.seq else 0) (if s.mx.ph.ephB.valid then s.mx.ph.ephB.seq else 0)
    ∃ t, exec (.ephemerisWrite .held .held) s = .next t ∧
      t.mx.ph = { s.mx.ph with due := false, image := ephImage s.mx q,
                               ephAt := if s.mx.ph.due then s.mx.ph.ephAt else some s.mx.md.time } ∧
      sysW t.mx 10 = some {
        die := ephDie s.mx b, copyB := b, later := false,
        ops := (if ppb s.mx (ephDie s.mx b) ≤ (ephCopy s.mx b).page then [(row, .erase)] else []) ++
               [(row + ephPage s.mx b, .bytes (ephImage s.mx q))] } ∧
      (if ppb s.mx (ephDie s.mx b) ≤ (ephCopy s.mx b).page then
         ent t.mx (sysEid 10) = some (sysEnt (ephDie s.mx b) row 3 .placed) ∧
         .write (sysEid 10) ∈ (die t.mx (ephDie s.mx b)).ahead ∧ t.mx.sb = s.mx.sb
       else
         ent t.mx (sysEid 10) = some (sysEnt (ephDie s.mx b) (row + ephPage s.mx b) 2 .waitRes) ∧ t.mx.die = s.mx.die ∧
         t.mx.sb.wait = s.mx.sb.wait ++ [{ owner := .sys 10, cls := 4, n := (16 * frameLen 5 + 127) / 128 }]) ∧
      (∀ k, k ≠ 10 → sysW t.mx k = sysW s.mx k) ∧ (∀ x, x ≠ ephDie s.mx b → die t.mx x = die s.mx x) ∧
      keepsBut [.ents, .sb, .die, .ph, .wr] s t) ∧
  (∀ (s : State) (okA okB : Told), ephWanted s.mx = false → exec (.ephemerisWrite okA okB) s = .next s) ∧
  (∀ (s : State) (g r : Nat), g < 32 → r < 4 → carried s (phOff g 0) →
    phCfgOk ((phCfg s.mx g &&& 0xF3FFFFFF) ||| word (2 ^ 26 * r)) = true → r ≠ frateOf s.mx g →
    ((phy s.mx g).hold = true ∨ (phy s.mx g).recal ≠ []) →
    ∃ t, exec (.frate g r) s = .next t ∧ frateOf t.mx g = r ∧ frateNow t.mx g = frateNow s.mx g ∧
      phy t.mx g = { phy s.mx g with later := true, frate := some (frateNow s.mx g) } ∧
      (∀ x, x ≠ g → phy t.mx x = phy s.mx x) ∧ keepsBut [.regs, .cp, .ph] s t) ∧
  (∀ (s : State) (g : Nat) (v : Word), g < 32 → carried s (phOff g 0xC) → tapsOk v = true → bit v 31 = false →
    (phy s.mx g).forceTaps = true → (phy s.mx g).hold = false → (phy s.mx g).recal = [] → (phy s.mx g).want = none →
    let p := phy s.mx g
    ∃ t, exec (.dfeForce g v) s = .next t ∧ reg t.mx (phOff g 0xC) = v &&& 0x8000FFFF ∧
      phy t.mx g = { p with want := some (p.mode, p.rate, p.therm), hold := true } ∧
      (∀ i, i < 4 → (chan t.mx (4 * g + i)).held = true) ∧
      (∀ x, x ≠ g → phy t.mx x = phy s.mx x) ∧ keepsBut [.regs, .cp, .ph, .ch] s t) ∧
  (∀ (s : State) (g : Nat) (v : Word), g < 32 → carried s (phOff g 0xC) → tapsOk v = true →
    ((phy s.mx g).hold = true ∨ (phy s.mx g).recal ≠ []) →
    (bit v 31 ≠ (phy s.mx g).forceTaps ∨ bit v 31 ≠ bit (reg s.mx (phOff g 0xC)) 31) →
    ∃ t, exec (.dfeForce g v) s = .next t ∧ reg t.mx (phOff g 0xC) = v &&& 0x8000FFFF ∧
      phy t.mx g = { phy s.mx g with later := true } ∧
      (∀ x, x ≠ g → phy t.mx x = phy s.mx x) ∧ keepsBut [.regs, .cp, .ph] s t)

/-! ## Codec -/

/-- 08_codec.md R305 to R312, R316: a codeword encoded and read back without an error is a codeword, and derandomises to
the plain bytes that were encoded. -/
def Obligations.CodecRoundTrip : Prop :=
  ∀ (prof row cw : Nat) (plain : List Byte), 1 ≤ prof → prof ≤ 5 → plain.length = 4128 →
    isCodeword (parityRows prof) (encodeFrame (parityRows prof) (scramble row cw plain)) = true ∧
    (encodeFrame (parityRows prof) (scramble row cw plain)).length = frameLen prof ∧
    scramble row cw ((encodeFrame (parityRows prof) (scramble row cw plain)).take 4128) = plain

/-- 08_codec.md R312, R314, R318, R319, R326, R330: free lanes take the oldest frame: an encoder the plain bytes, a decode
lane the frame as read with the limits and magnitudes that stand; a frame with at most CX_ERAS.LIM zeros is settled as
erased. Nothing is taken where no frame waits, no lane is free or the cluster has a fault. 08_codec.md R300, R312,
R313, R315, R316, R317: an encoded frame is written back and the entry with no other frame to encode may go to its
die, a page-set of the complex's own ahead of its entries; a frame whose checks are all satisfied decodes to its plain
bytes, which are written over its first 4,128, and is good unless its CRC says META_CRC; any other result of a lane is
applied and counted. Nothing ends in a lane that holds no frame. -/
def Obligations.CodecLanes : Prop :=
  (∀ (s : State) (g l : Nat) (c : CwRef) (q : List CwRef) (e : Ent) (b : List Byte), g < 32 →
    (codec s.mx g).eq = c :: q → (codec s.mx g).faulted = none → freeLane (codec s.mx g).el 8 = some l →
    ent s.mx c.eid = some e → readsClean s.mx (resOwner c.eid) 12 (c.cw * frameLen (encProf s.mx e)) 4128 b →
    ∃ t, exec (.encode g) s = .next t ∧
      codec t.mx g = { codec s.mx g with
        eq := q, el := tabSet (codec s.mx g).el l (some { c with at_ := s.mx.md.time, bytes := [encPlain s.mx e b] }) } ∧
      (∀ x, x ≠ g → codec t.mx x = codec s.mx x) ∧ keepsBut [.cx] s t) ∧
  (∀ (s : State) (g l : Nat) (c : CwRef) (q : List CwRef) (e : Ent) (b : List Byte), g < 32 →
    (codec s.mx g).hq = c :: q → (codec s.mx g).faulted = none → freeLane (codec s.mx g).hl 16 = some l →
    ent s.mx c.eid = some e → readsClean s.mx (resOwner c.eid) 12 (frameOff e c.cw 0) (frameLen (eSrcProf e)) b →
    isErased s.mx b = false →
    ∃ t, exec (.hardDecode g) s = .next t ∧
      codec t.mx g = { codec s.mx g with
        hq := q, hl := tabSet (codec s.mx g).hl l (some { c with at_ := s.mx.md.time, bytes := [b], lim := hmax s.mx }) } ∧
      (∀ x, x ≠ g → codec t.mx x = codec s.mx x) ∧ keepsBut [.cx] s t) ∧
  (∀ (s : State) (g l : Nat) (c : CwRef) (q : List CwRef) (e : Ent) (b : List Byte), g < 32 →
    (codec s.mx g).hq = c :: q → (codec s.mx g).faulted = none → freeLane (codec s.mx g).hl 16 = some l →
    ent s.mx c.eid = some e → readsClean s.mx (resOwner c.eid) 12 (frameOff e c.cw 0) (frameLen (eSrcProf e)) b →
    isErased s.mx b = true → c.cw < e.cws.length → 2 ≤ e.sent →
    ∃ t f, exec (.hardDecode g) s = .next t ∧ (codec t.mx g).hl = (codec s.mx g).hl ∧ (codec t.mx g).hq = q ∧
      (codec t.mx g).neras = satInc (codec s.mx g).neras 0xFFFFFFFF ∧ ent t.mx c.eid = some f ∧
      cwAt f c.cw = .erased ∧ f.sent = e.sent - 1 ∧ (∀ x, x ≠ g → codec t.mx x = codec s.mx x) ∧
      (∀ x, x ≠ c.eid → ent t.mx x = ent s.mx x) ∧ keepsBut [.cx, .ents, .sg] s t) ∧
  (∀ (s : State) (g l : Nat) (c : CwRef) (q : List CwRef) (e : Ent) (a b : List Byte), g < 32 →
    (codec s.mx g).sq = c :: q → (codec s.mx g).faulted = none → freeLane (codec s.mx g).sl 4 = some l → c.mode = 1 →
    ent s.mx c.eid = some e → readsClean s.mx (resOwner c.eid) 12 (frameOff e c.cw 0) (frameLen (eSrcProf e)) a →
    readsClean s.mx (resOwner c.eid) 12 (frameOff e c.cw 1) (frameLen (eSrcProf e)) b →
    ∃ t, exec (.softDecode g) s = .next t ∧
      codec t.mx g = { codec s.mx g with
        sq := q, sl := tabSet (codec s.mx g).sl l
          (some { c with at_ := s.mx.md.time, bytes := [a, b], lim := smax s.mx, llr := reg s.mx (cxGlobOff 4) }) } ∧
      (∀ x, x ≠ g → codec t.mx x = codec s.mx x) ∧ keepsBut [.cx] s t) ∧
  (∀ (s : State) (g l : Nat) (c : CwRef) (q : List CwRef) (e : Ent) (a b d : List Byte), g < 32 →
    (codec s.mx g).sq = c :: q → (codec s.mx g).faulted = none → freeLane (codec s.mx g).sl 4 = some l → c.mode = 2 →
    ent s.mx c.eid = some e → readsClean s.mx (resOwner c.eid) 12 (frameOff e c.cw 0) (frameLen (eSrcProf e)) a →
    readsClean s.mx (resOwner c.eid) 12 (frameOff e c.cw 1) (frameLen (eSrcProf e)) b →
    readsClean s.mx (resOwner c.eid) 12 (frameOff e c.cw 2) (frameLen (eSrcProf e)) d →
    ∃ t, exec (.softDecode g) s = .next t ∧
      codec t.mx g = { codec s.mx g with
        sq := q, sl := tabSet (codec s.mx g).sl l
          (some { c with at_ := s.mx.md.time, bytes := [a, b, d], lim := smax s.mx, llr := reg s.mx (cxGlobOff 4) }) } ∧
      (∀ x, x ≠ g → codec t.mx x = codec s.mx x) ∧ keepsBut [.cx] s t) ∧
  (∀ (s : State) (g : Nat), ((codec s.mx g).eq = [] ∨ (codec s.mx g).faulted ≠ none ∨ freeLane (codec s.mx g).el 8 = none) →
    exec (.encode g) s = .next s) ∧
  (∀ (s : State) (g : Nat), ((codec s.mx g).hq = [] ∨ (codec s.mx g).faulted ≠ none ∨ freeLane (codec s.mx g).hl 16 = none) →
    exec (.hardDecode g) s = .next s) ∧
  (∀ (s : State) (g : Nat), ((codec s.mx g).sq = [] ∨ (codec s.mx g).faulted ≠ none ∨ freeLane (codec s.mx g).sl 4 = none) →
    exec (.softDecode g) s = .next s) ∧
  (∀ (s : State) (g l : Nat) (c : CwRef) (e : Ent), g < 32 → l < 8 → tabGet none (codec s.mx g).el l = some c →
    ent s.mx c.eid = some e → e.sent = 1 → isHostEid c.eid = true →
    let f := encodeFrame (parityRows (encProf s.mx e)) (scramble (encRow s.mx e) (encCwi e c.cw) (c.bytes.headD []))
    let off := c.cw * frameLen (encProf s.mx e)
    ∃ t, exec (.encodeWriteBack g { lane := l }) s = .next t ∧ t.mx.sb = (resvWrite s.mx (resOwner c.eid) off f).sb ∧
      ent t.mx c.eid = some { e with sent := 0, stage := .toPlace } ∧
      codec t.mx g = { codec s.mx g with el := tabSet (codec s.mx g).el l none } ∧
      (∀ x, x ≠ c.eid → ent t.mx x = ent s.mx x) ∧ (∀ x, x ≠ g → codec t.mx x = codec s.mx x) ∧
      sbElsewhere s t (resOwner c.eid) off f.length ∧ keepsBut [.cx, .ents, .sb] s t) ∧
  (∀ (s : State) (g l : Nat) (soft : Bool) (c : CwRef) (e : Ent), g < 32 → laneRef (codec s.mx g) soft l = some c →
    ent s.mx c.eid = some e → 2 ≤ e.sent → c.cw < e.cws.length →
    unsatisfied (parityRows (eSrcProf e)) (c.bytes.headD []) = 0 →
    let plain := scramble (eRow e) (eCwi e c.cw) ((c.bytes.headD []).take 4128)
    ∃ t f, exec (.decodeResult g soft { lane := l }) s = .next t ∧ ent t.mx c.eid = some f ∧
      cwAt f c.cw = (if eRawMeta e = false ∧ crc32c (plain.take 4096) ≠ leAt plain 4120 4 then .failMeta else .good 0) ∧
      f.sent = e.sent - 1 ∧ laneRef (codec t.mx g) soft l = none ∧
      (codec t.mx g).ncw = satInc (codec s.mx g).ncw 0xFFFFFFFF ∧
      t.mx.sb = (resvWrite s.mx (resOwner c.eid) (frameOff e c.cw 0) plain).sb ∧
      (∀ x, x ≠ c.eid → ent t.mx x = ent s.mx x) ∧ (∀ x, x ≠ g → codec t.mx x = codec s.mx x) ∧
      t.mx.nl = (if eRawMeta e = false ∧ crc32c (plain.take 4096) ≠ leAt plain 4120 4
                 then (log s.mx .decodeFailed (eDie e) c.cw c.step).nl else s.mx.nl) ∧
      sbElsewhere s t (resOwner c.eid) (frameOff e c.cw 0) plain.length ∧ keepsBut [.cx, .ents, .sb, .sg, .nl] s t) ∧
  (∀ (s : State) (g l : Nat) (c : CwRef) (e : Ent), g < 32 → l < 8 → tabGet none (codec s.mx g).el l = some c →
    ent s.mx c.eid = some e → 2 ≤ e.sent →
    let f := encodeFrame (parityRows (encProf s.mx e)) (scramble (encRow s.mx e) (encCwi e c.cw) (c.bytes.headD []))
    let off := c.cw * frameLen (encProf s.mx e)
    ∃ t, exec (.encodeWriteBack g { lane := l }) s = .next t ∧ t.mx.sb = (resvWrite s.mx (resOwner c.eid) off f).sb ∧
      ent t.mx c.eid = some { e with sent := e.sent - 1 } ∧
      codec t.mx g = { codec s.mx g with el := tabSet (codec s.mx g).el l none } ∧
      (∀ x, x ≠ c.eid → ent t.mx x = ent s.mx x) ∧ (∀ x, x ≠ g → codec t.mx x = codec s.mx x) ∧
      sbElsewhere s t (resOwner c.eid) off f.length ∧ keepsBut [.cx, .ents, .sb] s t) ∧
  (∀ (s : State) (g l : Nat) (c : CwRef) (e : Ent), g < 32 → l < 8 → tabGet none (codec s.mx g).el l = some c →
    ent s.mx c.eid = some e → e.sent = 1 → isHostEid c.eid = false →
    let f := encodeFrame (parityRows (encProf s.mx e)) (scramble (encRow s.mx e) (encCwi e c.cw) (c.bytes.headD []))
    let off := c.cw * frameLen (encProf s.mx e)
    ∃ t, exec (.encodeWriteBack g { lane := l }) s = .next t ∧ t.mx.sb = (resvWrite s.mx (resOwner c.eid) off f).sb ∧
      ent t.mx c.eid = some { e with sent := 0, stage := .placed } ∧
      (die t.mx (eDie e)).ahead = (die s.mx (eDie e)).ahead ++ [.write c.eid] ∧
      (∀ x, x ≠ eDie e → die t.mx x = die s.mx x) ∧ (∀ x, x ≠ c.eid → ent t.mx x = ent s.mx x) ∧
      (∀ x, x ≠ g → codec t.mx x = codec s.mx x) ∧ keepsBut [.cx, .ents, .sb, .die] s t) ∧
  (∀ (s : State) (g l : Nat) (soft : Bool) (c : CwRef) (e : Ent), g < 32 → laneRef (codec s.mx g) soft l = some c →
    ent s.mx c.eid = some e → 2 ≤ e.sent → c.cw < e.cws.length →
    let r := laneResult e soft c
    ∃ t f, exec (.decodeResult g soft { lane := l }) s = .next t ∧ ent t.mx c.eid = some f ∧
      cwAt f c.cw = (if r.result = 0 then
                       (if warnLine s.mx (eSrcProf e) ≠ 0 ∧ warnLine s.mx (eSrcProf e) < r.corr then .warn r.corr else .good r.corr)
                     else if r.result = 1 then .failMeta else if r.result = 3 then .erased else cwAt e c.cw) ∧
      f.sent = e.sent - 1 ∧ laneRef (codec t.mx g) soft l = none ∧
      (r.result ≠ 3 → (codec t.mx g).ncw = satInc (codec s.mx g).ncw 0xFFFFFFFF ∧
        (codec t.mx g).nfail = (if r.result = 2 then satInc (codec s.mx g).nfail 0xFFFFFFFF else (codec s.mx g).nfail) ∧
        (codec t.mx g).nsoft = (if soft then satInc (codec s.mx g).nsoft 0xFFFFFFFF else (codec s.mx g).nsoft)) ∧
      t.mx.sb = (if r.result ≤ 1 then (resvWrite s.mx (resOwner c.eid) (frameOff e c.cw 0) r.plain).sb else s.mx.sb) ∧
      (∀ x, x ≠ c.eid → ent t.mx x = ent s.mx x) ∧ (∀ x, x ≠ g → codec t.mx x = codec s.mx x) ∧
      keepsBut [.cx, .ents, .sb, .sg, .nl] s t) ∧
  (∀ (s : State) (g l : Nat), tabGet none (codec s.mx g).el l = none → exec (.encodeWriteBack g { lane := l }) s = .next s) ∧
  (∀ (s : State) (g l : Nat) (soft : Bool), laneRef (codec s.mx g) soft l = none →
    exec (.decodeResult g soft { lane := l }) s = .next s)

/-- 08_codec.md R312, R315, R325 to R327, R329: a lane that has held its frame for too long, an encoder's checker and a
parity error make their cluster fault, and the first cluster after it without a fault serves its groups, with CX_FAULT
(277), its frames staying where there is none; RESTORE starts the self-test, which brings the cluster back or leaves
BIST_FAIL. -/
def Obligations.CodecFaults : Prop :=
  (∀ (s : State) (g kind l p : Nat) (c : CwRef) (e : Ent), g < 32 → kind < 3 → l < 16 →
    tabGet none (lanesOf (codec s.mx g) kind) l = some c → ent s.mx c.eid = some e →
    c.at_ + laneLimit s.mx e kind < s.mx.md.time → (codec s.mx g).faulted = none → bit (codec s.mx g).fault 31 = false →
    servedBy s.mx g = g → partner s.mx g = some p →
    ∃ t, exec (.laneTmo g kind l) s = .next t ∧ (codec t.mx g).faulted = some 4 ∧ bit (codec t.mx g).fault 31 = true ∧
      fld (codec t.mx g).fault 30 24 = 4 ∧ (codec t.mx g).hl = [] ∧ (codec t.mx g).sl = [] ∧ (codec t.mx g).el = [] ∧
      (codec t.mx g).hq = [] ∧ (codec t.mx g).sq = [] ∧ (codec t.mx g).eq = [] ∧ servedBy t.mx g = p ∧
      (∀ x ∈ (codec s.mx g).hq, x.bytes = [] → x ∈ (codec t.mx p).hq) ∧ 277 ∈ t.mx.ic.pend ∧
      keepsBut (.cx :: onRaise) s t) ∧
  (∀ (s : State) (g k : Nat), g < 32 → carried s (cxOff g 4) → (codec s.mx g).faulted = some k → k ≠ 5 →
    ∃ t, exec (.restore g) s = .next t ∧ codec t.mx g = { codec s.mx g with test := true } ∧
      (∀ x, x ≠ g → codec t.mx x = codec s.mx x) ∧ keepsBut [.cx, .cp] s t) ∧
  (∀ (s : State) (g : Nat), g < 32 → carried s (cxOff g 4) →
    ((codec s.mx g).faulted = none ∨ (codec s.mx g).faulted = some 5) →
    ∃ t, exec (.restore g) s = .next t ∧ t.mx.cp = { s.mx.cp with err := false } ∧ keepsBut [.cp] s t) ∧
  (∀ (s : State) (g : Nat), g < 32 → (codec s.mx g).test = true →
    (∀ i, i < 32 → servedBy s.mx i ≠ g → (codec s.mx (servedBy s.mx i)).faulted = none) →
    ∃ t, exec (.restoreTestDone g true) s = .next t ∧
      codec t.mx g = { codec s.mx g with test := false, faulted := none, served := none } ∧
      (∀ x, x ≠ g → codec t.mx x = codec s.mx x) ∧ t.mx.nl = (log s.mx .cxRestored g).nl ∧ keepsBut [.cx, .nl] s t) ∧
  (∀ (s : State) (g : Nat), g < 32 → (codec s.mx g).test = true →
    ∃ t, exec (.restoreTestDone g false) s = .next t ∧
      codec t.mx g = { codec s.mx g with test := false, faulted := some 5, fault := faultReg (codec s.mx g).fault 5 3 0 } ∧
      (∀ x, x ≠ g → codec t.mx x = codec s.mx x) ∧ keepsBut [.cx] s t) ∧
  (∀ (s : State) (g kind l : Nat) (c : CwRef) (e : Ent), g < 32 → kind < 3 → l < 16 →
    tabGet none (lanesOf (codec s.mx g) kind) l = some c → ent s.mx c.eid = some e →
    c.at_ + laneLimit s.mx e kind < s.mx.md.time → (codec s.mx g).faulted = none → partner s.mx g = none →
    ∃ t, exec (.laneTmo g kind l) s = .next t ∧ (codec t.mx g).faulted = some 4 ∧ (codec t.mx g).hl = [] ∧
      (codec t.mx g).sl = [] ∧ (codec t.mx g).el = [] ∧ (codec t.mx g).served = (codec s.mx g).served ∧
      (∀ x ∈ (codec s.mx g).hq, x.bytes = [] → x ∈ (codec t.mx g).hq) ∧
      (∀ x, x ≠ g → codec t.mx x = codec s.mx x) ∧ 277 ∈ t.mx.ic.pend ∧ keepsBut (.cx :: onRaise) s t) ∧
  (∀ (s : State) (g l : Nat) (c : CwRef), g < 32 → l < 8 → tabGet none (codec s.mx g).el l = some c →
    (codec s.mx g).faulted = none →
    ∃ t, exec (.encodeWriteBack g { lane := l, flt := .check }) s = .next t ∧ (codec t.mx g).faulted = some 2 ∧
      (codec t.mx g).el = [] ∧ 277 ∈ t.mx.ic.pend ∧ keepsBut (.cx :: onRaise) s t) ∧
  (∀ (s : State) (g l : Nat) (soft : Bool), g < 32 → laneRef (codec s.mx g) soft l ≠ none → (codec s.mx g).faulted = none →
    ∃ t, exec (.decodeResult g soft { lane := l, flt := .memory false }) s = .next t ∧ (codec t.mx g).faulted = some 3 ∧
      (codec t.mx g).hl = [] ∧ (codec t.mx g).sl = [] ∧ 277 ∈ t.mx.ic.pend ∧ keepsBut (.cx :: onRaise) s t) ∧
  (∀ (s : State) (g kind l : Nat),
    (tabGet none (lanesOf (codec s.mx g) kind) l = none ∨
     (tabGet none (lanesOf (codec s.mx g) kind) l).any (fun c => (ent s.mx c.eid).any (fun e =>
       decide (s.mx.md.time ≤ c.at_ + laneLimit s.mx e kind)))) →
    exec (.laneTmo g kind l) s = .next s) ∧
  (∀ (s : State) (g : Nat) (pass : Bool), (codec s.mx g).test = false → exec (.restoreTestDone g pass) s = .next s)

/-! ## Seeing -/

/-- 09_seeing.md R346, R347: the oldest statistics record votes at its level: the accumulator moves by one, and at HYST it
starts again and the learned offset moves by one within LBOUND; the votes of the block group are counted. Stated of a
record of one level, which has fallen below it or risen above it, or too little of it to vote. A record that failed,
of a die that is not served or with learning off teaches nothing, and there may be none. 09_seeing.md R341, R354,
R357, R361, R367: a write of SG_TDATA sets one word of the table and a read shows one, each stepping an address that
increments; a write of a block group's DISTURB or PIN sets its flags by it; the image header is not written so; and
the two counters are cleared. 09_seeing.md R360 to R362; 00_scope.md R17: a save, asked for or due, fills the image
header with a SEQ above every copy's and begins with the erase of the first copy's block, its 25 page-sets to follow;
a copy written through takes the SEQ and the other follows; its end leaves the save done, or the copy being written
invalid and SG_SAVE (284). The last page-set carries ICRC over what was copied. Nothing begins where a save runs or
the table has no place, and nothing ends that has not ended. -/
def Obligations.SeeingLearnsAndSaves : Prop :=
  (∀ (s : State) (r : Stat) (rs : List Stat) (l f g : Nat), s.mx.sg.recs = r :: rs → bit (sgCfg s.mx) 30 = true →
    r.result = 0 → served s.mx r.die = true → r.levels = [l] → r.fell = [f] → r.rose = [g] → 1 ≤ l → l ≤ 16 →
    r.die < 2048 → r.bg < 16 → g < f → sgDmin s.mx ≤ f - g →
    r.used.getD (l - 1) 0 ≤ predict s.mx r.die r.bg r.bin l →
    let i := bgIdx r.die r.bg
    let acc := sgInt s.mx (0x80000 + 16 * i + (l - 1))
    let full := decide (sgHyst s.mx ≤ (acc - 1).natAbs)
    let moved := full && decide (sgLbound s.mx ≠ 0)
    ∃ t, exec .learningUpdate s = .next t ∧ t.mx.sg.recs = rs ∧
      sgInt t.mx (0x80000 + 16 * i + (l - 1)) = (if full then 0 else clampI (-128) 127 (acc - 1)) ∧
      (moved = false → sgInt t.mx (16 * i + (l - 1)) = learned s.mx i l) ∧
      (moved = true →
        sgInt t.mx (16 * i + (l - 1)) = clampI (-(sgLbound s.mx : Int)) (sgLbound s.mx) (learned s.mx i l - 1)) ∧
      t.mx.sg.moves = (if moved then satInc s.mx.sg.moves 0xFFFFFFFF else s.mx.sg.moves) ∧
      sgLe t.mx (bgState r.die r.bg + 8) 4 = satInc (sgLe s.mx (bgState r.die r.bg + 8) 4) 0xFFFFFFFF ∧
      (∀ a, a ≠ 16 * i + (l - 1) → a ≠ 0x80000 + 16 * i + (l - 1) →
        (a < bgState r.die r.bg + 8 ∨ bgState r.die r.bg + 12 ≤ a) → memGet t.mx.sg.table a = memGet s.mx.sg.table a) ∧
      keepsBut [.sg] s t) ∧
  (∀ (s : State) (r : Stat) (rs : List Stat), s.mx.sg.recs = r :: rs → bit (sgCfg s.mx) 30 = false →
    exec .learningUpdate s = .next { s with mx := { s.mx with sg := { s.mx.sg with recs := rs } } }) ∧
  (∀ (s : State) (r : Stat) (rs : List Stat), s.mx.sg.recs = r :: rs → (r.result ≠ 0 ∨ served s.mx r.die = false) →
    exec .learningUpdate s = .next { s with mx := { s.mx with sg := { s.mx.sg with recs := rs } } }) ∧
  (∀ s : State, s.mx.sg.recs = [] → exec .learningUpdate s = .next s) ∧
  (∀ (s : State) (r : Stat) (rs : List Stat) (l f g : Nat), s.mx.sg.recs = r :: rs → bit (sgCfg s.mx) 30 = true →
    r.result = 0 → served s.mx r.die = true → r.levels = [l] → r.fell = [f] → r.rose = [g] → 1 ≤ l → l ≤ 16 →
    r.die < 2048 → r.bg < 16 → f < g → sgDmin s.mx ≤ g - f →
    predict s.mx r.die r.bg r.bin l ≤ r.used.getD (l - 1) 0 →
    let i := bgIdx r.die r.bg
    let acc := sgInt s.mx (0x80000 + 16 * i + (l - 1))
    let full := decide (sgHyst s.mx ≤ (acc + 1).natAbs)
    let moved := full && decide (sgLbound s.mx ≠ 0)
    ∃ t, exec .learningUpdate s = .next t ∧ t.mx.sg.recs = rs ∧
      sgInt t.mx (0x80000 + 16 * i + (l - 1)) = (if full then 0 else clampI (-128) 127 (acc + 1)) ∧
      (moved = false → sgInt t.mx (16 * i + (l - 1)) = learned s.mx i l) ∧
      (moved = true →
        sgInt t.mx (16 * i + (l - 1)) = clampI (-(sgLbound s.mx : Int)) (sgLbound s.mx) (learned s.mx i l + 1)) ∧
      t.mx.sg.moves = (if moved then satInc s.mx.sg.moves 0xFFFFFFFF else s.mx.sg.moves) ∧
      sgLe t.mx (bgState r.die r.bg + 8) 4 = satInc (sgLe s.mx (bgState r.die r.bg + 8) 4) 0xFFFFFFFF ∧
      (∀ a, a ≠ 16 * i + (l - 1) → a ≠ 0x80000 + 16 * i + (l - 1) →
        (a < bgState r.die r.bg + 8 ∨ bgState r.die r.bg + 12 ≤ a) → memGet t.mx.sg.table a = memGet s.mx.sg.table a) ∧
      keepsBut [.sg] s t) ∧
  (∀ (s : State) (r : Stat) (rs : List Stat) (l f g : Nat), s.mx.sg.recs = r :: rs → bit (sgCfg s.mx) 30 = true →
    r.result = 0 → served s.mx r.die = true → r.levels = [l] → r.fell = [f] → r.rose = [g] →
    r.die < 2048 → r.bg < 16 → ((f : Int) - g).natAbs < sgDmin s.mx →
    ∃ t, exec .learningUpdate s = .next t ∧ t.mx.sg = { s.mx.sg with recs := rs, table := t.mx.sg.table } ∧
      sgLe t.mx (bgState r.die r.bg + 8) 4 = satInc (sgLe s.mx (bgState r.die r.bg + 8) 4) 0xFFFFFFFF ∧
      (∀ a, (a < bgState r.die r.bg + 8 ∨ bgState r.die r.bg + 12 ≤ a) → memGet t.mx.sg.table a = memGet s.mx.sg.table a) ∧
      keepsBut [.sg] s t) ∧
  (∀ (s : State) (v : Word), carried s (sgOff 0x3C) →
    (sgAddr s.mx < 0x100000 ∨ 0x180000 ≤ sgAddr s.mx ∧ sgAddr s.mx < 0x18FC00) →
    ∃ t, exec (.sgTdataWrite v) s = .next t ∧ sgLe t.mx (sgAddr s.mx) 4 = v.toNat ∧
      (∀ a, (a < sgAddr s.mx ∨ sgAddr s.mx + 4 ≤ a) → memGet t.mx.sg.table a = memGet s.mx.sg.table a) ∧
      reg t.mx (sgOff 0x38) = (if bit (reg s.mx (sgOff 0x38)) 31 then word (2 ^ 31 + (sgAddr s.mx + 4) % 2 ^ 21)
                               else reg s.mx (sgOff 0x38)) ∧
      (∀ o, o ≠ sgOff 0x38 → reg t.mx o = reg s.mx o) ∧ keepsBut [.sg, .regs, .cp] s t) ∧
  (∀ (s : State) (v : Word), carried s (sgOff 0x3C) → 0x18FC00 ≤ sgAddr s.mx →
    ∃ t, exec (.sgTdataWrite v) s = .next t ∧ t.mx.cp = { s.mx.cp with err := false } ∧
      t.mx.nl = (log s.mx .tableRefused (sgOff 0x3C)).nl ∧
      reg t.mx (sgOff 0x38) = (if bit (reg s.mx (sgOff 0x38)) 31 then word (2 ^ 31 + (sgAddr s.mx + 4) % 2 ^ 21)
                               else reg s.mx (sgOff 0x38)) ∧
      (∀ o, o ≠ sgOff 0x38 → reg t.mx o = reg s.mx o) ∧ keepsBut [.regs, .cp, .nl] s t) ∧
  (∀ s : State, carried s (sgOff 0x3C) →
    ∃ t, exec .sgTdataRead s = .next t ∧ t.mx.cp.err = false ∧
      t.mx.cp.rdata = (if sgAddr s.mx < 0x190000 then word (sgLe s.mx (sgAddr s.mx) 4) else 0) ∧
      reg t.mx (sgOff 0x38) = (if bit (reg s.mx (sgOff 0x38)) 31 then word (2 ^ 31 + (sgAddr s.mx + 4) % 2 ^ 21)
                               else reg s.mx (sgOff 0x38)) ∧
      (∀ o, o ≠ sgOff 0x38 → reg t.mx o = reg s.mx o) ∧ keepsBut [.regs, .cp] s t) ∧
  (∀ (s : State) (v : Word), carried s (sgOff 0x3C) → 0x100000 ≤ sgAddr s.mx → sgAddr s.mx < 0x180000 →
    let a := sgAddr s.mx
    let flags := a / 16 * 16 + 0xC
    let lim := (reg s.mx (sgOff 0x20)).toNat
    ∃ t, exec (.sgTdataWrite v) s = .next t ∧
      sgLe t.mx a 4 = v.toNat ∧
      (∀ b, (b < a ∨ a + 4 ≤ b) → b ≠ flags → memGet t.mx.sg.table b = memGet s.mx.sg.table b) ∧
      (a % 16 = 8 → memGet t.mx.sg.table flags = memGet s.mx.sg.table flags ∧ t.mx.ic = s.mx.ic ∧ t.mx.nl = s.mx.nl) ∧
      (a % 16 = 4 → memGet t.mx.sg.table flags = memGet s.mx.sg.table flags &&& 0xFE ∧ t.mx.ic = s.mx.ic ∧
        t.mx.nl = s.mx.nl) ∧
      (a % 16 = 0 → memGet t.mx.sg.table flags =
        (if v.toNat ≤ lim then memGet s.mx.sg.table flags &&& 0xFD
         else if lim = 0 then memGet s.mx.sg.table flags else memGet s.mx.sg.table flags ||| 2) ∧
        (lim ≠ 0 → lim < v.toNat → (sgByte s.mx flags).testBit 1 = false → 282 ∈ t.mx.ic.pend)) ∧
      (∀ o, o ≠ sgOff 0x38 → reg t.mx o = reg s.mx o) ∧ keepsBut (.sg :: .regs :: .cp :: onRaise) s t) ∧
  (∀ s : State, carried s (sgOff 4) → ∃ t, exec .clrSpec s = .next t ∧ t.mx.sg = { s.mx.sg with specrd := 0 } ∧
    t.mx.cp = { s.mx.cp with err := false } ∧ keepsBut [.sg, .cp] s t) ∧
  (∀ s : State, carried s (sgOff 4) → ∃ t, exec .clrMoves s = .next t ∧ t.mx.sg = { s.mx.sg with moves := 0 } ∧
    t.mx.cp = { s.mx.cp with err := false } ∧ keepsBut [.sg, .cp] s t) ∧
  (∀ (s : State) (c : Instr), bit (saveLoc s.mx) 31 = true → s.mx.sg.saving = none → nextSave s.mx < 2 ^ 64 →
    s.mx.md.time < 2 ^ 64 → s.mx.dm.dose < 2 ^ 64 →
    (c = .save ∧ carried s (sgOff 4) ∨
     c = .savePeriod ∧ savePer s.mx ≠ 0 ∧ s.mx.sg.savedAt + 3600000000000 * savePer s.mx ≤ s.mx.md.time) →
    let b := saveBFirst s.mx
    let d := saveDie s.mx b
    let row := (reg s.mx (sgOff 0x44)).toNat
    ∃ t, exec c s = .next t ∧ t.mx.sg.saving = some (nextSave s.mx) ∧ t.mx.sg.savedAt = s.mx.md.time ∧
      (s.mx.sg.copyA.valid = true → s.mx.sg.copyA.seq < nextSave s.mx) ∧
      (s.mx.sg.copyB.valid = true → s.mx.sg.copyB.seq < nextSave s.mx) ∧
      sgLe t.mx 0x18FC00 4 = 0x4E454553 ∧ sgLe t.mx 0x18FC08 8 = nextSave s.mx ∧
      sgLe t.mx 0x18FC10 8 = s.mx.md.time ∧ sgLe t.mx 0x18FC18 8 = s.mx.dm.dose ∧
      (∀ a, a < 0x18FC00 → memGet t.mx.sg.table a = memGet s.mx.sg.table a) ∧
      sysW t.mx 9 = some (if ppb s.mx d < 25 then { die := d, copyB := b, ended := some (0x1500, 0) }
        else { die := d, copyB := b, ops := (row, .erase) :: (List.range 25).map (fun i => (row + i, .table i)) }) ∧
      (25 ≤ ppb s.mx d → ent t.mx (sysEid 9) = some (sysEnt d row 3 .placed) ∧
        .write (sysEid 9) ∈ (die t.mx d).ahead) ∧
      (∀ k, k ≠ 9 → sysW t.mx k = sysW s.mx k) ∧ (∀ x, x ≠ d → die t.mx x = die s.mx x) ∧
      keepsBut [.sg, .cp, .wr, .ents, .die] s t) ∧
  (∀ (m : Mx) (w : SysW) (q x : Nat), sysW m 9 = some w → m.sg.saving = some q → w.ended = some (0, x) → w.later = true →
    saveTurn m = setSaveCopy w.copyB { valid := true, seq := q } m) ∧
  (∀ (m : Mx) (w : SysW) (q x : Nat), sysW m 9 = some w → m.sg.saving = some q → w.ended = some (0, x) → w.later = false →
    let t := saveTurn m
    (if w.copyB then t.sg.copyB = { valid := true, seq := q } ∧ t.sg.copyA = m.sg.copyA
     else t.sg.copyA = { valid := true, seq := q } ∧ t.sg.copyB = m.sg.copyB) ∧ t.sg.saving = some q ∧
      (sysW t 9).map (fun y => (y.die, y.copyB, y.later)) = some (saveDie m (!w.copyB), !w.copyB, true)) ∧
  (∀ (m : Mx), sgLe (tablePage 24 m).2 0x18FFFC 4 = crc32c (m.sg.image.take 0x180000 ++
      (memRead (savedTable m) 0x180000 65536).take 65532) ∧
    (tablePage 24 m).1.drop 65532 = leBytes 4 (sgLe (tablePage 24 m).2 0x18FFFC 4) ∧
    (∀ a, a < 0x18FFFC → memGet (tablePage 24 m).2.sg.table a = memGet m.sg.table a)) ∧
  (∀ (s : State) (w : SysW) (x : Nat), sysW s.mx 9 = some w → w.ended = some (0, x) →
    ∃ t, exec (.saveEnd .held .held) s = .next t ∧
      t.mx.sg = { s.mx.sg with saving := none, savefail := false, image := [] } ∧ sysW t.mx 9 = none ∧
      (∀ k, k ≠ 9 → sysW t.mx k = sysW s.mx k) ∧ keepsBut [.sg, .wr] s t) ∧
  (∀ (s : State) (w : SysW) (st x : Nat), sysW s.mx 9 = some w → w.ended = some (st, x) → st ≠ 0 →
    ∃ t, exec (.saveEnd .held .held) s = .next t ∧
      t.mx.sg = { s.mx.sg with saving := none, savefail := true, image := [],
                               copyA := if w.copyB then s.mx.sg.copyA else {}, copyB := if w.copyB then {} else s.mx.sg.copyB } ∧
      284 ∈ t.mx.ic.pend ∧ sysW t.mx 9 = none ∧ (∀ k, k ≠ 9 → sysW t.mx k = sysW s.mx k) ∧
      keepsBut (.sg :: .wr :: onRaise) s t) ∧
  (∀ (s : State) (a b : Told), (sysW s.mx 9).bind (·.ended) = none → exec (.saveEnd a b) s = .next s) ∧
  (∀ (s : State), carried s (sgOff 4) → (bit (saveLoc s.mx) 31 = false ∨ s.mx.sg.saving ≠ none) →
    ∃ t, exec .save s = .next t ∧ t.mx.cp = { s.mx.cp with err := false } ∧ keepsBut [.cp] s t) ∧
  (∀ (s : State), (bit (saveLoc s.mx) 31 = false ∨ s.mx.sg.saving ≠ none ∨ savePer s.mx = 0 ∨
      s.mx.md.time < s.mx.sg.savedAt + 3600000000000 * savePer s.mx) → exec .savePeriod s = .next s)

/-! ## Stripes -/

/-- 10_stripes.md R371, R389: with P the sum of the data of a slot and Q the sum of g^position times it, a slot with one
data member missing, or with two and both parities at hand, is solved to the data that the member held. -/
def Obligations.StripeSolveRecovers : Prop :=
  (∀ (m : Mx) (j : Job) (slot : Nat) (f : Nat → List Byte), (∀ p, (f p).length = 4128) → j.inOpen = none →
    (∀ p ∈ j.parts, jobGot j p slot = some (f p)) → jobGot j 62 slot = some (xorAll f (j.pos :: j.parts)) →
    solve m j slot = some (f j.pos)) ∧
  (∀ (m : Mx) (j : Job) (slot y : Nat) (f : Nat → List Byte), (∀ p, (f p).length = 4128) → j.inOpen = none →
    j.pos < 62 → (∀ p ∈ j.parts, p < 62) → j.parts.Nodup → j.pos ∉ j.parts → y ∈ j.parts →
    jobGot j y slot = none → (∀ p ∈ j.parts, p ≠ y → jobGot j p slot = some (f p)) → (y, slot) ∈ j.erased →
    jobGot j 62 slot = some (xorAll f (j.pos :: j.parts)) →
    jobGot j 63 slot = some (xorAll (fun p => gfScale (gfPow p) (f p)) (j.pos :: j.parts)) →
    solve m j slot = some (f j.pos))

/-- 10_stripes.md R376, R386, R389, R390, R393, R394, R398 to R402: a member passes the accumulator; a slot is solved into
its frame, is lost, or fails its DCRC; a walk records a page-set of an open stripe, or one without a map, or reads its
map entry; and the checkpoints of the journal, begun on every die of a half and ended with the last. Nothing happens
where a slot still waits for a member, a walk for something in hand, no checkpoint is due or no copy has ended. -/
def Obligations.StripeWork : Prop :=
  (∀ (s : State) (r i sn pos : Nat) (e : Ent), r < 264 → i < 131072 → ent s.mx (eidOf r i) = some e → e.stage = .pass →
    e.stripe = some (sn, pos) → pos < 62 → (∀ x ∈ s.mx.ents, ∀ f, x.2 = some f → eOpc f ≠ 0x11) →
    (readPlain (eidOf r i) e s.mx).2.1 = false →
    ∃ t f, exec (.memberPass r i) s = .next t ∧ hasBit (stripe t.mx sn).passed pos = true ∧
      pos ∉ (stripe t.mx sn).bound ∧ ent t.mx (eidOf r i) = some f ∧ f.stage = .encode ∧ f.sent = eNcw e ∧
      (∀ x, x ≠ sn → stripe t.mx x = stripe s.mx x) ∧ (∀ x, x ≠ eidOf r i → ent t.mx x = ent s.mx x) ∧
      keepsBut (.st :: .ents :: .cx :: .sb :: onRaise) s t) ∧
  (∀ (s : State) (r i sn pos : Nat) (e : Ent) (b : List Byte), r < 264 → i < 131072 →
    ent s.mx (eidOf r i) = some e → e.stage = .pass → e.stripe = some (sn, pos) → pos < 62 →
    (∀ x ∈ s.mx.ents, ∀ f, x.2 = some f → eOpc f ≠ 0x11) → eNcw e = 1 → eRawMeta e = true →
    readsClean s.mx (.entry (eidOf r i)) 10 0 4128 b → b.length = 4128 → (sn, pos, eSlot e 0) ∉ s.mx.st.taken →
    (stripe s.mx sn).npar = 2 →
    ∃ t, exec (.memberPass r i) s = .next t ∧
      parityBytes t.mx sn false (eSlot e 0) = xorBytes (parityBytes s.mx sn false (eSlot e 0)) b ∧
      parityBytes t.mx sn true (eSlot e 0) =
        xorBytes (parityBytes s.mx sn true (eSlot e 0)) (gfScale (gfPow pos) b) ∧
      keepsBut [.st, .ents, .cx, .sb] s t) ∧
  (∀ (s : State) (r i slot cw : Nat) (e : Ent) (j : Job) (d : List Byte), r < 264 → i < 131072 →
    ent s.mx (eidOf r i) = some e → job s.mx (eidOf r i) = some j → eOpc e ≠ 0x12 → j.slots = [(slot, cw)] →
    erasures j slot ≤ j.npar → solve s.mx j slot = some d →
    (eRawMeta e = true ∨ crc32c (d.take 4096) = leAt d 4120 4) → cw < e.cws.length → e.sent ≠ 0 →
    ∃ t, exec (.slotSolve r i slot) s = .next t ∧
      ent t.mx (eidOf r i) = some (setCw { e with steps := tabSet e.steps cw 16 } cw (.good 0)) ∧
      job t.mx (eidOf r i) = none ∧ t.mx.st.recon = satInc s.mx.st.recon 0xFFFF ∧
      t.mx.sb = (resvWrite s.mx (.entry (eidOf r i)) (frameOff e cw 0) d).sb ∧
      (∀ x, x ≠ eidOf r i → ent t.mx x = ent s.mx x) ∧ (∀ x, stripe t.mx x = stripe s.mx x) ∧
      sbElsewhere s t (.entry (eidOf r i)) (frameOff e cw 0) d.length ∧ keepsBut [.st, .ents, .sb] s t) ∧
  (∀ (s : State) (r i slot cw : Nat) (e : Ent) (j : Job), r < 264 → i < 131072 → ent s.mx (eidOf r i) = some e →
    job s.mx (eidOf r i) = some j → eOpc e ≠ 0x12 → j.slots = [(slot, cw)] → j.npar < erasures j slot →
    cw < e.cws.length → e.sent ≠ 0 →
    ∃ t f, exec (.slotSolve r i slot) s = .next t ∧ ent t.mx (eidOf r i) = some f ∧ cwAt f cw = .failRebuild ∧
      stepOf f cw = 16 ∧ job t.mx (eidOf r i) = none ∧ t.mx.st.lost = satInc s.mx.st.lost 0xFFFF ∧ 285 ∈ t.mx.ic.pend ∧
      (∀ x, x ≠ eidOf r i → ent t.mx x = ent s.mx x) ∧ (∀ x, stripe t.mx x = stripe s.mx x) ∧
      keepsBut (.st :: .ents :: onRaise) s t) ∧
  (∀ (s : State) (r i slot cw : Nat) (e : Ent) (j : Job) (d : List Byte), r < 264 → i < 131072 →
    ent s.mx (eidOf r i) = some e → job s.mx (eidOf r i) = some j → eOpc e ≠ 0x12 → j.slots = [(slot, cw)] →
    erasures j slot ≤ j.npar → solve s.mx j slot = some d →
    eRawMeta e = false → crc32c (d.take 4096) ≠ leAt d 4120 4 → cw < e.cws.length → e.sent ≠ 0 →
    ∃ t f, exec (.slotSolve r i slot) s = .next t ∧ ent t.mx (eidOf r i) = some f ∧ cwAt f cw = .failRebuild ∧
      stepOf f cw = 16 ∧ job t.mx (eidOf r i) = none ∧ t.mx.st.recon = s.mx.st.recon ∧
      t.mx.nl = (log s.mx .decodeFailed (eDie e) cw 16).nl ∧
      (∀ x, x ≠ eidOf r i → ent t.mx x = ent s.mx x) ∧ (∀ x, stripe t.mx x = stripe s.mx x) ∧
      keepsBut [.st, .ents, .nl] s t) ∧
  (∀ (s : State) (r i slot cw : Nat) (e : Ent) (j : Job), ent s.mx (eidOf r i) = some e →
    job s.mx (eidOf r i) = some j → eOpc e ≠ 0x12 → j.slots = [(slot, cw)] → erasures j slot ≤ j.npar →
    solve s.mx j slot = none → exec (.slotSolve r i slot) s = .next s) ∧
  (∀ (s : State) (r i : Nat) (e : Ent), ent s.mx (eidOf r i) = some e →
    eOpc e = 0x12 → e.stage = .stripeWork → (walkOf s.mx (eidOf r i)).at_ = .idle → (walkOf s.mx (eidOf r i)).held = true →
    portEngOff s.mx (ringPort s.mx (eidRing (eidOf r i))) = false →
    let w := walkOf s.mx (eidOf r i)
    let inOpen := (openHolding s.mx (eDie e) w.row).isSome
    let w' : RbWalk := { w with planes := 0, neras := 0, step := 0, gone := 0, second := 0, fin := none }
    ∃ t, exec (.rebuildWalkStep r i .held) s = .next t ∧
      ((inOpen = true ∨ mapOn s.mx = false) →
        ent t.mx (eidOf r i) = some e ∧
        walkOf t.mx (eidOf r i) = { w' with at_ := .record, outcome := if inOpen then 5 else 4 } ∧
        t.mx.dx.queue.map (fun y => (y.owner, y.port, y.inl)) = s.mx.dx.queue.map (fun y => (y.owner, y.port, y.inl)) ++
          [(.stRec (eidOf r i), ringPort s.mx (eidRing (eidOf r i)), leBytes 4 w.row ++ [if inOpen then 5 else 4] ++ List.replicate 11 0)]) ∧
      (inOpen = false → mapOn s.mx = true →
        t.mx.ents = s.mx.ents ∧ walkOf t.mx (eidOf r i) = { w' with at_ := .entry } ∧
        t.mx.dx.queue = s.mx.dx.queue ++ [{ entryXfer s.mx (eidOf r i) e (.stMap (eidOf r i)) false
          (flatParts (mapAddr s.mx (eDie e) w.row) 0 8) with lines := [] }]) ∧
      (∀ x, x ≠ eidOf r i → walkOf t.mx x = walkOf s.mx x) ∧ (∀ x, x ≠ eidOf r i → ent t.mx x = ent s.mx x) ∧
      (∀ x, stripe t.mx x = stripe s.mx x) ∧ keepsBut [.st, .ents, .dx] s t) ∧
  (∀ (s : State) (r i : Nat), ((walkOf s.mx (eidOf r i)).at_ ≠ .idle ∨ (walkOf s.mx (eidOf r i)).held = false) →
    exec (.rebuildWalkStep r i .held) s = .next s) ∧
  (∀ (s : State) (c : Instr), jen s.mx = true → s.mx.st.ckpt = none →
    (c = .chkpt ∧ carried s (stOff 4) ∨
     c = .checkpointPeriod ∧ s.mx.st.changed = true ∧ jper s.mx ≠ 0 ∧
       s.mx.st.ckptAt + 1000000 * jper s.mx ≤ s.mx.md.time) →
    let q := s.mx.st.jnext + 1
    let k : Ckpt := { seq := q, todo := jDies s.mx false, todoB := jDies s.mx true, at_ := s.mx.md.time, plates := s.mx.st.plates }
    ∃ t, exec c s = .next t ∧
      t.mx.st = (if jDies s.mx false = [] then
                   { s.mx.st with jnext := q, changed := false, ckptAt := s.mx.md.time, jseq := q, jfail := false }
                 else { s.mx.st with jnext := q, changed := false, ckptAt := s.mx.md.time, ckpt := some k }) ∧
      (∀ j ∈ jDies s.mx false, sysW t.mx j = some {
        die := jdieOf s.mx j,
        ops := (if j ∈ s.mx.st.jerase ∧ sysW s.mx (16 + j) = none then [(jRow s.mx j, .erase)] else []) ++
               [(jRow s.mx j + tabGet 0 s.mx.st.jpage j, .bytes (ckptImage s.mx k j))] } ∧
        (ent t.mx (sysEid j)).isSome = true) ∧
      (∀ j, j ∉ jDies s.mx false → sysW t.mx j = sysW s.mx j) ∧ keepsBut [.st, .cp, .wr, .ents, .sb, .die] s t) ∧
  (∀ (s : State) (k : Ckpt) (w : SysW) (jd x : Nat), jd < 8 → s.mx.st.ckpt = some k → k.todo = [jd] → k.failed = false →
    k.final = false → k.skipped = false → sysW s.mx jd = some w → w.ended = some (0, x) → w.ops = [] →
    let n := tabGet 0 s.mx.st.jpage jd + 1
    let full := ppb s.mx (jdieOf s.mx jd) < n + 2
    ∃ t, exec (.checkpointCopyDone jd .held) s = .next t ∧ t.mx.st.stripes = s.mx.st.stripes ∧
      (if k.copyB = false ∧ k.todoB ≠ [] then t.mx.st.ckpt = some { k with copyB := true, todo := k.todoB, todoB := [] } ∧
         (∀ j ∈ k.todoB, (sysW t.mx j).isSome = true)
       else t.mx.st.ckpt = none ∧ t.mx.st.jseq = k.seq ∧ t.mx.st.jfail = false) ∧
      tabGet 0 t.mx.st.jpage jd = (if full then 0 else n) ∧
      tabGet false t.mx.st.jdblk jd = (if full then !tabGet false s.mx.st.jdblk jd else tabGet false s.mx.st.jdblk jd) ∧
      (jd ∈ t.mx.st.jerase ↔ full) ∧ (∀ j, j ≠ jd → (j ∈ t.mx.st.jerase ↔ j ∈ s.mx.st.jerase)) ∧
      keepsBut [.st, .wr, .ents, .sb, .die] s t) ∧
  (∀ (s : State) (k : Ckpt) (w : SysW) (jd st x : Nat), jd < 8 → s.mx.st.ckpt = some k → k.todo = [jd] → k.final = false →
    sysW s.mx jd = some w → w.ended = some (st, x) → st ≠ 0 →
    ∃ t, exec (.checkpointCopyDone jd .held) s = .next t ∧ t.mx.st.ckpt = none ∧ t.mx.st.jseq = s.mx.st.jseq ∧
      t.mx.st.jfail = true ∧ 286 ∈ t.mx.ic.pend ∧ sysW t.mx jd = none ∧
      keepsBut (.st :: .wr :: .ents :: .die :: onRaise) s t) ∧
  (∀ (s : State) (jd : Nat), (sysW s.mx jd).bind (·.ended) = none → exec (.checkpointCopyDone jd .held) s = .next s) ∧
  (∀ s : State, (s.mx.st.changed = false ∨ jper s.mx = 0 ∨ s.mx.md.time < s.mx.st.ckptAt + 1000000 * jper s.mx ∨
      jen s.mx = false ∨ s.mx.st.ckpt ≠ none) → exec .checkpointPeriod s = .next s) ∧
  (∀ s : State, carried s (stOff 4) → (jen s.mx = false ∨ s.mx.st.ckpt ≠ none) →
    ∃ t, exec .chkpt s = .next t ∧ t.mx.cp = { s.mx.cp with err := false } ∧ keepsBut [.cp] s t)

/-! ## Meridian and Transit -/

/-- 11_meridian_transit.md R411: Meridian never decreases: whatever the step, but for the rise of VAON, which starts it at
0, its time afterwards is at least its time before. -/
def Obligations.MeridianNeverDecreases : Prop :=
  ∀ s t : State, s.pending.head? ≠ some .vaonRise → step s = .next t → s.mx.md.time ≤ t.mx.md.time

/-- 11_meridian_transit.md R411, R414 to R418, R420, R422: loads, at the next MREF edge or at an armed edge of MSYNC_IN;
accepted and rejected edges, behind and ahead, forward steps, LOCK with its event (289), and the pulse out, of four
MREF periods, begun where an expected time has just been reached. While MREF is lost a LOAD waits, and no edge or
pulse is made; once it is back the next edge, of MREF or of MSYNC_IN, makes it. Stated of a Transit that holds and is
asked nothing where Meridian is moved. -/
def Obligations.MeridianDiscipline : Prop :=
  (∀ s : State, carried s (mdOff 0x10) → s.mx.md.hold = false → s.mx.md.freq = 0 → s.mx.md.slew = 0 →
    s.mx.md.slewLeft = 0 → s.mx.md.frac < 2 ^ 32 → s.mx.tr.holds = [] → s.mx.tr.reqs = [] →
    ∃ t, exec .load s = .next t ∧ t.mx.md.loadDue = false ∧ t.mx.md.frac = s.mx.md.frac ∧
      (s.mx.md.time + 10 ≤ loadValue s.mx →
        t.mx.md.time = loadValue s.mx ∧ t.mx.md.loaded = true ∧ t.mx.md.loaderr = false) ∧
      (loadValue s.mx < s.mx.md.time + 10 →
        t.mx.md.time = s.mx.md.time + 10 ∧ t.mx.md.loaded = s.mx.md.loaded ∧ t.mx.md.loaderr = true ∧ t.mx.dm = s.mx.dm ∧
        t.mx.nl = (log { s.mx with md := t.mx.md } .loadErr).nl) ∧
      t.mx.tr = trAt s.mx t.mx.md.time ∧
      t.mx.gl = { s.mx.gl with msyncOut := pulseLeft s.mx (s.mx.gl.msyncOut - 1) s.mx.md.time t.mx.md.time } ∧
      keepsBut [.md, .cp, .gl, .tr, .dm, .sg, .nl] s t) ∧
  (∀ s : State, carried s (mdOff 0x10) →
    ∃ t, exec .loadSync s = .next t ∧ t.mx.md = { s.mx.md with armed := true } ∧ t.mx.cp = { s.mx.cp with err := false } ∧
      keepsBut [.md, .cp] s t) ∧
  (∀ s : State, s.mx.md.hold = false → s.mx.md.armed = false → s.mx.md.loadDue = false →
    s.mx.md.time / 1000 ≤ s.mx.tr.slot → bit (syncCfg s.mx) 31 = true →
    (syncError s.mx).natAbs ≤ 10 * fld (syncCfg s.mx) 11 0 →
    let e := syncError s.mx
    let err := (-(e * 1000000000)).tdiv (syncPeriod s.mx)
    let lim : Int := 1000 * fld (syncCfg s.mx) 23 16
    ∃ t, exec .msyncEdge s = .next t ∧ t.mx.md.time = s.mx.md.time ∧ t.mx.md.err = e ∧
      t.mx.md.freq = clampI (-200000) 200000 (s.mx.md.freq + err.tdiv (2 ^ fld (syncCfg s.mx) 15 12 : Nat)) ∧
      (e ≠ 0 → t.mx.md.slew = clampI (-lim) lim err) ∧ (e = 0 → t.mx.md.slew = 0) ∧ t.mx.md.slewLeft = -e * 2 ^ 32 ∧
      t.mx.md.reject = s.mx.md.reject ∧ t.mx.md.behind = [] ∧
      t.mx.md.good = (if e.natAbs ≤ 50 then s.mx.md.good + 1 else 0) ∧
      (e.natAbs ≤ 50 → 3 ≤ s.mx.md.good → s.mx.md.lock = false → t.mx.md.lock = true ∧ 289 ∈ t.mx.ic.pend) ∧
      keepsBut (.md :: onRaise) s t) ∧
  (∀ s : State, s.mx.md.hold = false → s.mx.md.armed = false → s.mx.md.loadDue = false →
    s.mx.md.time / 1000 ≤ s.mx.tr.slot → bit (syncCfg s.mx) 31 = true →
    bit (syncCfg s.mx) 29 = false → 10 * fld (syncCfg s.mx) 11 0 < (syncError s.mx).natAbs →
    ∃ t, exec .msyncEdge s = .next t ∧ t.mx.md.time = s.mx.md.time ∧ t.mx.md.freq = s.mx.md.freq ∧
      t.mx.md.reject = satInc s.mx.md.reject 0xFFFF ∧ t.mx.md.lock = false ∧
      t.mx.md.good = 0 ∧ t.mx.md.err = syncError s.mx ∧
      (let b := ((-(syncError s.mx)) % (syncPeriod s.mx : Int)).toNat
       if 2 * b ≤ syncPeriod s.mx then
         t.mx.md.behind = (s.mx.md.behind ++ [b]).drop ((s.mx.md.behind ++ [b]).length - 3) ∧ t.mx.md.slew = s.mx.md.slew
       else t.mx.md.behind = [] ∧ t.mx.md.slew = -(1000 * fld (syncCfg s.mx) 23 16 : Nat) ∧ t.mx.md.slewLeft = 0) ∧
      (s.mx.md.lock = true → 289 ∈ t.mx.ic.pend) ∧ keepsBut (.md :: onRaise) s t) ∧
  (∀ (s : State) (a b : Nat), s.mx.md.hold = false → s.mx.md.armed = false → s.mx.md.loadDue = false →
    s.mx.tr.holds = [] → s.mx.tr.reqs = [] → bit (syncCfg s.mx) 31 = true →
    bit (syncCfg s.mx) 29 = true → 10 * fld (syncCfg s.mx) 11 0 < (syncError s.mx).natAbs → s.mx.md.behind = [a, b] →
    let d := ((-(syncError s.mx)) % (syncPeriod s.mx : Int)).toNat
    2 * d ≤ syncPeriod s.mx → agree [a, b, d] = true →
    ∃ t, exec .msyncEdge s = .next t ∧ t.mx.md.time = s.mx.md.time + d ∧
      t.mx.md.steps = satInc s.mx.md.steps 0xFFFF ∧ t.mx.md.behind = [] ∧ 288 ∈ t.mx.ic.pend ∧
      t.mx.tr = trAt s.mx (s.mx.md.time + d) ∧
      t.mx.gl = { s.mx.gl with msyncOut := pulseLeft s.mx s.mx.gl.msyncOut s.mx.md.time (s.mx.md.time + d) } ∧
      keepsBut (.md :: .gl :: .tr :: .dm :: .sg :: onRaise) s t) ∧
  (∀ s : State, s.mx.md.lock = true →
    ∃ t, exec .missedEdges s = .next t ∧ t.mx.md = { s.mx.md with lock := false, good := 0 } ∧ 289 ∈ t.mx.ic.pend ∧
      keepsBut (.md :: onRaise) s t) ∧
  (∀ s : State, bit (syncCfg s.mx) 30 = true → s.mx.md.hold = false →
    ((s.mx.md.time : Int) - (reg s.mx (mdOff 0x20)).toNat) % (syncPeriod s.mx : Int) < 10 →
    exec .msyncOutPulse s = .next { s with mx := setGl s.mx { s.mx.gl with msyncOut := 4 } }) ∧
  (∀ s : State, (bit (syncCfg s.mx) 30 = false ∨ s.mx.md.hold = true ∨
      10 ≤ ((s.mx.md.time : Int) - (reg s.mx (mdOff 0x20)).toNat) % (syncPeriod s.mx : Int)) →
    exec .msyncOutPulse s = .next s) ∧
  (∀ s : State, carried s (mdOff 0x10) → s.mx.md.hold = true →
    ∃ t, exec .load s = .next t ∧ t.mx.md = { s.mx.md with loadDue := true } ∧ t.mx.cp = { s.mx.cp with err := false } ∧
      keepsBut [.md, .cp] s t) ∧
  (∀ s : State, s.mx.md.hold = false → s.mx.md.armed = (!s.mx.md.loadDue) → bit (syncCfg s.mx) 31 = false →
    s.mx.tr.holds = [] → s.mx.tr.reqs = [] →
    ∃ t, exec .msyncEdge s = .next t ∧ t.mx.md.armed = false ∧ t.mx.md.loadDue = false ∧ t.mx.md.frac = s.mx.md.frac ∧
      (s.mx.md.time ≤ loadValue s.mx →
        t.mx.md.time = loadValue s.mx ∧ t.mx.md.loaded = true ∧ t.mx.md.loaderr = false) ∧
      (loadValue s.mx < s.mx.md.time →
        t.mx.md = { s.mx.md with armed := false, loadDue := false, loaderr := true } ∧ t.mx.nl = (log s.mx .loadErr).nl ∧
        t.mx.dm = s.mx.dm ∧ t.mx.sg = s.mx.sg) ∧
      t.mx.tr = trAt s.mx t.mx.md.time ∧
      t.mx.gl = { s.mx.gl with msyncOut := pulseLeft s.mx s.mx.gl.msyncOut s.mx.md.time t.mx.md.time } ∧
      keepsBut [.md, .gl, .tr, .dm, .sg, .nl] s t) ∧
  (∀ s : State, (s.mx.md.hold = true ∨ s.mx.md.armed = false ∧ s.mx.md.loadDue = false ∧ bit (syncCfg s.mx) 31 = false ∧
      s.mx.md.time / 1000 ≤ s.mx.tr.slot) →
    exec .msyncEdge s = .next s) ∧
  (∀ s : State, s.mx.md.lock = false →
    ∃ t, exec .missedEdges s = .next t ∧ t.mx.md = { s.mx.md with good := 0 } ∧ keepsBut [.md] s t)

/-- 11_meridian_transit.md R422, R426 to R428, R431: at the next slot's boundary, which MREF's edges of 10 ns bring
Meridian to, a request that fits its rail group's budget is admitted and held at its peak, and one that does not stays
pending; reservations that have ended are released, and the groups over their budget are judged; while MREF is lost
the slots go on and Meridian does not. Stated of a Meridian that runs at the rate of MREF: of one request with nothing
held, and of any holds with no request. 05_channel_engine.md R207; 11_meridian_transit.md R425, R426, R432, R439: a
timed launch issues its command at its instant, which MREF's edges bring Meridian to, or late and counted, at once
where the instant has passed or MREF is lost, and anchors the reservation; one that is not due or may not launch yet
waits; the profile table and the late counts. -/
def Obligations.SlotsAndTimedLaunches : Prop :=
  (∀ (s : State) (q : TrReq), s.mx.md.hold = false → steady s.mx → s.mx.tr.holds = [] → s.mx.tr.reqs = [q] →
    q.launch = none → q.bad = none → q.once = false → q.made ≤ s.mx.md.time / 1000 + 1 → mayAdmit s.mx q = true → q.rail < 16 →
    (die s.mx q.die).cur = none →
    let fits := decide (budget s.mx q.rail ≠ 0 ∧ peak q.segs ≤ budget s.mx q.rail)
    let n := (1009 - s.mx.md.time % 1000) / 10
    ∃ t, exec .slotBoundary s = .next t ∧ t.mx.tr.slot = s.mx.md.time / 1000 + 1 ∧
      t.mx.md = { s.mx.md with time := s.mx.md.time + 10 * n } ∧
      t.mx.tr.reqs = (if fits then [] else [q]) ∧
      t.mx.tr.holds = (if fits then [{ die := q.die, rail := q.rail, segs := q.segs, req := some q }] else []) ∧
      (die t.mx q.die).frame = { (die s.mx q.die).frame with
        admission := if fits then true else (die s.mx q.die).frame.admission,
        readmit := if fits then false else (die s.mx q.die).frame.readmit } ∧
      (∀ x, x ≠ q.die → die t.mx x = die s.mx x) ∧ t.mx.tr.excess = 0 ∧
      t.mx.gl = { s.mx.gl with msyncOut := s.mx.gl.msyncOut - n } ∧ keepsBut [.md, .gl, .tr, .die] s t) ∧
  (∀ s : State, s.mx.md.hold = true → s.mx.tr.holds = [] → s.mx.tr.reqs = [] →
    ∃ t, exec .slotBoundary s = .next t ∧ t.mx.tr.slot = s.mx.tr.slot + 1 ∧ t.mx.md = s.mx.md ∧
      keepsBut [.tr] s t) ∧
  (∀ s : State, (s.mx.md.hold = true ∨ steady s.mx) → s.mx.tr.reqs = [] →
    let n := if s.mx.md.hold then 0 else (1009 - s.mx.md.time % 1000) / 10
    ∃ t, exec .slotBoundary s = .next t ∧
      t.mx.tr.slot = (if s.mx.md.hold then s.mx.tr.slot else s.mx.md.time / 1000) + 1 ∧
      t.mx.md = { s.mx.md with time := s.mx.md.time + 10 * n } ∧
      (∀ h ∈ t.mx.tr.holds, h ∈ s.mx.tr.holds ∧ h.ended = false) ∧
      (∀ h ∈ s.mx.tr.holds, h.ended = false → (h.anchor = none ∨ h.segs.any (fun x => x.1 == 0xFFF) = true) →
        h ∈ t.mx.tr.holds) ∧
      (∀ h ∈ s.mx.tr.holds, ∀ a, h.anchor = some a → h.segs.any (fun x => x.1 == 0xFFF) = false → h.ended = false →
        (h ∈ t.mx.tr.holds ↔ t.mx.tr.slot < h.segs.foldl (fun n x => n + x.1) a)) ∧
      (∀ r, r < 16 → t.mx.tr.excess.getLsbD r = decide (budget s.mx r < currentMax t.mx r t.mx.tr.slot)) ∧
      t.mx.tr.reqs = [] ∧ t.mx.gl = { s.mx.gl with msyncOut := s.mx.gl.msyncOut - n } ∧
      keepsBut (.md :: .gl :: .tr :: onRaise) s t) ∧
  (∀ (s : State) (c k at_ : Nat), c < 128 → k < 16 → (die s.mx (dieOf c k)).frame.launchAt = some at_ →
    holdsBus s.mx (dieOf c k) = true → (chan s.mx c).held = false →
    (cluster s.mx (dieGrp (dieOf c k))).halted = false → s.mx.md.hold = false → steady s.mx →
    mwCyc (wordOf s.mx (dieOf c k)) = 1 → s.mx.md.time ≤ at_ → (at_ + 9) / 1000 = s.mx.md.time / 1000 →
    holdInstant s.mx (dieOf c k) = some (at_, at_) → (chan s.mx c).since + 40 ≤ at_ →
    let n := (at_ + 9 - s.mx.md.time) / 10
    ∃ t, exec (.timedLaunch c k) s = .next t ∧ t.mx.md = { s.mx.md with time := s.mx.md.time + 10 * n } ∧
      (die t.mx (dieOf c k)).frame = { (die s.mx (dieOf c k)).frame with
        launched := true, conf := true, cmds := false, launchAt := none, cyc := some { left := 0 } } ∧
      t.mx.tr.lateN = s.mx.tr.lateN ∧ t.mx.tr.lateMax = s.mx.tr.lateMax ∧
      (∀ h ∈ t.mx.tr.holds, h.die = dieOf c k → h.anchor ≠ none) ∧
      chan t.mx c = { chan s.mx c with
        drive := driveOf t.mx (dieOf c k) 0 (die t.mx (dieOf c k)).frame (wordOf s.mx (dieOf c k)) } ∧
      (∀ x, x ≠ c → chan t.mx x = chan s.mx x) ∧ t.mx.gl = { s.mx.gl with msyncOut := s.mx.gl.msyncOut - n } ∧
      (∀ x, x ≠ dieOf c k → die t.mx x = die s.mx x) ∧ keepsBut (.md :: .gl :: .die :: .ch :: .tr :: .st :: .sg :: onRaise) s t) ∧
  (∀ (s : State) (c k at_ l : Nat), c < 128 → k < 16 → (die s.mx (dieOf c k)).frame.launchAt = some at_ →
    holdsBus s.mx (dieOf c k) = true → (chan s.mx c).held = false →
    (cluster s.mx (dieGrp (dieOf c k))).halted = false → mwCyc (wordOf s.mx (dieOf c k)) = 1 →
    holdInstant s.mx (dieOf c k) = some (at_, l) →
    let now := if s.mx.md.hold then 1000 * s.mx.tr.slot else s.mx.md.time
    at_ ≤ now →
    (s.mx.md.hold = true ∨ at_ ≠ l ∨ at_ < (chan s.mx c).since + 40 ∨ at_ + 20 < now) →
    ∃ t, exec (.timedLaunch c k) s = .next t ∧ t.mx.md = s.mx.md ∧
      (die t.mx (dieOf c k)).frame = { (die s.mx (dieOf c k)).frame with
        launched := true, conf := true, cmds := false, launchAt := none, cyc := some { left := 0 } } ∧
      t.mx.tr.lateN = satInc s.mx.tr.lateN 0xFFFF ∧
      t.mx.tr.lateMax = max s.mx.tr.lateMax (min ((now - l) / 10) 0xFFFF) ∧
      (∀ h ∈ t.mx.tr.holds, h.die = dieOf c k → h.anchor ≠ none) ∧
      (∀ x, x ≠ c → chan t.mx x = chan s.mx x) ∧
      (∀ x, x ≠ dieOf c k → die t.mx x = die s.mx x) ∧ keepsBut (.die :: .ch :: .tr :: .st :: .sg :: onRaise) s t) ∧
  (∀ (s : State) (c k : Nat), (die s.mx (dieOf c k)).frame.launchAt = none → exec (.timedLaunch c k) s = .next s) ∧
  (∀ (s : State) (c k at_ : Nat), (die s.mx (dieOf c k)).frame.launchAt = some at_ →
    let now := if s.mx.md.hold then 1000 * s.mx.tr.slot else s.mx.md.time
    (now + 1000 < at_ ∨
     at_ ≤ now ∧ (holdsBus s.mx (dieOf c k) = false ∨ (chan s.mx (dieCh (dieOf c k))).held = true ∨
       (cluster s.mx (dieGrp (dieOf c k))).halted = true)) →
    exec (.timedLaunch c k) s = .next s) ∧
  (∀ s : State, carried s (trOff 8) →
    ∃ t, exec .clrLate s = .next t ∧ t.mx.tr = { s.mx.tr with lateN := 0, lateMax := 0 } ∧
      t.mx.cp = { s.mx.cp with err := false } ∧ keepsBut [.tr, .cp] s t) ∧
  (∀ (s : State) (v : Word), carried s (trOff 0x14) →
    ∃ t, exec (.trPdataWrite v) s = .next t ∧ t.mx.tr = { s.mx.tr with table := t.mx.tr.table, named := t.mx.tr.named } ∧
      t.mx.cp = { s.mx.cp with err := false } ∧ tabGet 0 t.mx.tr.table (trWord s.mx) = v ∧
      (∀ x, x ≠ trWord s.mx → tabGet 0 t.mx.tr.table x = tabGet 0 s.mx.tr.table x) ∧
      reg t.mx (trOff 0x10) = (if bit (reg s.mx (trOff 0x10)) 31 then word (2 ^ 31 + (trWord s.mx + 1) % 1024)
                               else reg s.mx (trOff 0x10)) ∧
      (∀ o, o ≠ trOff 0x10 → reg t.mx o = reg s.mx o) ∧ keepsBut [.tr, .regs, .cp] s t) ∧
  (∀ s : State, carried s (trOff 0x14) →
    ∃ t, exec .trPdataRead s = .next t ∧ t.mx.cp.err = false ∧ t.mx.cp.rdata = tabGet 0 s.mx.tr.table (trWord s.mx) ∧
      reg t.mx (trOff 0x10) = (if bit (reg s.mx (trOff 0x10)) 31 then word (2 ^ 31 + (trWord s.mx + 1) % 1024)
                               else reg s.mx (trOff 0x10)) ∧
      (∀ o, o ≠ trOff 0x10 → reg t.mx o = reg s.mx o) ∧ keepsBut [.regs, .cp] s t)

/-! ## Stage buffer -/

/-- 12_stage_buffer.md R444, R445: a byte stored with its check bits reads clean; with any one of the thirteen bits
flipped it reads corrected to the same byte; with any two flipped it is uncorrectable. -/
def Obligations.CheckCodeCorrects : Prop :=
  (∀ d : Byte, checkByte d (checkBits d) = (d, .clean)) ∧
  (∀ (d : Byte) (i : Nat), i < 8 → checkByte (d ^^^ BitVec.ofNat 8 (2 ^ i)) (checkBits d) = (d, .corrected)) ∧
  (∀ (d : Byte) (i : Nat), i < 5 → checkByte d (checkBits d ^^^ BitVec.ofNat 5 (2 ^ i)) = (d, .corrected)) ∧
  (∀ (d : Byte) (i j : Nat), i < 13 → j < 13 → i ≠ j →
    (checkByte (d ^^^ BitVec.ofNat 8 (2 ^ i) ^^^ BitVec.ofNat 8 (2 ^ j))
      (checkBits d ^^^ BitVec.ofNat 5 (2 ^ i / 256) ^^^ BitVec.ofNat 5 (2 ^ j / 256))).2 = .uncorrectable)

/-- 12_stage_buffer.md R442, R454 to R458, R464: the request a bank serves; the drain of the leaky bucket, the bits of
SB_CTRL, the patrol scrubber, which corrects what it reads, and its lateness, and the retirement of a line into a
spare, or its fencing, with its event (281), its bytes copied, those that one bit spoils corrected. Nothing drains
with PER 0, no pass runs that nothing started, and a pass in progress is not started again, but one that ends past
twice PERIOD has the next begin. In the stage buffer's self-test no pass starts, runs or is late (R462).
12_stage_buffer.md R445, R446, R452, R460: the diagnostic aperture writes one word of the line its bank and offset
name with its check bits, and reads one, corrected, or the stored check bits; a read of a line that nothing has
written is uncorrectable, with its event (278). -/
def Obligations.StageBufferUpkeep : Prop :=
  (∀ s : State, leakPer s.mx ≠ 0 →
    ∃ t, exec .leakDrain s = .next t ∧ t.mx.sb = { s.mx.sb with
      count := s.mx.sb.count - 1, alarm := s.mx.sb.alarm && !decide (s.mx.sb.count - 1 < leakLim s.mx / 2) } ∧
      keepsBut [.sb] s t) ∧
  (∀ s : State, carried s (sbOff 4) → ∃ t, exec .clrBkt s = .next t ∧
    t.mx.sb = { s.mx.sb with count := 0, alarm := false } ∧ t.mx.cp = { s.mx.cp with err := false } ∧
    keepsBut [.sb, .cp] s t) ∧
  (∀ s : State, carried s (sbOff 4) → ∃ t, exec .clrTrk s = .next t ∧
    t.mx.sb = { s.mx.sb with trk := [], trkFull := false } ∧ t.mx.cp = { s.mx.cp with err := false } ∧
    keepsBut [.sb, .cp] s t) ∧
  (∀ s : State, carried s (sbOff 4) → ∃ t, exec .clrCnt s = .next t ∧
    t.mx.sb = { s.mx.sb with corr := 0, ue := 0 } ∧ t.mx.cp = { s.mx.cp with err := false } ∧
    keepsBut [.sb, .cp] s t) ∧
  (∀ s : State, carried s (sbOff 4) → s.mx.sb.scrub = false → s.mx.gl.phase ≠ .bist → ∃ t, exec .scrubNow s = .next t ∧
    t.mx.sb = { s.mx.sb with scrub := true, scrubAt := s.mx.md.time, scrubPos := 0 } ∧ t.mx.cp = { s.mx.cp with err := false } ∧
    keepsBut [.sb, .cp] s t) ∧
  (∀ s : State, s.mx.gl.phase ≠ .bist → scrubPeriod s.mx ≠ 0 ∨ s.mx.sb.scrub = true → scrubLines s.mx = [] →
    ∃ t, exec .scrubPass s = .next t ∧
      t.mx.sb.scrub = (s.mx.sb.scrub && decide (scrubPeriod s.mx ≠ 0 ∧ s.mx.sb.scrubAt + 2000000 * scrubPeriod s.mx ≤ s.mx.md.time)) ∧
      t.mx.sb.scrubPos = (if t.mx.sb.scrub then 0 else 524287) ∧ (t.mx.sb.scrub = true → t.mx.sb.scrubAt = s.mx.md.time) ∧
      t.mx.sb.late = (s.mx.sb.late && s.mx.sb.scrub && decide (s.mx.sb.scrubAt + 1000000 * scrubPeriod s.mx < s.mx.md.time)) ∧
      t.mx.sb.passes = satInc s.mx.sb.passes 0xFFF ∧
      (∀ a, memGet t.mx.sb.data a = memGet s.mx.sb.data a) ∧ t.mx.sb.trk.all (fun x => x.2.hit == false) = true ∧
      keepsBut [.sb] s t) ∧
  (∀ s : State, s.mx.gl.phase ≠ .bist → scrubPeriod s.mx ≠ 0 →
    let start := if s.mx.sb.scrub then s.mx.sb.scrubAt else s.mx.sb.scrubAt + 1000000 * scrubPeriod s.mx
    start + 2000000 * scrubPeriod s.mx ≤ s.mx.md.time →
    ∃ t, exec .scrubLate s = .next t ∧ t.mx.sb = { s.mx.sb with
        late := true, scrub := true, scrubAt := start, scrubPos := if s.mx.sb.scrub then s.mx.sb.scrubPos else 0 } ∧ t.mx.nl = (log s.mx .scrubLate).nl ∧
      keepsBut [.sb, .nl] s t) ∧
  (∀ (s : State) (b l : Nat), b < 64 → l < 8192 → carried s (sbOff 0x34) → tabGet 0 s.mx.sb.spareUse b < 32 →
    ∃ t, exec (.retire b l) s = .next t ∧ t.mx.sb.retRes = 1 ∧
      tabGet 0 t.mx.sb.spareUse b = tabGet 0 s.mx.sb.spareUse b + 1 ∧
      tabGet 0 t.mx.sb.spare (lineAt b l) = tabGet 0 s.mx.sb.spareUse b ∧ trackOf t.mx (lineAt b l) = none ∧
      t.mx.sb.fenced = s.mx.sb.fenced ∧ t.mx.sb.written = s.mx.sb.written ∧
      (∀ i, i < 128 →
        let x := stored s.mx (128 * lineAt b l + i)
        stored t.mx (128 * lineAt b l + i) =
          (if isWritten s.mx (lineAt b l) = true ∧ (checkByte x.1 x.2).2 = .corrected
           then ((checkByte x.1 x.2).1, checkBits (checkByte x.1 x.2).1) else x)) ∧
      (∀ a, (a < 128 * lineAt b l ∨ 128 * lineAt b l + 128 ≤ a) → stored t.mx a = stored s.mx a) ∧ 281 ∈ t.mx.ic.pend ∧
      keepsBut (.sb :: .cp :: onRaise) s t) ∧
  (∀ (s : State) (b l : Nat), b < 64 → l < 8192 → carried s (sbOff 0x34) → 32 ≤ tabGet 0 s.mx.sb.spareUse b →
    ∃ t, exec (.retire b l) s = .next t ∧
      t.mx.sb = { s.mx.sb with fenced := insN s.mx.sb.fenced (lineAt b l), retRes := 2 } ∧ 281 ∈ t.mx.ic.pend ∧
      keepsBut (.sb :: .cp :: onRaise) s t) ∧
  (∀ s : State, leakPer s.mx = 0 → exec .leakDrain s = .next s) ∧
  (∀ s : State, (scrubPeriod s.mx = 0 ∧ s.mx.sb.scrub = false ∨ s.mx.gl.phase = .bist) → exec .scrubPass s = .next s) ∧
  (∀ s : State, carried s (sbOff 4) → (s.mx.sb.scrub = true ∨ s.mx.gl.phase = .bist) →
    ∃ t, exec .scrubNow s = .next t ∧ t.mx.cp = { s.mx.cp with err := false } ∧ keepsBut [.cp] s t) ∧
  (∀ s : State, (s.mx.gl.phase = .bist ∨ scrubPeriod s.mx = 0 ∨
      s.mx.md.time < (if s.mx.sb.scrub then s.mx.sb.scrubAt else s.mx.sb.scrubAt + 1000000 * scrubPeriod s.mx) +
        2000000 * scrubPeriod s.mx) →
    exec .scrubLate s = .next s) ∧
  (∀ (s : State) (l : Nat), s.mx.gl.phase ≠ .bist → scrubPeriod s.mx ≠ 0 ∨ s.mx.sb.scrub = true → scrubLines s.mx = [l] →
    (∀ i, i < 128 → (checkByte (stored s.mx (128 * l + i)).1 (stored s.mx (128 * l + i)).2).2 ≠ .uncorrectable) →
    ∃ t, exec .scrubPass s = .next t ∧
      t.mx.sb.scrub = (s.mx.sb.scrub && decide (scrubPeriod s.mx ≠ 0 ∧ s.mx.sb.scrubAt + 2000000 * scrubPeriod s.mx ≤ s.mx.md.time)) ∧
      (∀ i, i < 128 → stored t.mx (128 * l + i) =
        ((checkByte (stored s.mx (128 * l + i)).1 (stored s.mx (128 * l + i)).2).1,
         checkBits (checkByte (stored s.mx (128 * l + i)).1 (stored s.mx (128 * l + i)).2).1)) ∧
      (∀ a, (a < 128 * l ∨ 128 * l + 128 ≤ a) → stored t.mx a = stored s.mx a) ∧ t.mx.sb.ue = s.mx.sb.ue ∧
      keepsBut (.sb :: onRaise) s t) ∧
  (∀ (cycle : Nat) (l : List (Nat × Nat)), cycle % 256 ≠ 255 → l ≠ [] →
    ((bankServes cycle l).any (fun x => l.contains x && l.all (fun y => decide (y.1 ≤ x.1)))) = true) ∧
  (∀ (cycle p n : Nat) (l : List (Nat × Nat)), cycle % 256 = 255 → (p, n) ∈ l → p ≤ 5 →
    ((bankServes cycle l).any (fun x => l.contains x && decide (p ≤ x.1) && decide (x.1 ≤ 5))) = true) ∧
  (∀ (s : State) (a : Nat) (v : Word), a < 0x800000 → a % 4 = 0 → carried s (0x800000 + a) → apCheck s.mx = false →
    ∃ t, exec (.apertureWrite a v) s = .next t ∧ memRead t.mx.sb.data (apByte s.mx a) 4 = leBytes 4 v.toNat ∧
      isWritten t.mx (apByte s.mx a / 128) = true ∧
      (∀ i, i < 4 → checkByte (stored t.mx (apByte s.mx a + i)).1 (stored t.mx (apByte s.mx a + i)).2 =
        ((leBytes 4 v.toNat).getD i 0, .clean)) ∧
      (∀ x, (x < apByte s.mx a ∨ apByte s.mx a + 4 ≤ x) →
        memGet t.mx.sb.data x = memGet s.mx.sb.data x ∧ memGet t.mx.sb.chk x = memGet s.mx.sb.chk x) ∧
      keepsBut [.sb, .cp] s t) ∧
  (∀ (s : State) (a : Nat) (v : Word), a < 0x800000 → a % 4 = 0 → carried s (0x800000 + a) → apCheck s.mx = true →
    ∃ t, exec (.apertureWrite a v) s = .next t ∧ t.mx.sb.data = s.mx.sb.data ∧ t.mx.sb.written = s.mx.sb.written ∧
      (∀ i, i < 4 → memGet t.mx.sb.chk (apByte s.mx a + i) = (leBytes 4 v.toNat).getD i 0 &&& 0x1F) ∧
      (∀ x, (x < apByte s.mx a ∨ apByte s.mx a + 4 ≤ x) → memGet t.mx.sb.chk x = memGet s.mx.sb.chk x) ∧
      keepsBut [.sb, .cp] s t) ∧
  (∀ (s : State) (a : Nat), a < 0x800000 → a % 4 = 0 → carried s (0x800000 + a) → apCheck s.mx = false →
    isWritten s.mx (apByte s.mx a / 128) = true →
    (∀ i, i < 4 → (checkByte (stored s.mx (apByte s.mx a + i)).1 (stored s.mx (apByte s.mx a + i)).2).2 = .clean) →
    ∃ t, exec (.apertureRead a) s = .next t ∧ t.mx.cp.err = false ∧
      t.mx.cp.rdata = word (leNat (memRead s.mx.sb.data (apByte s.mx a) 4)) ∧ keepsBut [.cp] s t) ∧
  (∀ (s : State) (a : Nat), a < 0x800000 → a % 4 = 0 → carried s (0x800000 + a) → apCheck s.mx = false →
    isWritten s.mx (apByte s.mx a / 128) = false →
    ∃ t, exec (.apertureRead a) s = .next t ∧ t.mx.cp.err = false ∧ t.mx.sb.data = s.mx.sb.data ∧
      t.mx.sb.ue = satInc s.mx.sb.ue 0xFFFFFFFF ∧
      (bit s.mx.sb.ueAddr 31 = false → bit t.mx.sb.ueAddr 31 = true ∧ bit t.mx.sb.ueAddr 30 = true) ∧
      278 ∈ t.mx.ic.pend ∧ keepsBut (.sb :: .cp :: onRaise) s t) ∧
  (∀ (s : State) (a : Nat), a < 0x800000 → a % 4 = 0 → carried s (0x800000 + a) → apCheck s.mx = true →
    ∃ t, exec (.apertureRead a) s = .next t ∧
      t.mx.cp = { s.mx.cp with err := false, rdata := word (leNat (memRead s.mx.sb.chk (apByte s.mx a) 4)) } ∧
      keepsBut [.cp] s t) ∧
  (∀ (s : State) (a : Nat), a < 0x800000 → a % 4 = 0 → carried s (0x800000 + a) → apCheck s.mx = false →
    isWritten s.mx (apByte s.mx a / 128) = true →
    (∀ i, i < 4 → (checkByte (stored s.mx (apByte s.mx a + i)).1 (stored s.mx (apByte s.mx a + i)).2).2 ≠ .uncorrectable) →
    ∃ t, exec (.apertureRead a) s = .next t ∧ t.mx.cp.err = false ∧
      t.mx.cp.rdata = word (leNat ((List.range 4).map (fun i =>
        (checkByte (stored s.mx (apByte s.mx a + i)).1 (stored s.mx (apByte s.mx a + i)).2).1))) ∧
      t.mx.sb.data = s.mx.sb.data ∧ t.mx.sb.chk = s.mx.sb.chk ∧ t.mx.sb.ue = s.mx.sb.ue ∧
      keepsBut (.sb :: .cp :: onRaise) s t)

/-! ## Interrupts -/

/-- 13_interrupts.md R466, R468 to R470, R482, R484: the enable and pending words act on the sources their bits name, but
not on Dome's own; and a source whose timer runs and reaches CTIME becomes pending with its held count back at 0. A
word that does not exist names nothing. A target that a cleared enable leaves with nothing to be told of has no
message to come. IC_MSGF (269) is left out of the pending bits named: a message that fails raises it. 13_interrupts.md
R481, R485 to R488: STKRST empties a stack and thaws its target; a mode may change only over an empty stack, and a
message path that is switched off sends nothing more; and the answer to a message frees it, sends the one owed or
records its failure with IC_MSGF (269). -/
def Obligations.EnablesAndTargets : Prop :=
  (∀ (s : State) (ww : Nat) (v : Word), ww < 11 → carried s (0x10600 + 4 * ww) →
    ∃ t, exec (.enSet ww v) s = .next t ∧
      (∀ x, x ∈ t.mx.ic.en ↔ x ∈ s.mx.ic.en ∨ (x ∈ wordSources ww v ∧ isMgmt x = false)) ∧
      (∀ x, x ≠ 269 → (x ∈ t.mx.ic.pend ↔ x ∈ s.mx.ic.pend)) ∧ keepsBut (.cp :: onRaise) s t) ∧
  (∀ (s : State) (ww : Nat) (v : Word), ww < 11 → carried s (0x10640 + 4 * ww) →
    ∃ t, exec (.enClr ww v) s = .next t ∧
      (∀ x, x ∈ t.mx.ic.en ↔ x ∈ s.mx.ic.en ∧ ¬(x ∈ wordSources ww v ∧ isMgmt x = false)) ∧
      (∀ y, y < 32 → (target s.mx y).req = true → wanted t.mx y = false → (target t.mx y).msgOwed = false) ∧
      (∀ y p, y < 32 → (target s.mx y).req = true → wanted t.mx y = false →
        (port t.mx p).waiting.any (fun q => q.why == .message y) = false ∨ 4 ≤ p) ∧
      (∀ x, x ≠ 269 → (x ∈ t.mx.ic.pend ↔ x ∈ s.mx.ic.pend)) ∧ keepsBut (.cp :: onRaise) s t) ∧
  (∀ (s : State) (ww : Nat) (v : Word), ww < 11 → carried s (0x10680 + 4 * ww) →
    ∃ t, exec (.pSet ww v) s = .next t ∧ t.mx.ic.en = s.mx.ic.en ∧ t.mx.ic.held = s.mx.ic.held ∧
      (∀ x, x ≠ 269 → (x ∈ t.mx.ic.pend ↔ x ∈ s.mx.ic.pend ∨ (x ∈ wordSources ww v ∧ pendable x = true))) ∧
      keepsBut (.cp :: onRaise) s t) ∧
  (∀ (s : State) (ww : Nat) (v : Word), ww < 11 → carried s (0x106C0 + 4 * ww) →
    ∃ t, exec (.pClr ww v) s = .next t ∧ t.mx.ic.en = s.mx.ic.en ∧
      (∀ x, x ≠ 269 → (x ∈ t.mx.ic.pend ↔ x ∈ s.mx.ic.pend ∧ ¬(x ∈ wordSources ww v ∧ isMgmt x = false))) ∧
      keepsBut (.cp :: onRaise) s t) ∧
  (∀ (s : State) (x : Nat), x < 256 → x ∈ s.mx.ic.timer → ctime s.mx x ≠ 0 →
    ∃ t, exec (.coalescingTimer x) s = .next t ∧ x ∈ t.mx.ic.pend ∧ heldCount t.mx x = 0 ∧ x ∉ t.mx.ic.timer ∧
      t.mx.ic.en = s.mx.ic.en ∧ (∀ y, y ≠ x → y ≠ 269 → (y ∈ t.mx.ic.pend ↔ y ∈ s.mx.ic.pend)) ∧
      (∀ y, y ≠ x → heldCount t.mx y = heldCount s.mx y) ∧ keepsBut onRaise s t) ∧
  (∀ (s : State) (x : Nat), x ∉ s.mx.ic.timer → exec (.coalescingTimer x) s = .next s) ∧
  (∀ (s : State) (ww : Nat) (v : Word) (c : Instr), 11 ≤ ww → (c = .enSet ww v ∨ c = .enClr ww v ∨ c = .pSet ww v ∨ c = .pClr ww v) →
    exec c s = .next s) ∧
  (∀ (s : State) (tt : Nat), tt < 32 → carried s (icTgtOff tt 0xC) →
    ∃ t, exec (.stkRst tt) s = .next t ∧ (target t.mx tt).stack = [] ∧ (target t.mx tt).frozen = false ∧
      (∀ y, y ≠ tt → (target t.mx y).stack = (target s.mx y).stack) ∧
      (∀ y, y ≠ 269 → (y ∈ t.mx.ic.pend ↔ y ∈ s.mx.ic.pend)) ∧ keepsBut (.cp :: onRaise) s t) ∧
  (∀ (s : State) (tt : Nat) (v : Word), tt < 32 → carried s (icTgtOff tt 0) →
    (bit v 31 = compat s.mx tt ∨ (target s.mx tt).stack = []) →
    ∃ t, exec (.tcfgWrite tt v) s = .next t ∧ tcfg t.mx tt = v &&& 0xF00F0000 ∧
      (∀ o, o ≠ icTgtOff tt 0 → reg t.mx o = reg s.mx o) ∧
      (bit v 30 = false → byMsg s.mx tt = true → (target t.mx tt).msgOwed = false) ∧
      (∀ p, bit v 30 = false → byMsg s.mx tt = true →
        (port t.mx p).waiting.any (fun q => q.why == .message tt) = false ∨ 4 ≤ p) ∧
      (∀ y, (target t.mx y).stack = (target s.mx y).stack) ∧ keepsBut (.regs :: .cp :: onRaise) s t) ∧
  (∀ (s : State) (tt : Nat) (v : Word), tt < 32 → carried s (icTgtOff tt 0) → bit v 31 ≠ compat s.mx tt →
    (target s.mx tt).stack ≠ [] →
    ∃ t, exec (.tcfgWrite tt v) s = .next t ∧ t.mx.cp = { s.mx.cp with err := false } ∧
      t.mx.nl = (log s.mx .tcfgRefused tt).nl ∧ keepsBut [.cp, .nl] s t) ∧
  (∀ (s : State) (tt : Nat), tt < 32 → (target s.mx tt).msgAns = some none → (target s.mx tt).msgOwed = false →
    ∃ t, exec (.messageResponse tt) s = .next t ∧
      target t.mx tt = { target s.mx tt with msgAns := none, msgOut := false } ∧
      (∀ y, y ≠ tt → target t.mx y = target s.mx y) ∧ keepsBut [.ic] s t) ∧
  (∀ (s : State) (tt : Nat) (c : Cause), tt < 32 → (target s.mx tt).msgAns = some (some c) →
    (port s.mx (fld (tcfg s.mx tt) 29 28)).down = false →
    ∃ t, exec (.messageResponse tt) s = .next t ∧ (target t.mx tt).msgAns = none ∧ (target t.mx tt).msgf = true ∧
      (target t.mx tt).mcause = (if (target s.mx tt).msgf then (target s.mx tt).mcause else causeCode c) ∧
      (target t.mx tt).faults = satInc (target s.mx tt).faults 255 ∧ 269 ∈ t.mx.ic.pend ∧
      t.mx.ic.en = s.mx.ic.en ∧ (∀ y, y ≠ 269 → (y ∈ t.mx.ic.pend ↔ y ∈ s.mx.ic.pend)) ∧ keepsBut onRaise s t) ∧
  (∀ (s : State) (tt : Nat), tt < 32 → (target s.mx tt).msgAns = some none → (target s.mx tt).msgOwed = true →
    (port s.mx (fld (tcfg s.mx tt) 29 28)).down = false →
    ∃ t, exec (.messageResponse tt) s = .next t ∧
      target t.mx tt = { target s.mx tt with msgAns := none, msgOut := true, msgOwed := false } ∧
      (parked s.mx (fld (tcfg s.mx tt) 29 28) → (port t.mx (fld (tcfg s.mx tt) 29 28)).waiting =
        [writeReq .write ((reg s.mx (icTgtOff tt 0x1C)).toNat / 4 * 4 + 4294967296 * (reg s.mx (icTgtOff tt 0x20)).toNat)
          (leBytes 4 (reg s.mx (icTgtOff tt 0x24)).toNat) (.message tt)]) ∧
      (∀ y, y ≠ tt → target t.mx y = target s.mx y) ∧ t.mx.ic.pend = s.mx.ic.pend ∧ keepsBut [.ic, .hp, .free] s t) ∧
  (∀ (s : State) (tt : Nat), (target s.mx tt).msgAns = none → exec (.messageResponse tt) s = .next s)

/-- 13_interrupts.md R472, R480, R490: a claim takes the claimable source of the highest priority, the higher number
winning a tie, clears its pending bit and pushes it; with none claimable it returns SRC 0x1FF and changes nothing; and
a frozen target answers INTC_STACK (270) and pushes nothing. -/
def Obligations.ClaimTakesTheHighest : Prop :=
  (∀ (s : State) (tt x : Nat), tt < 32 → carried s (icTgtOff tt 4) → (target s.mx tt).frozen = false →
    claimTaken s.mx tt x →
    ∃ t, exec (.claim tt) s = .next t ∧
      t.mx.cp = { s.mx.cp with err := false,
                               rdata := claimWord (srcPri s.mx x) ((target s.mx tt).stack.length + 1) x } ∧
      (target t.mx tt).stack = (x, srcPri s.mx x) :: (target s.mx tt).stack ∧ (x ≠ 269 → x ∉ t.mx.ic.pend) ∧
      (∀ y, y ≠ x → y ≠ 269 → (y ∈ t.mx.ic.pend ↔ y ∈ s.mx.ic.pend)) ∧
      (∀ y, y ≠ tt → (target t.mx y).stack = (target s.mx y).stack) ∧ t.mx.ic.en = s.mx.ic.en ∧
      keepsBut (.cp :: onRaise) s t) ∧
  (∀ (s : State) (tt : Nat), tt < 32 → carried s (icTgtOff tt 4) →
    (∀ y ∈ s.mx.ic.pend, claimable s.mx tt y = false) →
    ∃ t, exec (.claim tt) s = .next t ∧ t.mx.cp = { s.mx.cp with err := false, rdata := 0x1FF } ∧
      keepsBut [.cp] s t) ∧
  (∀ (s : State) (tt : Nat), tt < 32 → carried s (icTgtOff tt 4) → (target s.mx tt).frozen = true →
    270 ∈ s.mx.ic.pend → routed s.mx tt 270 = true →
    ∃ t, exec (.claim tt) s = .next t ∧
      t.mx.cp = { s.mx.cp with err := false, rdata := claimWord 0 (target s.mx tt).stack.length 270 } ∧
      270 ∉ t.mx.ic.pend ∧ (∀ y, (target t.mx y).stack = (target s.mx y).stack) ∧ keepsBut (.cp :: onRaise) s t)

/-- 13_interrupts.md R473, R479, R480: an EOI that names the top of the stack pops it; any other changes nothing on the
stack and raises the stack fault with INTC_STACK (270); while the target is frozen an EOI pops nothing, and a refused
one only counts. -/
def Obligations.EoiPopsOrFaults : Prop :=
  (∀ (s : State) (tt x p : Nat) (l : List (Nat × Nat)), tt < 32 → x < 512 → carried s (icTgtOff tt 8) →
    (target s.mx tt).frozen = false → (target s.mx tt).stack = (x, p) :: l →
    ∃ t, exec (.eoi tt x) s = .next t ∧ (target t.mx tt).stack = l ∧ (target t.mx tt).frozen = false ∧
      (l = [] → ∀ q, aboveRp (target t.mx tt) q = true) ∧
      (∀ y p' l', l = (y, p') :: l' → ∀ q, aboveRp (target t.mx tt) q = decide (p' < q)) ∧
      (∀ y, y ≠ tt → (target t.mx y).stack = (target s.mx y).stack) ∧
      (∀ y, y ≠ 269 → (y ∈ t.mx.ic.pend ↔ y ∈ s.mx.ic.pend)) ∧ keepsBut (.cp :: onRaise) s t) ∧
  (∀ (s : State) (tt x : Nat), tt < 32 → x < 512 → carried s (icTgtOff tt 8) → (target s.mx tt).frozen = false →
    (target s.mx tt).stack.head?.map (·.1) ≠ some x →
    ∃ t, exec (.eoi tt x) s = .next t ∧ (∀ y, (target t.mx y).stack = (target s.mx y).stack) ∧
      (target t.mx tt).frozen = true ∧ (target t.mx tt).stkf = true ∧
      (target t.mx tt).badSrc = (if (target s.mx tt).stkf then (target s.mx tt).badSrc else x) ∧
      270 ∈ t.mx.ic.pend ∧ keepsBut (.cp :: onRaise) s t) ∧
  (∀ (s : State) (tt x : Nat), tt < 32 → x < 512 → carried s (icTgtOff tt 8) → (target s.mx tt).frozen = true →
    ∃ t, exec (.eoi tt x) s = .next t ∧
      target t.mx tt = { target s.mx tt with
        faults := if (target s.mx tt).stack.head?.map (·.1) = some x then (target s.mx tt).faults
                  else satInc (target s.mx tt).faults 255 } ∧
      (∀ y, y ≠ tt → target t.mx y = target s.mx y) ∧ t.mx.ic.pend = s.mx.ic.pend ∧ keepsBut [.cp, .ic] s t)

/-- 13_interrupts.md R471, R472: the priorities on every stack rise strictly towards its top, so that no stack is deeper
than 16; every step keeps it, and it holds after reset. -/
def Obligations.StacksRise : Prop :=
  stacksRise State.reset.mx ∧ (∀ s t : State, stacksRise s.mx → step s = .next t → stacksRise t.mx) ∧
  (∀ l, stackRises l → l.length ≤ 16)

/-! ## Dome and the Night Log -/

/-- 14_dome_nightlog.md R493, R494, R496, R497, R529; 02_boundary.md R94: GO and a private write over I3C hand a command
to Dome, behind those that wait; one that Dome does not know is answered UNKNOWN with DO_MBOX (291), one that I3C may
not carry DENIED, and a GO while one is served leaves a record; a DOSE_ADD that arrives while a restart waits for its
firmware is answered RESTARTED (14_dome_nightlog.md R529). The controller assigns and clears the target's address; a
target that is not enabled, or serves a request, takes no other. 14_dome_nightlog.md R495, R497, R503, R506, R514:
what Dome's commands answer and do: each ends with its reply in the mailbox and DO_MBOX (291), or announced over I3C,
but for a commit that has fuses to read or program first, and a CATALOG, which writes to host memory, at most 4 KiB a
request, before it answers. One that I3C does not carry is DENIED. The dose stays at the greatest u64, which the spec
does not state (log entry 120). A command that is not at the head, or while an earlier one is in progress, waits. -/
def Obligations.MailboxCommands : Prop :=
  (∀ s : State, carried s (doOff 0x80) → s.mx.dm.cmds = [] →
    let c : MbCmd := { words := (List.range 16).map (fun j => reg s.mx (doOff (4 * j))) }
    (knownCmd (mbCmd c) = true → (s.mx.dm.restarting = false ∨ mbCmd c ≠ 0x21) →
      ∃ t, exec .go s = .next t ∧ t.mx.dm = { s.mx.dm with cmds := [c] } ∧ t.mx.cp = { s.mx.cp with err := false } ∧
        keepsBut [.dm, .cp] s t) ∧
    (knownCmd (mbCmd c) = false → domeRuns s.mx = true →
      ∃ t, exec .go s = .next t ∧ t.mx.dm = { s.mx.dm with rsp := replyWords c 1 [], mbDone := true } ∧
        291 ∈ t.mx.ic.pend ∧ keepsBut (.dm :: .cp :: onRaise) s t) ∧
    (s.mx.dm.restarting = true → mbCmd c = 0x21 →
      ∃ t, exec .go s = .next t ∧ t.mx.dm = { s.mx.dm with rsp := replyWords c 9 [], mbDone := true } ∧
        291 ∈ t.mx.ic.pend ∧ keepsBut (.dm :: .cp :: onRaise) s t)) ∧
  (∀ s : State, carried s (doOff 0x80) → mbBusy s.mx = true →
    ∃ t, exec .go s = .next t ∧ t.mx.cp = { s.mx.cp with err := false } ∧
      t.mx.nl = (log s.mx .mbRefused (doOff 0x80)).nl ∧ keepsBut [.cp, .nl] s t) ∧
  (∀ (s : State) (ws : List Word), ws.length = 16 → bit (reg s.mx (doOff 0xB8)) 31 = true → s.mx.dm.cmds = [] →
    (s.mx.dm.restarting = false ∨ mbCmd { i3c := true, words := ws } ≠ 0x21) → knownCmd (mbCmd { i3c := true, words := ws }) = true →
    (i3cDenied s.mx { i3c := true, words := ws } = false →
      ∃ t, exec (.i3cWrite (.priv ws)) s = .next t ∧
        t.mx.dm = { s.mx.dm with cmds := [{ i3c := true, words := ws }] } ∧ keepsBut [.dm] s t) ∧
    (i3cDenied s.mx { i3c := true, words := ws } = true → domeRuns s.mx = true →
      ∃ t, exec (.i3cWrite (.priv ws)) s = .next t ∧
        t.mx.dm = { s.mx.dm with i3cRsp := replyWords { i3c := true, words := ws } 3 [], ibi := true } ∧
        keepsBut [.dm] s t)) ∧
  (∀ s : State, bit (reg s.mx (doOff 0xB8)) 31 = true →
    ∃ t, exec .i3cRead s = .next t ∧ t.mx.dm = { s.mx.dm with ibi := false } ∧ keepsBut [.dm] s t) ∧
  (∀ (s : State) (c0 : MbCmd) (l : List MbCmd), carried s (doOff 0x80) → s.mx.dm.cmds = c0 :: l → mbBusy s.mx = false →
    knownCmd (mbCmd c0) = true → i3cDenied s.mx c0 = false →
    (s.mx.dm.restarting = false ∨ (reg s.mx (doOff 0)).toNat % 65536 ≠ 0x21) →
    ∃ t, exec .go s = .next t ∧ t.mx.dm = { s.mx.dm with
      cmds := c0 :: l ++ [{ words := (List.range 16).map (fun j => reg s.mx (doOff (4 * j))) }] } ∧ keepsBut [.dm, .cp] s t) ∧
  (∀ (s : State) (x : I3cMsg), (bit (reg s.mx (doOff 0xB8)) 31 = false ∨
      (∃ ws, x = .priv ws) ∧ s.mx.dm.cmds.any (·.i3c) = true) → exec (.i3cWrite x) s = .next s) ∧
  (∀ (s : State) (a : Nat), bit (reg s.mx (doOff 0xB8)) 31 = true →
    exec (.i3cWrite (.assign a)) s = .next { s with mx := setDome s.mx { s.mx.dm with i3cAddr := some (a % 128) } }) ∧
  (∀ (s : State), bit (reg s.mx (doOff 0xB8)) 31 = true →
    exec (.i3cWrite .reset) s = .next { s with mx := setDome s.mx { s.mx.dm with i3cAddr := none } }) ∧
  (∀ (s : State), bit (reg s.mx (doOff 0xB8)) 31 = false → exec .i3cRead s = .next s) ∧
  (∀ (s : State) (c : MbCmd), mbReady s.mx c →
    ((mbCmd c = 0x01 →
      ∃ t, exec .ident s = .next t ∧
        t.mx.dm = { s.mx.dm with cmds := [], rsp := replyWords c 0 (identWords s.mx), mbDone := true } ∧
        291 ∈ t.mx.ic.pend ∧ keepsBut (.dm :: onRaise) s t) ∧
     (mbCmd c = 0x10 → isSensor (mbWord c 1 % 128) = true →
      let k := mbWord c 1 % 128
      ∃ t, exec .sensor s = .next t ∧ t.mx.dm.cmds = [] ∧
        ((mbWord c 1).testBit 31 = false → t.mx.dm.rsp = (let v := sensor s.mx k
          replyWords c 0 [(1, unsigned 32 v.cur), (2, unsigned 32 v.least), (3, unsigned 32 v.most)])) ∧
        sensor t.mx k = (if (mbWord c 1).testBit 31
          then { sensor s.mx k with least := (sensor s.mx k).cur, most := (sensor s.mx k).cur } else sensor s.mx k) ∧
        (∀ x, x ≠ k → sensor t.mx x = sensor s.mx x) ∧ 291 ∈ t.mx.ic.pend ∧ keepsBut (.dm :: onRaise) s t) ∧
     (mbCmd c = 0x20 →
      ∃ t, exec .doseGet s = .next t ∧
        t.mx.dm = { s.mx.dm with cmds := [], rsp := replyWords c 0 (doseWords s.mx), mbDone := true } ∧
        291 ∈ t.mx.ic.pend ∧ keepsBut (.dm :: onRaise) s t) ∧
     (mbCmd c = 0x21 →
      let n := s.mx.dm.doseF + (2 ^ 32 * mbWord c 1 + mbWord c 2)
      ∃ t, exec .doseAdd s = .next t ∧
        (2 ^ 32 * s.mx.dm.dose + n < 2 ^ 96 → 2 ^ 32 * t.mx.dm.dose + t.mx.dm.doseF = 2 ^ 32 * s.mx.dm.dose + n) ∧
        t.mx.dm = { s.mx.dm with dose := min (2 ^ 64 - 1) (s.mx.dm.dose + n / 2 ^ 32), doseF := n % 2 ^ 32, gap := false,
                                 cmds := [], rsp := replyWords c 0 (doseWords t.mx), mbDone := true } ∧
        (n / 2 ^ 32 ≠ 0 → t.mx.sg = { s.mx.sg with dose := t.mx.dm.dose }) ∧ (n / 2 ^ 32 = 0 → t.mx.sg = s.mx.sg) ∧
        291 ∈ t.mx.ic.pend ∧ keepsBut (.dm :: .sg :: onRaise) s t) ∧
     (mbCmd c = 0x32 → s.mx.dm.fuseok = true →
      let v := pkgRbk (s.mx.dm.pkg.getD [])
      let n := rollback s.mx
      ∃ t, exec .rbkCommit s = .next t ∧
        (v ≤ n → t.mx.dm = { s.mx.dm with cmds := [], rsp := replyWords c 0 [(1, n), (2, n)], mbDone := true } ∧
          291 ∈ t.mx.ic.pend) ∧
        (n < v → t.mx.dm = { s.mx.dm with
          fuse := some { wr := true, word := 0, data := fuseGoal v 0, old := n, goal := v } } ∧ t.mx.ic = s.mx.ic) ∧
        keepsBut (.dm :: onRaise) s t) ∧
     (mbCmd c = 0x32 → s.mx.dm.fuseok = false →
      ∃ t, exec .rbkCommit s = .next t ∧ t.mx.dm = { s.mx.dm with fuse := some { wr := false, word := 0 } } ∧
        keepsBut [.dm] s t) ∧
     (mbCmd c = 0x40 → s.mx.dm.acc = none →
      let p := s.mx.dm.pkg.getD []
      let prt := mbWord c 4 % 4
      let a := mbWord c 1 + 2 ^ 32 * mbWord c 2
      let l := slice p (leAt p 0x1C 4) (pkgCatLen p)
      let q := writeReq .write a (l.take (4096 - a % 4096)) (.own false s.mx.dm.accNo)
      ∃ t, exec (.catalog .held) s = .next t ∧
        (mbWord c 3 < pkgCatLen p →
          t.mx.dm = { s.mx.dm with cmds := [], mbDone := true, rsp := replyWords c 2 [] } ∧ 291 ∈ t.mx.ic.pend) ∧
        (pkgCatLen p ≤ mbWord c 3 → l ≠ [] → (port s.mx prt).down = false →
          t.mx.dm.cmds = [c] ∧ t.mx.dm.acc.isSome = true ∧ t.mx.hp = (request s.mx prt q).hp ∧ q.beats ≤ 32 ∧ t.mx.ic = s.mx.ic) ∧
        (pkgCatLen p ≤ mbWord c 3 → l ≠ [] → (port s.mx prt).down = true →
          t.mx.dm = { s.mx.dm with cmds := [], mbDone := true, acc := none, accNo := s.mx.dm.accNo + 1,
                                   rsp := replyWords c 4 [(15, 0x20 + causeCode .outOfService)] } ∧ 291 ∈ t.mx.ic.pend) ∧
        (l = [] → pkgCatLen p ≤ mbWord c 3 →
          t.mx.dm = { s.mx.dm with cmds := [], mbDone := true, acc := none, accNo := s.mx.dm.accNo + 1,
                                   rsp := replyWords c 0 [(1, pkgCatLen p), (2, pkgCatVer p)] } ∧ 291 ∈ t.mx.ic.pend) ∧
        keepsBut (.dm :: onRaise) s t) ∧
     (mbCmd c = 0x10 → isSensor (mbWord c 1 % 128) = false →
      ∃ t, exec .sensor s = .next t ∧ t.mx.dm = { s.mx.dm with cmds := [], rsp := replyWords c 2 [], mbDone := true } ∧
        291 ∈ t.mx.ic.pend ∧ keepsBut (.dm :: onRaise) s t))) ∧
  (∀ (s : State) (c : MbCmd) (b : Told) (a : OwnAcc) (f : Option Cause), mbReady s.mx c → mbCmd c = 0x40 →
    s.mx.dm.acc = some a → a.ended = some f →
    let p := s.mx.dm.pkg.getD []
    ∃ t, exec (.catalog b) s = .next t ∧
      t.mx.dm = { s.mx.dm with
        cmds := [], mbDone := true, acc := none,
        rsp := f.elim (replyWords c 0 [(1, pkgCatLen p), (2, pkgCatVer p)]) (fun x => replyWords c 4 [(15, 0x20 + causeCode x)]) } ∧
      291 ∈ t.mx.ic.pend ∧ keepsBut (.dm :: onRaise) s t) ∧
  (∀ (s : State) (c : MbCmd) (b : Told) (a : OwnAcc), mbReady s.mx c → mbCmd c = 0x40 → s.mx.dm.acc = some a → a.ended = none →
    exec (.catalog b) s = .next s) ∧
  (∀ (s : State) (c : MbCmd) (i : Instr), s.mx.dm.cmds = [c] → i3cDenied s.mx c = true → domeRuns s.mx = true →
    s.mx.dm.fuse = none → s.mx.dm.updOwed = none → s.mx.dm.upd = none → s.mx.dm.acc = none →
    (mbCmd c = 0x10 ∧ i = .sensor ∨ mbCmd c = 0x21 ∧ i = .doseAdd ∨ mbCmd c = 0x32 ∧ i = .rbkCommit) →
    ∃ t, exec i s = .next t ∧ t.mx.dm = { s.mx.dm with cmds := [], ibi := true, i3cRsp := replyWords c 3 [] } ∧
      keepsBut [.dm] s t) ∧
  (∀ (s : State) (c : MbCmd) (i : Instr), s.mx.dm.cmds = [c] → c.i3c = true → domeRuns s.mx = true → s.mx.dm.fuse = none →
    s.mx.dm.updOwed = none → (mbCmd c = 0x01 ∧ i = .ident ∨ mbCmd c = 0x20 ∧ i = .doseGet) →
    ∃ t, exec i s = .next t ∧ t.mx.dm = { s.mx.dm with
        cmds := [], ibi := true, i3cRsp := replyWords c 0 (if mbCmd c = 0x01 then identWords s.mx else doseWords s.mx) } ∧
      keepsBut [.dm] s t) ∧
  (∀ (s : State) (n : Nat) (i : Instr) (f : Told) (b : RestartEnv) (u : UpdEnv),
    (n = 0x01 ∧ i = .ident ∨ n = 0x10 ∧ i = .sensor ∨ n = 0x20 ∧ i = .doseGet ∨ n = 0x21 ∧ i = .doseAdd ∨
     n = 0x30 ∧ i = .update u ∨ n = 0x31 ∧ i = .restart b ∨ n = 0x32 ∧ i = .rbkCommit ∨ n = 0x40 ∧ i = .catalog f) →
    (s.mx.dm.cmds.head?.map mbCmd ≠ some n ∨ domeRuns s.mx = false ∨ s.mx.dm.fuse ≠ none ∨ s.mx.dm.updOwed ≠ none) →
    exec i s = .next s)

/-- 14_dome_nightlog.md R492, R495, R496, R504, R508 to R510, R515, R529; 04_commands.md R190; 12_stage_buffer.md R442: an
UPDATE asks for a reservation of class SYS, fetches its package on PORT, at most 4 KiB a request, checks it as it
stands in the reservation before any slot is written, and erases and programs the slot that does not run, page-set by
page-set. One that is programmed and read back equal is stored, with DO_UPDATE (294) and its reply, which waits while
ACT replaces an image; the reads of the read-back count as senses do. An update that cannot be made, or whose fetch,
program or read-back fails, is refused, and a slot being written stays invalid; of a failure with no status byte, word
15's is free (log entry 156). It waits for its reservation, its answers and its die. A RESTART and the watchdog
restart Dome, ending what it was doing. Which package passes rests on a free value, the digest of the keys (log entry
2). 02_boundary.md R70, R71, R81; 14_dome_nightlog.md R498 to R501, R504, R513 to R515: fuse accesses, read,
programmed and verified word by word, a read that fails leaving FUSEOK 0; monitors, V5 to V12 of each of their four
groups in turn, package temperatures, whose routine the group's image must export, and the integration of the dose,
forward steps above DO_STEPMAX left out of it and reported by GAP, each with its event where a limit is passed. The
factor lies within 0.05 % of its expression. Nothing happens with no fuse access, of a monitor or package that is not
there, or while Dome does not run. -/
def Obligations.UpdateFusesAndDose : Prop :=
  (∀ (s : State) (c : MbCmd) (e : UpdEnv), mbReady s.mx c → mbCmd c = 0x30 → s.mx.dm.upd = none → s.mx.dm.fuseok = true →
    slotsNamed s.mx = true → mbWord c 3 ≤ 1048576 → resvOf s.mx .dome = none →
    ∃ t, exec (.update e) s = .next t ∧ t.mx.dm = { s.mx.dm with upd := some .asked } ∧
      t.mx.sb = { s.mx.sb with
        wait := s.mx.sb.wait ++ [{ owner := .dome, cls := 4, n := (mbWord c 3 + 127) / 128 }], failed := t.mx.sb.failed } ∧
      keepsBut [.dm, .sb] s t) ∧
  (∀ (s : State) (c : MbCmd) (e : UpdEnv), mbReady s.mx c → mbCmd c = 0x30 → s.mx.dm.upd = some .asked →
    (resvOf s.mx .dome).isSome = true → 0 < mbWord c 3 →
    let prt := mbWord c 4 % 4
    let a := mbWord c 1 + 2 ^ 32 * mbWord c 2
    let q := readReq a (min (mbWord c 3) (4096 - a % 4096)) (.own false s.mx.dm.accNo)
    ∃ t, exec (.update e) s = .next t ∧
      ((port s.mx prt).down = false → t.mx.dm.cmds = [c] ∧ t.mx.dm.upd = some .fetching ∧ t.mx.dm.acc.isSome = true ∧
        t.mx.hp = (request s.mx prt q).hp ∧ q.beats ≤ 32 ∧ t.mx.sb = s.mx.sb ∧ t.mx.ic = s.mx.ic) ∧
      ((port s.mx prt).down = true →
        t.mx.dm = { s.mx.dm with upd := none, acc := none, accNo := s.mx.dm.accNo + 1, cmds := [], mbDone := true,
                                 rsp := replyWords c 4 [(3, 0), (15, 0x10 + causeCode .outOfService)] } ∧
        resvOf t.mx .dome = none ∧ 291 ∈ t.mx.ic.pend ∧ 294 ∈ t.mx.ic.pend) ∧
      keepsBut (.dm :: .sb :: onRaise) s t) ∧
  (∀ (s : State) (c : MbCmd) (e : UpdEnv) (a : OwnAcc) (f : Cause), mbReady s.mx c → mbCmd c = 0x30 →
    s.mx.dm.upd = some .fetching → s.mx.dm.acc = some a → a.ended = some (some f) →
    ∃ t, exec (.update e) s = .next t ∧
      t.mx.dm = { s.mx.dm with upd := none, acc := none, cmds := [], mbDone := true,
                               rsp := replyWords c 4 [(3, 0), (15, 0x10 + causeCode f)] } ∧
      resvOf t.mx .dome = none ∧ (∀ x, memGet t.mx.sb.data x = memGet s.mx.sb.data x) ∧
      291 ∈ t.mx.ic.pend ∧ 294 ∈ t.mx.ic.pend ∧ keepsBut (.dm :: .sb :: onRaise) s t) ∧
  (∀ (s : State) (c : MbCmd) (e : UpdEnv) (a : OwnAcc), mbReady s.mx c → mbCmd c = 0x30 →
    s.mx.dm.upd = some .fetching → s.mx.dm.acc = some a → a.ended = some none → s.mx.gl.phase ≠ .warm → s.mx.gl.pf = .none →
    sysW s.mx 12 = none →
    let n := mbWord c 3
    let l := memRead a.data (mbWord c 1 + 2 ^ 32 * mbWord c 2) n
    let p := (resvRead (resvWrite s.mx .dome 0 l) .dome 6 0 n).1
    let b := updSlot s.mx
    let d := slotDie s.mx b
    let row := (reg s.mx (doOff 0xA4)).toNat
    ∃ t, exec (.update e) s = .next t ∧
      (∀ k, updFault s.mx p n = some k →
        t.mx.dm = { s.mx.dm with upd := none, acc := none, cmds := [], mbDone := true,
                                 rsp := replyWords c (checkResult k) [(3, k), (15, 0)] } ∧
        resvOf t.mx .dome = none ∧ 291 ∈ t.mx.ic.pend ∧ 294 ∈ t.mx.ic.pend ∧ t.mx.wr = s.mx.wr) ∧
      (updFault s.mx p n = none →
        t.mx.dm = { (setSlot b none s.mx).dm with upd := some (.writing b p), acc := none } ∧
        sysW t.mx 12 = some {
          die := d,
          ops := (row, .erase) :: (List.range ((n + 65535) / 65536)).map (fun i =>
            (row + i, .bytes (slice p (65536 * i) (min 65536 (n - 65536 * i))))) } ∧
        ent t.mx (sysEid 12) = some (sysEnt d row 3 .placed) ∧ .write (sysEid 12) ∈ (die t.mx d).ahead ∧
        t.mx.sb.resv = s.mx.sb.resv) ∧
      (∀ k, k ≠ 12 → sysW t.mx k = sysW s.mx k) ∧ (∀ x, x ≠ d → die t.mx x = die s.mx x) ∧
      keepsBut (.dm :: .sb :: .wr :: .ents :: .die :: onRaise) s t) ∧
  (∀ (s : State) (c : MbCmd) (e : UpdEnv) (b : Bool) (p : List Byte) (w : SysW) (x : Nat), mbReady s.mx c → mbCmd c = 0x30 →
    s.mx.dm.upd = some (.writing b p) → sysW s.mx 12 = some w → w.ended = some (0, x) → e.same = true →
    ((mbWord c 4).testBit 8 = false ∨ s.mx.mc.todo = [] ∧ ∀ g, g < 32 → imageFor s.mx p g = none) →
    let ws := [(1, pkgSeq p), (2, bitAt b 0), (3, 0)]
    ∃ t, exec (.update e) s = .next t ∧
      (replacing s.mx = true → t.mx.dm = { (setSlot b (some p) s.mx).dm with upd := none, updOwed := some ws }) ∧
      (replacing s.mx = false →
        t.mx.dm = { (setSlot b (some p) s.mx).dm with upd := none, cmds := [], mbDone := true, rsp := replyWords c 0 ws } ∧
        291 ∈ t.mx.ic.pend ∧ 294 ∈ t.mx.ic.pend) ∧
      t.mx.sg = (readBack e b p.length s.mx).sg ∧ resvOf t.mx .dome = none ∧ sysW t.mx 12 = none ∧
      (∀ k, k ≠ 12 → sysW t.mx k = sysW s.mx k) ∧ keepsBut (.dm :: .sb :: .wr :: .sg :: onRaise) s t) ∧
  (∀ (s : State) (c : MbCmd) (e : UpdEnv) (b : Bool) (p : List Byte) (w : SysW) (x : Nat), mbReady s.mx c → mbCmd c = 0x30 →
    s.mx.dm.upd = some (.writing b p) → sysW s.mx 12 = some w → w.ended = some (0x2200, x) →
    ∃ t, exec (.update e) s = .next t ∧
      t.mx.dm = { s.mx.dm with upd := none, acc := none, cmds := [], mbDone := true,
                               rsp := replyWords c 4 [(3, 0), (15, 0x100 + x % 256)] } ∧
      resvOf t.mx .dome = none ∧ sysW t.mx 12 = none ∧ 291 ∈ t.mx.ic.pend ∧ 294 ∈ t.mx.ic.pend ∧
      keepsBut (.dm :: .sb :: .wr :: onRaise) s t) ∧
  (∀ (s : State) (c : MbCmd) (e : UpdEnv) (b : Bool) (p : List Byte) (w : SysW) (st x : Nat), mbReady s.mx c →
    mbCmd c = 0x30 → s.mx.dm.upd = some (.writing b p) → sysW s.mx 12 = some w → w.ended = some (st, x) → st ≠ 0x2200 →
    (st ≠ 0 ∨ e.same = false) →
    ∃ t, exec (.update e) s = .next t ∧
      t.mx.dm = { s.mx.dm with upd := none, acc := none, cmds := [], mbDone := true,
                               rsp := replyWords c 4 [(3, 0), (15, (t.mx.dm.rsp.getD 15 0).toNat)] } ∧
      0x100 ≤ (t.mx.dm.rsp.getD 15 0).toNat ∧ (t.mx.dm.rsp.getD 15 0).toNat < 0x200 ∧
      resvOf t.mx .dome = none ∧ sysW t.mx 12 = none ∧ 291 ∈ t.mx.ic.pend ∧ 294 ∈ t.mx.ic.pend ∧
      (st ≠ 0 → t.mx.sg = s.mx.sg) ∧ keepsBut (.dm :: .sb :: .wr :: .sg :: onRaise) s t) ∧
  (∀ (s : State) (c : MbCmd) (e : UpdEnv) (q d : Nat), mbReady s.mx c → mbCmd c = 0x30 → s.mx.dm.upd = some (.cut q d) →
    ∃ t, exec (.update e) s = .next t ∧
      t.mx.dm = { s.mx.dm with upd := none, acc := none, cmds := [], mbDone := true,
                               rsp := replyWords c 4 [(3, 0), (15, d)] } ∧
      resvOf t.mx .dome = none ∧ 291 ∈ t.mx.ic.pend ∧ 294 ∈ t.mx.ic.pend ∧ keepsBut (.dm :: .sb :: onRaise) s t) ∧
  (∀ (s : State) (c : MbCmd) (e : UpdEnv) (u : UpdAt), mbReady s.mx c → mbCmd c = 0x30 → s.mx.dm.upd = some u →
    (u = .asked ∧ resvOf s.mx .dome = none ∨ u = .fetching ∧ s.mx.dm.acc.bind (·.ended) = none ∨
     (slotWrite s.mx).isSome = true ∧ (sysW s.mx 12).bind (·.ended) = none) →
    exec (.update e) s = .next s) ∧
  (∀ (s : State) (c : MbCmd) (e : UpdEnv), mbReady s.mx c → mbCmd c = 0x30 → s.mx.dm.upd = none →
    (s.mx.dm.fuseok = false ∧ e.fuses = [] ∨ s.mx.dm.fuseok = true ∧ (slotsNamed s.mx = false ∨ 1048576 < mbWord c 3)) →
    ∃ t, exec (.update e) s = .next t ∧
      t.mx.dm = { s.mx.dm with
        cmds := [], mbDone := true,
        rsp := (if s.mx.dm.fuseok = false then replyWords c 7 [(3, 0), (15, 0)]
                else if slotsNamed s.mx = false then replyWords c 3 [(3, 0), (15, 0)] else replyWords c 2 [(3, 1), (15, 0)]) } ∧
      (s.mx.dm.fuseok = false → 295 ∈ t.mx.ic.pend) ∧ 291 ∈ t.mx.ic.pend ∧ 294 ∈ t.mx.ic.pend ∧
      keepsBut (.dm :: onRaise) s t) ∧
  (∀ (s : State) (c : MbCmd) (e : RestartEnv), mbReady s.mx c → mbCmd c = 0x31 → e.reads = [] →
    (∀ r, 256 ≤ r → r < 264 → (ring s.mx r).state = .disabled ∧ lockedDies s.mx r = []) → sysW s.mx 8 = none → sysW s.mx 12 = none →
    ∃ t, exec (.restart e) s = .next t ∧ t.mx.dm.restarts = satInc s.mx.dm.restarts 0xFFFF ∧
      t.mx.dm.upd = none ∧ t.mx.dm.acc = none ∧ resvOf t.mx .dome = none ∧
      (e.runs = true → t.mx.dm.boot = 1) ∧
      (t.mx.dm.boot = 1 → t.mx.dm.cmds = [] ∧ t.mx.dm.rsp = replyWords c 0 (identWords t.mx) ∧
        t.mx.dm.doseAt = s.mx.md.time ∧ 291 ∈ t.mx.ic.pend) ∧
      (t.mx.dm.boot ≠ 1 → t.mx.dm.cmds = [c] ∧ t.mx.dm.doseAt = s.mx.dm.doseAt ∧ t.mx.dm.restarting = true) ∧
      (∀ r, r ∉ [256, 257, 258] → ring t.mx r = ring s.mx r) ∧
      keepsBut (.dm :: .sg :: .sb :: .qe :: onRaise) s t) ∧
  (∀ (s : State) (c : MbCmd) (e : RestartEnv), s.mx.dm.cmds = [c] → c.i3c = false → domeRuns s.mx = true → e.runs = true →
    e.reads = [] → (∀ r, 256 ≤ r → r < 264 → (ring s.mx r).state = .disabled ∧ lockedDies s.mx r = []) →
    sysW s.mx 8 = none → sysW s.mx 12 = none →
    ∃ t, exec (.domeWatchdog e) s = .next t ∧ t.mx.dm.restarts = satInc s.mx.dm.restarts 0xFFFF ∧ t.mx.dm.boot = 1 ∧
      t.mx.dm.cmds = [] ∧ t.mx.dm.rsp = replyWords c 9 [] ∧ t.mx.dm.fuse = none ∧ t.mx.dm.updOwed = none ∧
      t.mx.dm.upd = none ∧ t.mx.dm.acc = none ∧ resvOf t.mx .dome = none ∧
      t.mx.dm.doseAt = s.mx.md.time ∧ 291 ∈ t.mx.ic.pend ∧ (∀ r, r ∉ [256, 257, 258] → ring t.mx r = ring s.mx r) ∧
      keepsBut (.dm :: .sg :: .sb :: .qe :: onRaise) s t) ∧
  (∀ (s : State) (e : RestartEnv), domeRuns s.mx = false → exec (.domeWatchdog e) s = .next s) ∧
  (∀ (s : State) (r : Nat), 256 ≤ r → r ≤ 258 → 4 ≤ ringSize s.mx r → ringSize s.mx r ≤ 16 → (ring s.mx r).state = .disabled →
    (ring (enableOwn s.mx) r).state = .active) ∧
  (∀ (s : State) (op : FuseOp) (data : Word), s.mx.dm.fuse = some op → op.wr = true →
    ∃ t, exec (.fuseAck data false) s = .next t ∧ t.mx.dm = { s.mx.dm with fuse := some { op with wr := false } } ∧
      keepsBut [.dm] s t) ∧
  (∀ (s : State) (op : FuseOp) (data : Word), s.mx.dm.fuse = some op → op.wr = false → op.goal ≠ 0 →
    data = (fuseWord s.mx.dm.fuses op.word ||| op.data) → op.word < 3 → 32 * (op.word + 1) < op.goal →
    ∃ t, exec (.fuseAck data false) s = .next t ∧
      t.mx.dm = { s.mx.dm with
        fuses := setFuseWord s.mx.dm.fuses op.word data,
        fuse := some { op with wr := true, word := op.word + 1, data := fuseGoal op.goal (op.word + 1) } } ∧
      keepsBut [.dm] s t) ∧
  (∀ (s : State) (op : FuseOp) (c : MbCmd), s.mx.dm.fuse = some op → s.mx.dm.cmds = [c] → c.i3c = false →
    ∃ t, exec .fuseTmo s = .next t ∧
      t.mx.dm = { s.mx.dm with fuse := none, cmds := [], rsp := replyWords c 7 [], mbDone := true,
                               fuseok := s.mx.dm.fuseok && op.wr } ∧
      295 ∈ t.mx.ic.pend ∧ 291 ∈ t.mx.ic.pend ∧ keepsBut (.dm :: onRaise) s t) ∧
  (∀ (s : State) (n : Nat) (mv : Int), n < 16 → supplyOk s.mx n mv = true →
    let g := if 5 ≤ n ∧ n ≤ 12 then (sensor s.mx (32 + n)).turn else 0
    ∃ t, exec (.voltageSample n mv) s = .next t ∧ (sensor t.mx (32 + n)).cur = mv ∧
      (∀ x, x ∈ (sensor t.mx (32 + n)).outs ↔ x ∈ (sensor s.mx (32 + n)).outs ∧ x ≠ g) ∧
      (∀ x, x ∈ (sensor t.mx (32 + n)).warns ↔ x ∈ (sensor s.mx (32 + n)).warns ∧ x ≠ g) ∧
      (sensor t.mx (32 + n)).turn = ((sensor s.mx (32 + n)).turn + 1) % 4 ∧
      (∀ x, x ≠ 32 + n → sensor t.mx x = sensor s.mx x) ∧ keepsBut [.dm] s t) ∧
  (∀ (s : State) (n : Nat) (mv : Int), n < 16 → supplyOk s.mx n mv = false → domeRuns s.mx = true →
    let g := if 5 ≤ n ∧ n ≤ 12 then (sensor s.mx (32 + n)).turn else 0
    g ∈ (sensor s.mx (32 + n)).outs → g ∉ (sensor s.mx (32 + n)).warns →
    ∃ t, exec (.voltageSample n mv) s = .next t ∧ (sensor t.mx (32 + n)).cur = mv ∧
      (∀ x, x ∈ (sensor t.mx (32 + n)).outs ↔ x ∈ (sensor s.mx (32 + n)).outs) ∧
      (∀ x, x ∈ (sensor t.mx (32 + n)).warns ↔ x = g ∨ x ∈ (sensor s.mx (32 + n)).warns) ∧ 293 ∈ t.mx.ic.pend ∧
      (∀ x, x ≠ 32 + n → sensor t.mx x = sensor s.mx x) ∧ keepsBut (.dm :: onRaise) s t) ∧
  (∀ (s : State) (p : Nat) (v : Int), p < 64 → domeRuns s.mx = true → pkgPresent s.mx p = true → pkgCalls s.mx p = true →
    (4 * (fld (reg s.mx (doOff 0x98)) 7 0 : Int) ≤ v → (sensor s.mx (64 + p)).warned = false) →
    ∃ t, exec (.packageTemp p (some v)) s = .next t ∧ (sensor t.mx (64 + p)).cur = v ∧
      (sensor t.mx (64 + p)).valid = true ∧
      (4 * (fld (reg s.mx (doOff 0x98)) 7 0 : Int) ≤ v →
        (sensor t.mx (64 + p)).warned = true ∧ 292 ∈ t.mx.ic.pend) ∧
      (∀ x, x ≠ 64 + p → sensor t.mx x = sensor s.mx x) ∧ keepsBut (.dm :: onRaise) s t) ∧
  (∀ (s : State) (p : Nat) (v : Option Int), p < 64 → domeRuns s.mx = true → pkgPresent s.mx p = true →
    (v = none ∨ pkgCalls s.mx p = false) →
    ∃ t, exec (.packageTemp p v) s = .next t ∧
      sensor t.mx (64 + p) = { sensor s.mx (64 + p) with valid := false } ∧
      (∀ x, x ≠ 64 + p → sensor t.mx x = sensor s.mx x) ∧ keepsBut [.dm] s t) ∧
  (∀ s : State, domeRuns s.mx = true →
    let big := s.mx.dm.stepped.filter (fun d => decide (fld (reg s.mx (doOff 0x90)) 15 0 * 3600000000000 < d))
    let n := s.mx.dm.doseF + (s.mx.md.time - s.mx.dm.doseAt - big.foldl (· + ·) 0) * s.mx.dm.factor / (3600000000000 * 2 ^ 32)
    ∃ t, exec .doseIntegration s = .next t ∧ t.mx.dm.doseAt = s.mx.md.time ∧ t.mx.dm.doseF < 2 ^ 32 ∧
      t.mx.dm.stepped = [] ∧ t.mx.dm.gap = (s.mx.dm.gap || decide (big ≠ [])) ∧
      (2 ^ 32 * s.mx.dm.dose + n < 2 ^ 96 → 2 ^ 32 * t.mx.dm.dose + t.mx.dm.doseF = 2 ^ 32 * s.mx.dm.dose + n) ∧
      t.mx.dm.factor = doseFactor s.mx ∧
      (t.mx.dm.dose ≠ s.mx.dm.dose → t.mx.sg.dose = t.mx.dm.dose) ∧ keepsBut [.dm, .sg, .nl] s t) ∧
  (∀ (s : State) (op : FuseOp) (data : Word), s.mx.dm.fuse = some op → op.wr = false → op.goal = 0 → op.word < 3 →
    ∃ t, exec (.fuseAck data false) s = .next t ∧
      t.mx.dm = { s.mx.dm with fuses := setFuseWord s.mx.dm.fuses op.word data,
                               fuse := some { op with word := op.word + 1 } } ∧ keepsBut [.dm] s t) ∧
  (∀ (s : State) (op : FuseOp) (c : MbCmd) (data : Word), s.mx.dm.fuse = some op → s.mx.dm.cmds = [c] → c.i3c = false →
    op.wr = false → op.goal ≠ 0 → (op.word = 3 ∨ op.goal ≤ 32 * (op.word + 1)) →
    let ok := data == (fuseWord s.mx.dm.fuses op.word ||| op.data)
    let f := setFuseWord s.mx.dm.fuses op.word data
    ∃ t, exec (.fuseAck data false) s = .next t ∧
      t.mx.dm = { s.mx.dm with
        fuses := f, fuse := none, cmds := [], mbDone := true,
        rsp := (if ok then replyWords c 0 [(1, op.old), (2, ((List.range 128).filter (fun i => f.getLsbD i)).length)]
                else replyWords c 7 []) } ∧
      291 ∈ t.mx.ic.pend ∧ keepsBut (.dm :: onRaise) s t) ∧
  (∀ (s : State) (op : FuseOp) (c : MbCmd) (data : Word), s.mx.dm.fuse = some op → s.mx.dm.cmds = [c] → c.i3c = false →
    ∃ t, exec (.fuseAck data true) s = .next t ∧
      t.mx.dm = { s.mx.dm with fuse := none, cmds := [], rsp := replyWords c 7 [], mbDone := true,
                               fuseok := s.mx.dm.fuseok && op.wr } ∧
      291 ∈ t.mx.ic.pend ∧ keepsBut (.dm :: onRaise) s t) ∧
  (∀ (s : State) (data : Word) (err : Bool) (i : Instr), s.mx.dm.fuse = none → (i = .fuseAck data err ∨ i = .fuseTmo) →
    exec i s = .next s) ∧
  (∀ (s : State) (n : Nat) (mv : Int), n < 16 → supplyOk s.mx n mv = false →
    let g := if 5 ≤ n ∧ n ≤ 12 then (sensor s.mx (32 + n)).turn else 0
    (g ∉ (sensor s.mx (32 + n)).outs ∨ g ∈ (sensor s.mx (32 + n)).warns) →
    ∃ t, exec (.voltageSample n mv) s = .next t ∧ (sensor t.mx (32 + n)).cur = mv ∧
      (∀ x, x ∈ (sensor t.mx (32 + n)).outs ↔ x = g ∨ x ∈ (sensor s.mx (32 + n)).outs) ∧
      (sensor t.mx (32 + n)).warns = (sensor s.mx (32 + n)).warns ∧
      (∀ x, x ≠ 32 + n → sensor t.mx x = sensor s.mx x) ∧ keepsBut [.dm] s t) ∧
  (∀ (s : State) (n : Nat) (mv : Int), 16 ≤ n → exec (.voltageSample n mv) s = .next s) ∧
  (∀ (s : State) (p : Nat) (v : Option Int), (64 ≤ p ∨ domeRuns s.mx = false ∨ pkgPresent s.mx p = false) →
    exec (.packageTemp p v) s = .next s) ∧
  (∀ s : State, domeRuns s.mx = false → exec .doseIntegration s = .next s) ∧
  (∀ (ea : Nat) (temp : Int) (x : Nat), arrheniusAt ea temp = some x →
    x - x * 5 / 10000 ≤ arrhenius ea temp ∧ arrhenius ea temp ≤ x + x * 5 / 10000)

/-- 14_dome_nightlog.md R518 to R521: the next record of the queue takes the next SEQ, or merges into the newest; an ALERT
record raises NL_ALERT (296); in a full array it takes the place of a victim, or is dropped and counted; and a host
record joins the queue with origin HOST. Nothing is taken from an empty queue. 14_dome_nightlog.md R522, R524 to R528:
the cursor shows the record at or above it, and moves past it; a segment takes the oldest records not yet persisted
and its first copy begins, in the next block with an erase and a legend where one is due; they are persisted once that
copy has passed, and the other follows; a copy that fails ends it with NL_PERSIST (297). Of the headers read at a
start, the newest block's is the legend of the highest SSEQ, and the newest segment the one of the highest SSEQ in it.
Nothing is persisted where none is due, named or unpersisted, and no copy ends that has not. -/
def Obligations.NightLog : Prop :=
  (∀ (s : State) (a : Arrival) (q : List Arrival), s.mx.nl.queue = a :: q → s.mx.nl.recs.length < 2039 → a.sev < 4 →
    (∀ r, s.mx.nl.recs.getLast? = some r → merges s.mx r a = false) →
    ∃ t, exec .nightLogRecord s = .next t ∧
      t.mx.nl = { s.mx.nl with
        queue := q, recs := s.mx.nl.recs ++ [{ seq := s.mx.nl.next, arr := a }], next := (s.mx.nl.next + 1) % 2 ^ 32 } ∧
      keepsBut [.nl] s t) ∧
  (∀ (s : State) (a : Arrival) (q : List Arrival), s.mx.nl.queue = a :: q → s.mx.nl.recs.length < 2039 → 4 ≤ a.sev →
    (∀ r, s.mx.nl.recs.getLast? = some r → merges s.mx r a = false) →
    ∃ t, exec .nightLogRecord s = .next t ∧ t.mx.nl.recs = s.mx.nl.recs ++ [{ seq := s.mx.nl.next, arr := a }] ∧
      t.mx.nl.next = (s.mx.nl.next + 1) % 2 ^ 32 ∧ t.mx.nl.alertDue = true ∧ 296 ∈ t.mx.ic.pend ∧
      keepsBut onRaise s t) ∧
  (∀ (s : State) (a : Arrival) (q : List Arrival) (r : NlRec), s.mx.nl.queue = a :: q → s.mx.nl.recs.length < 2040 →
    s.mx.nl.recs.getLast? = some r → merges s.mx r a = true →
    ∃ t, exec .nightLogRecord s = .next t ∧
      t.mx.nl = { s.mx.nl with
        queue := q, recs := s.mx.nl.recs.dropLast ++ [{ r with rep := satInc r.rep 0xFFFF }] } ∧ keepsBut [.nl] s t) ∧
  (∀ s : State, carried s (nlOff 0x70) → fld (nlReg s.mx 0x60) 18 16 < 4 → s.mx.nl.queue.length < 256 →
    let h := nlReg s.mx 0x60
    let a : Arrival :=
      { time := s.mx.md.time, code := BitVec.ofNat 16 (32 * 1024 + fld h 9 0), sev := fld h 18 16,
        fmt := BitVec.ofNat 8 (fld h 31 24), p0 := nlReg s.mx 0x64, p1 := nlReg s.mx 0x68, p2 := nlReg s.mx 0x6C }
    ∃ t, exec .hctrlGo s = .next t ∧ t.mx.nl = { s.mx.nl with queue := s.mx.nl.queue ++ [a] } ∧
      keepsBut [.nl, .cp] s t) ∧
  (∀ s : State, carried s (nlOff 0x70) → 4 ≤ fld (nlReg s.mx 0x60) 18 16 →
    ∃ t, exec .hctrlGo s = .next t ∧ t.mx.cp = { s.mx.cp with err := false } ∧
      t.mx.nl = (log s.mx .hrecRefused (fld (nlReg s.mx 0x60) 18 16)).nl ∧ keepsBut [.nl, .cp] s t) ∧
  (∀ s : State, s.mx.nl.queue = [] → exec .nightLogRecord s = .next s) ∧
  (∀ (s : State) (a : Arrival) (q : List Arrival), s.mx.nl.queue = a :: q → s.mx.nl.recs.length = 32768 → s.mx.nl.seg ≠ none →
    a.sev < 4 → (∀ r, s.mx.nl.recs.getLast? = some r → merges s.mx r a = false) →
    ∃ t, exec .nightLogRecord s = .next t ∧
      t.mx.nl = (victim s.mx.nl.recs a.sev).elim
        { s.mx.nl with queue := q, drops := satInc s.mx.nl.drops 0xFFFFFFFF, dropsNew := s.mx.nl.dropsNew + 1,
                       dropSev := max s.mx.nl.dropSev a.sev }
        (fun v => { s.mx.nl with
            queue := q, next := (s.mx.nl.next + 1) % 2 ^ 32,
            recs := s.mx.nl.recs.filter (fun r => r.seq != v) ++ [{ seq := s.mx.nl.next, arr := a }] }) ∧ keepsBut [.nl] s t) ∧
  (∀ (s : State) (r : NlRec), carried s (nlOff 0x20) → atCursor s.mx = some r →
    let n := seqAbove (nlReg s.mx 0x10).toNat r.seq
    ∃ t, exec .rec0Read s = .next t ∧ t.mx.nl = { s.mx.nl with
        cap := recBytes r, capSeq := some r.seq, cres := if n = 0 then 1 else 2, lostn := min n 0xFFFF } ∧
      t.mx.cp = { s.mx.cp with err := false, rdata := word (leAt (recBytes r) 0 4) } ∧ keepsBut [.nl, .cp] s t) ∧
  (∀ s : State, carried s (nlOff 0x20) → atCursor s.mx = none →
    ∃ t, exec .rec0Read s = .next t ∧ t.mx.nl = { s.mx.nl with cap := [], capSeq := none, cres := 3, lostn := 0 } ∧
      t.mx.cp = { s.mx.cp with err := false, rdata := 0 } ∧ keepsBut [.nl, .cp] s t) ∧
  (∀ (s : State) (q : Nat), carried s (nlOff 0x3C) → s.mx.nl.capSeq = some q →
    ∃ t, exec .rec7Read s = .next t ∧ t.mx.cp = { s.mx.cp with err := false, rdata := word (leAt s.mx.nl.cap 28 4) } ∧
      nlReg t.mx 0x10 = word (q + 1) ∧ (∀ o, o ≠ nlOff 0x10 → reg t.mx o = reg s.mx o) ∧ keepsBut [.regs, .cp] s t) ∧
  (∀ s : State, carried s (nlOff 0x3C) → s.mx.nl.capSeq = none →
    ∃ t, exec .rec7Read s = .next t ∧ t.mx.cp = { s.mx.cp with err := false, rdata := word (leAt s.mx.nl.cap 28 4) } ∧
      keepsBut [.cp] s t) ∧
  (∀ (s : State) (c : Instr), domeRuns s.mx = true → logValid s.mx = true → unpersisted s.mx ≠ [] → s.mx.nl.page ≠ 0 →
    s.mx.nl.page < ppb s.mx (logDie s.mx false) → s.mx.nl.page < ppb s.mx (logDie s.mx true) →
    (c = .persist ∧ carried s (nlOff 0x50) ∨ c = .persistPeriod ∧ fld (nlReg s.mx 0x4C) 15 0 ≠ 0 ∨
     c = .alertPersist ∧ s.mx.nl.alertDue = true) →
    let taken := (unpersisted s.mx).take (2040 - s.mx.nl.carry.length)
    let seqs := taken.map (·.seq)
    let image := segImage s.mx (s.mx.nl.sseq + 1) s.mx.nl.carry taken
    let d := logDie s.mx false
    let row := (nlReg s.mx 0x44).toNat + s.mx.nl.blk * 2 ^ pgBits s.mx d
    ∃ t, exec c s = .next t ∧
      (s.mx.nl.seg = none →
        t.mx.nl = { s.mx.nl with
          recs := s.mx.nl.recs.map (fun r => if seqs.contains r.seq then { r with closed := true } else r),
          seg := some { sseq := s.mx.nl.sseq + 1, seqs := seqs, page := s.mx.nl.page, image := image },
          sseq := s.mx.nl.sseq + 1, due := false,
          alertDue := ((unpersisted s.mx).drop (2040 - s.mx.nl.carry.length)).any (fun r => decide (4 ≤ r.arr.sev)) } ∧
        sysW t.mx 8 = some {
          die := d,
          ops := (if s.mx.nl.fresh.1 then [(row, .erase), (row, .bytes (legendImage s.mx s.mx.nl.sseq))] else []) ++
                 [(row + s.mx.nl.page, .bytes image)] } ∧
        (ent t.mx (sysEid 8)).isSome = true) ∧
      (s.mx.nl.seg ≠ none → t.mx.nl = { s.mx.nl with due := true } ∧ t.mx.wr = s.mx.wr ∧ t.mx.ents = s.mx.ents) ∧
      (∀ k, k ≠ 8 → sysW t.mx k = sysW s.mx k) ∧ keepsBut [.nl, .cp, .wr, .ents, .sb, .die] s t) ∧
  (∀ (s : State) (g : NlSeg) (w : SysW) (x : Nat), s.mx.nl.seg = some g → g.copyB = false → sysW s.mx 8 = some w →
    w.ended = some (0, x) →
    let d := logDie s.mx true
    let row := (nlReg s.mx 0x44).toNat + s.mx.nl.blk * 2 ^ pgBits s.mx d
    ∃ t, exec (.segmentCopyDone .held .held) s = .next t ∧
      t.mx.nl.recs = s.mx.nl.recs.map (fun r => if g.seqs.contains r.seq then { r with persisted := true } else r) ∧
      t.mx.nl.seg = some { g with copyB := true, image := copyBImage g.image } ∧ t.mx.nl.page = s.mx.nl.page + 1 ∧
      t.mx.nl.fresh = (false, s.mx.nl.fresh.2) ∧ t.mx.nl.carry = [] ∧ t.mx.nl.blk = s.mx.nl.blk ∧
      tabGet [] t.mx.nl.alerts s.mx.nl.blk = tabGet [] s.mx.nl.alerts s.mx.nl.blk ++ s.mx.nl.carry ++
        s.mx.nl.recs.filter (fun r => g.seqs.contains r.seq && decide (4 ≤ r.arr.sev)) ∧
      (sysW t.mx 8).map (fun y => (y.die, y.ops.map (·.1), y.ops.getLast?.map (·.2))) =
        some (d, (if s.mx.nl.fresh.2 then [row, row] else []) ++ [row + g.page], some (.bytes (copyBImage g.image))) ∧
      (∀ k, k ≠ 8 → sysW t.mx k = sysW s.mx k) ∧ keepsBut [.nl, .wr, .ents, .sb, .die] s t) ∧
  (∀ (s : State) (g : NlSeg) (w : SysW) (x : Nat), s.mx.nl.seg = some g → g.copyB = true → s.mx.nl.due = false →
    s.mx.nl.dropsNew = 0 → s.mx.nl.recs.length < 2040 → sysW s.mx 8 = some w → w.ended = some (0, x) →
    ∃ t, exec (.segmentCopyDone .held .held) s = .next t ∧
      t.mx.nl = { s.mx.nl with seg := none, fresh := (s.mx.nl.fresh.1, false) } ∧ sysW t.mx 8 = none ∧
      (∀ k, k ≠ 8 → sysW t.mx k = sysW s.mx k) ∧ keepsBut [.nl, .wr] s t) ∧
  (∀ (s : State) (g : NlSeg) (w : SysW) (st x : Nat), s.mx.nl.seg = some g → s.mx.nl.due = false →
    s.mx.nl.recs.length < 2040 → sysW s.mx 8 = some w → w.ended = some (st, x) → st ≠ 0 →
    ∃ t, exec (.segmentCopyDone .held .held) s = .next t ∧ t.mx.nl.pfail = true ∧ t.mx.nl.seg = none ∧
      t.mx.nl.recs = s.mx.nl.recs ∧ t.mx.nl.page = s.mx.nl.page + (if g.copyB then 0 else 1) ∧ sysW t.mx 8 = none ∧
      297 ∈ t.mx.ic.pend ∧ keepsBut (.wr :: onRaise) s t) ∧
  (∀ (s : State) (a b : Told), (s.mx.nl.seg = none ∨ (sysW s.mx 8).bind (·.ended) = none) →
    exec (.segmentCopyDone a b) s = .next s) ∧
  (∀ (s : State) (c : Instr), domeRuns s.mx = true → logValid s.mx = true → unpersisted s.mx ≠ [] → s.mx.nl.seg = none →
    (s.mx.nl.page = 0 ∨ ppb s.mx (logDie s.mx false) ≤ s.mx.nl.page ∨ ppb s.mx (logDie s.mx true) ≤ s.mx.nl.page) →
    (c = .persist ∧ carried s (nlOff 0x50) ∨ c = .persistPeriod ∧ fld (nlReg s.mx 0x4C) 15 0 ≠ 0 ∨
     c = .alertPersist ∧ s.mx.nl.alertDue = true) →
    let blk := if s.mx.nl.page = 0 then s.mx.nl.blk else (s.mx.nl.blk + 1) % max 1 (fld (nlReg s.mx 0x48) 11 0)
    let old := tabGet [] s.mx.nl.alerts blk
    let row := (nlReg s.mx 0x44).toNat + blk * 2 ^ pgBits s.mx (logDie s.mx false)
    ∃ t, exec c s = .next t ∧ t.mx.nl.blk = blk ∧ t.mx.nl.page = 1 ∧ t.mx.nl.fresh = (true, true) ∧
      t.mx.nl.sseq = s.mx.nl.sseq + 2 ∧ tabGet [] t.mx.nl.alerts blk = [] ∧
      t.mx.nl.carry = (old.drop (old.length - 2040)).map (fun r => { r with carried := true }) ∧
      t.mx.nl.seg.map (fun g => (g.sseq, g.page, g.copyB)) = some (s.mx.nl.sseq + 2, 1, false) ∧
      (sysW t.mx 8).map (fun y => (y.die, y.ops.map (·.1))) = some (logDie s.mx false, [row, row, row + 1]) ∧
      ent t.mx (sysEid 8) = some (sysEnt (logDie s.mx false) row 3 .placed) ∧
      keepsBut [.nl, .cp, .wr, .ents, .sb, .die] s t) ∧
  (∀ (s : State) (c : Instr),
    (c = .persistPeriod ∧ (domeRuns s.mx = false ∨ logValid s.mx = false ∨ unpersisted s.mx = [] ∨ fld (nlReg s.mx 0x4C) 15 0 = 0) ∨
     c = .alertPersist ∧ (domeRuns s.mx = false ∨ logValid s.mx = false ∨ unpersisted s.mx = [] ∨ s.mx.nl.alertDue = false)) →
    exec c s = .next s) ∧
  (∀ (s : State), carried s (nlOff 0x50) → (domeRuns s.mx = false ∨ logValid s.mx = false ∨ unpersisted s.mx = []) →
    ∃ t, exec .persist s = .next t ∧ t.mx.cp = { s.mx.cp with err := false } ∧ keepsBut [.cp] s t) ∧
  (∀ (l : List SegRead) (g : SegRead), newestSeg l = some g → ∃ b ∈ l, headGood b = true ∧ (leAt b.bytes 6 1).testBit 1 = true ∧
    g ∈ l ∧ headGood g = true ∧ g.blk = b.blk ∧
    (∀ x ∈ l, headGood x = true → (leAt x.bytes 6 1).testBit 1 = true → segSseq x ≤ segSseq b) ∧
    (∀ x ∈ l, headGood x = true → x.blk = b.blk → segSseq x ≤ segSseq g))
end

