-- ==== Sys2Proof/Laws/State.lean ====
section
/-! SUPPORT. What each update of the state leaves: one lemma for each field and update, so that no proof unfolds a record,
and what a table gives after one of its entries has been set. -/

namespace Sys2Proof.Machine

@[simp] theorem setReg_gl (m : Mx) (off : Nat) (v : Word) : (setReg m off v).gl = m.gl := rfl
@[simp] theorem setReg_cp (m : Mx) (off : Nat) (v : Word) : (setReg m off v).cp = m.cp := rfl
@[simp] theorem setReg_hp (m : Mx) (off : Nat) (v : Word) : (setReg m off v).hp = m.hp := rfl
@[simp] theorem setReg_qe (m : Mx) (off : Nat) (v : Word) : (setReg m off v).qe = m.qe := rfl
@[simp] theorem setReg_ents (m : Mx) (off : Nat) (v : Word) : (setReg m off v).ents = m.ents := rfl
@[simp] theorem setReg_dx (m : Mx) (off : Nat) (v : Word) : (setReg m off v).dx = m.dx := rfl
@[simp] theorem setReg_sb (m : Mx) (off : Nat) (v : Word) : (setReg m off v).sb = m.sb := rfl
@[simp] theorem setReg_ch (m : Mx) (off : Nat) (v : Word) : (setReg m off v).ch = m.ch := rfl
@[simp] theorem setReg_die (m : Mx) (off : Nat) (v : Word) : (setReg m off v).die = m.die := rfl
@[simp] theorem setReg_mc (m : Mx) (off : Nat) (v : Word) : (setReg m off v).mc = m.mc := rfl
@[simp] theorem setReg_ph (m : Mx) (off : Nat) (v : Word) : (setReg m off v).ph = m.ph := rfl
@[simp] theorem setReg_cx (m : Mx) (off : Nat) (v : Word) : (setReg m off v).cx = m.cx := rfl
@[simp] theorem setReg_sg (m : Mx) (off : Nat) (v : Word) : (setReg m off v).sg = m.sg := rfl
@[simp] theorem setReg_st (m : Mx) (off : Nat) (v : Word) : (setReg m off v).st = m.st := rfl
@[simp] theorem setReg_md (m : Mx) (off : Nat) (v : Word) : (setReg m off v).md = m.md := rfl
@[simp] theorem setReg_tr (m : Mx) (off : Nat) (v : Word) : (setReg m off v).tr = m.tr := rfl
@[simp] theorem setReg_ic (m : Mx) (off : Nat) (v : Word) : (setReg m off v).ic = m.ic := rfl
@[simp] theorem setReg_dm (m : Mx) (off : Nat) (v : Word) : (setReg m off v).dm = m.dm := rfl
@[simp] theorem setReg_nl (m : Mx) (off : Nat) (v : Word) : (setReg m off v).nl = m.nl := rfl
@[simp] theorem setReg_bt (m : Mx) (off : Nat) (v : Word) : (setReg m off v).bt = m.bt := rfl
@[simp] theorem setReg_wr (m : Mx) (off : Nat) (v : Word) : (setReg m off v).wr = m.wr := rfl
@[simp] theorem setReg_free (m : Mx) (off : Nat) (v : Word) : (setReg m off v).free = m.free := rfl

@[simp] theorem setPort_regs (m : Mx) (p : Nat) (v : Port) : (setPort m p v).regs = m.regs := rfl
@[simp] theorem setPort_gl (m : Mx) (p : Nat) (v : Port) : (setPort m p v).gl = m.gl := rfl
@[simp] theorem setPort_cp (m : Mx) (p : Nat) (v : Port) : (setPort m p v).cp = m.cp := rfl
@[simp] theorem setPort_qe (m : Mx) (p : Nat) (v : Port) : (setPort m p v).qe = m.qe := rfl
@[simp] theorem setPort_ents (m : Mx) (p : Nat) (v : Port) : (setPort m p v).ents = m.ents := rfl
@[simp] theorem setPort_dx (m : Mx) (p : Nat) (v : Port) : (setPort m p v).dx = m.dx := rfl
@[simp] theorem setPort_sb (m : Mx) (p : Nat) (v : Port) : (setPort m p v).sb = m.sb := rfl
@[simp] theorem setPort_ch (m : Mx) (p : Nat) (v : Port) : (setPort m p v).ch = m.ch := rfl
@[simp] theorem setPort_die (m : Mx) (p : Nat) (v : Port) : (setPort m p v).die = m.die := rfl
@[simp] theorem setPort_mc (m : Mx) (p : Nat) (v : Port) : (setPort m p v).mc = m.mc := rfl
@[simp] theorem setPort_ph (m : Mx) (p : Nat) (v : Port) : (setPort m p v).ph = m.ph := rfl
@[simp] theorem setPort_cx (m : Mx) (p : Nat) (v : Port) : (setPort m p v).cx = m.cx := rfl
@[simp] theorem setPort_sg (m : Mx) (p : Nat) (v : Port) : (setPort m p v).sg = m.sg := rfl
@[simp] theorem setPort_st (m : Mx) (p : Nat) (v : Port) : (setPort m p v).st = m.st := rfl
@[simp] theorem setPort_md (m : Mx) (p : Nat) (v : Port) : (setPort m p v).md = m.md := rfl
@[simp] theorem setPort_tr (m : Mx) (p : Nat) (v : Port) : (setPort m p v).tr = m.tr := rfl
@[simp] theorem setPort_ic (m : Mx) (p : Nat) (v : Port) : (setPort m p v).ic = m.ic := rfl
@[simp] theorem setPort_dm (m : Mx) (p : Nat) (v : Port) : (setPort m p v).dm = m.dm := rfl
@[simp] theorem setPort_nl (m : Mx) (p : Nat) (v : Port) : (setPort m p v).nl = m.nl := rfl
@[simp] theorem setPort_bt (m : Mx) (p : Nat) (v : Port) : (setPort m p v).bt = m.bt := rfl
@[simp] theorem setPort_wr (m : Mx) (p : Nat) (v : Port) : (setPort m p v).wr = m.wr := rfl
@[simp] theorem setPort_free (m : Mx) (p : Nat) (v : Port) : (setPort m p v).free = m.free := rfl

@[simp] theorem setRing_regs (m : Mx) (r : Nat) (v : Ring) : (setRing m r v).regs = m.regs := rfl
@[simp] theorem setRing_gl (m : Mx) (r : Nat) (v : Ring) : (setRing m r v).gl = m.gl := rfl
@[simp] theorem setRing_cp (m : Mx) (r : Nat) (v : Ring) : (setRing m r v).cp = m.cp := rfl
@[simp] theorem setRing_hp (m : Mx) (r : Nat) (v : Ring) : (setRing m r v).hp = m.hp := rfl
@[simp] theorem setRing_ents (m : Mx) (r : Nat) (v : Ring) : (setRing m r v).ents = m.ents := rfl
@[simp] theorem setRing_dx (m : Mx) (r : Nat) (v : Ring) : (setRing m r v).dx = m.dx := rfl
@[simp] theorem setRing_sb (m : Mx) (r : Nat) (v : Ring) : (setRing m r v).sb = m.sb := rfl
@[simp] theorem setRing_ch (m : Mx) (r : Nat) (v : Ring) : (setRing m r v).ch = m.ch := rfl
@[simp] theorem setRing_die (m : Mx) (r : Nat) (v : Ring) : (setRing m r v).die = m.die := rfl
@[simp] theorem setRing_mc (m : Mx) (r : Nat) (v : Ring) : (setRing m r v).mc = m.mc := rfl
@[simp] theorem setRing_ph (m : Mx) (r : Nat) (v : Ring) : (setRing m r v).ph = m.ph := rfl
@[simp] theorem setRing_cx (m : Mx) (r : Nat) (v : Ring) : (setRing m r v).cx = m.cx := rfl
@[simp] theorem setRing_sg (m : Mx) (r : Nat) (v : Ring) : (setRing m r v).sg = m.sg := rfl
@[simp] theorem setRing_st (m : Mx) (r : Nat) (v : Ring) : (setRing m r v).st = m.st := rfl
@[simp] theorem setRing_md (m : Mx) (r : Nat) (v : Ring) : (setRing m r v).md = m.md := rfl
@[simp] theorem setRing_tr (m : Mx) (r : Nat) (v : Ring) : (setRing m r v).tr = m.tr := rfl
@[simp] theorem setRing_ic (m : Mx) (r : Nat) (v : Ring) : (setRing m r v).ic = m.ic := rfl
@[simp] theorem setRing_dm (m : Mx) (r : Nat) (v : Ring) : (setRing m r v).dm = m.dm := rfl
@[simp] theorem setRing_nl (m : Mx) (r : Nat) (v : Ring) : (setRing m r v).nl = m.nl := rfl
@[simp] theorem setRing_bt (m : Mx) (r : Nat) (v : Ring) : (setRing m r v).bt = m.bt := rfl
@[simp] theorem setRing_wr (m : Mx) (r : Nat) (v : Ring) : (setRing m r v).wr = m.wr := rfl
@[simp] theorem setRing_free (m : Mx) (r : Nat) (v : Ring) : (setRing m r v).free = m.free := rfl

@[simp] theorem setNtc_regs (m : Mx) (g : Nat) (v : Ntc) : (setNtc m g v).regs = m.regs := rfl
@[simp] theorem setNtc_gl (m : Mx) (g : Nat) (v : Ntc) : (setNtc m g v).gl = m.gl := rfl
@[simp] theorem setNtc_cp (m : Mx) (g : Nat) (v : Ntc) : (setNtc m g v).cp = m.cp := rfl
@[simp] theorem setNtc_hp (m : Mx) (g : Nat) (v : Ntc) : (setNtc m g v).hp = m.hp := rfl
@[simp] theorem setNtc_ents (m : Mx) (g : Nat) (v : Ntc) : (setNtc m g v).ents = m.ents := rfl
@[simp] theorem setNtc_dx (m : Mx) (g : Nat) (v : Ntc) : (setNtc m g v).dx = m.dx := rfl
@[simp] theorem setNtc_sb (m : Mx) (g : Nat) (v : Ntc) : (setNtc m g v).sb = m.sb := rfl
@[simp] theorem setNtc_ch (m : Mx) (g : Nat) (v : Ntc) : (setNtc m g v).ch = m.ch := rfl
@[simp] theorem setNtc_die (m : Mx) (g : Nat) (v : Ntc) : (setNtc m g v).die = m.die := rfl
@[simp] theorem setNtc_mc (m : Mx) (g : Nat) (v : Ntc) : (setNtc m g v).mc = m.mc := rfl
@[simp] theorem setNtc_ph (m : Mx) (g : Nat) (v : Ntc) : (setNtc m g v).ph = m.ph := rfl
@[simp] theorem setNtc_cx (m : Mx) (g : Nat) (v : Ntc) : (setNtc m g v).cx = m.cx := rfl
@[simp] theorem setNtc_sg (m : Mx) (g : Nat) (v : Ntc) : (setNtc m g v).sg = m.sg := rfl
@[simp] theorem setNtc_st (m : Mx) (g : Nat) (v : Ntc) : (setNtc m g v).st = m.st := rfl
@[simp] theorem setNtc_md (m : Mx) (g : Nat) (v : Ntc) : (setNtc m g v).md = m.md := rfl
@[simp] theorem setNtc_tr (m : Mx) (g : Nat) (v : Ntc) : (setNtc m g v).tr = m.tr := rfl
@[simp] theorem setNtc_ic (m : Mx) (g : Nat) (v : Ntc) : (setNtc m g v).ic = m.ic := rfl
@[simp] theorem setNtc_dm (m : Mx) (g : Nat) (v : Ntc) : (setNtc m g v).dm = m.dm := rfl
@[simp] theorem setNtc_nl (m : Mx) (g : Nat) (v : Ntc) : (setNtc m g v).nl = m.nl := rfl
@[simp] theorem setNtc_bt (m : Mx) (g : Nat) (v : Ntc) : (setNtc m g v).bt = m.bt := rfl
@[simp] theorem setNtc_wr (m : Mx) (g : Nat) (v : Ntc) : (setNtc m g v).wr = m.wr := rfl
@[simp] theorem setNtc_free (m : Mx) (g : Nat) (v : Ntc) : (setNtc m g v).free = m.free := rfl

@[simp] theorem setEnt_regs (m : Mx) (e : Nat) (v : Ent) : (setEnt m e v).regs = m.regs := rfl
@[simp] theorem setEnt_gl (m : Mx) (e : Nat) (v : Ent) : (setEnt m e v).gl = m.gl := rfl
@[simp] theorem setEnt_cp (m : Mx) (e : Nat) (v : Ent) : (setEnt m e v).cp = m.cp := rfl
@[simp] theorem setEnt_hp (m : Mx) (e : Nat) (v : Ent) : (setEnt m e v).hp = m.hp := rfl
@[simp] theorem setEnt_qe (m : Mx) (e : Nat) (v : Ent) : (setEnt m e v).qe = m.qe := rfl
@[simp] theorem setEnt_dx (m : Mx) (e : Nat) (v : Ent) : (setEnt m e v).dx = m.dx := rfl
@[simp] theorem setEnt_sb (m : Mx) (e : Nat) (v : Ent) : (setEnt m e v).sb = m.sb := rfl
@[simp] theorem setEnt_ch (m : Mx) (e : Nat) (v : Ent) : (setEnt m e v).ch = m.ch := rfl
@[simp] theorem setEnt_die (m : Mx) (e : Nat) (v : Ent) : (setEnt m e v).die = m.die := rfl
@[simp] theorem setEnt_mc (m : Mx) (e : Nat) (v : Ent) : (setEnt m e v).mc = m.mc := rfl
@[simp] theorem setEnt_ph (m : Mx) (e : Nat) (v : Ent) : (setEnt m e v).ph = m.ph := rfl
@[simp] theorem setEnt_cx (m : Mx) (e : Nat) (v : Ent) : (setEnt m e v).cx = m.cx := rfl
@[simp] theorem setEnt_sg (m : Mx) (e : Nat) (v : Ent) : (setEnt m e v).sg = m.sg := rfl
@[simp] theorem setEnt_st (m : Mx) (e : Nat) (v : Ent) : (setEnt m e v).st = m.st := rfl
@[simp] theorem setEnt_md (m : Mx) (e : Nat) (v : Ent) : (setEnt m e v).md = m.md := rfl
@[simp] theorem setEnt_tr (m : Mx) (e : Nat) (v : Ent) : (setEnt m e v).tr = m.tr := rfl
@[simp] theorem setEnt_ic (m : Mx) (e : Nat) (v : Ent) : (setEnt m e v).ic = m.ic := rfl
@[simp] theorem setEnt_dm (m : Mx) (e : Nat) (v : Ent) : (setEnt m e v).dm = m.dm := rfl
@[simp] theorem setEnt_nl (m : Mx) (e : Nat) (v : Ent) : (setEnt m e v).nl = m.nl := rfl
@[simp] theorem setEnt_bt (m : Mx) (e : Nat) (v : Ent) : (setEnt m e v).bt = m.bt := rfl
@[simp] theorem setEnt_wr (m : Mx) (e : Nat) (v : Ent) : (setEnt m e v).wr = m.wr := rfl
@[simp] theorem setEnt_free (m : Mx) (e : Nat) (v : Ent) : (setEnt m e v).free = m.free := rfl

@[simp] theorem dropEnt_regs (m : Mx) (e : Nat) : (dropEnt m e).regs = m.regs := rfl
@[simp] theorem dropEnt_gl (m : Mx) (e : Nat) : (dropEnt m e).gl = m.gl := rfl
@[simp] theorem dropEnt_cp (m : Mx) (e : Nat) : (dropEnt m e).cp = m.cp := rfl
@[simp] theorem dropEnt_hp (m : Mx) (e : Nat) : (dropEnt m e).hp = m.hp := rfl
@[simp] theorem dropEnt_qe (m : Mx) (e : Nat) : (dropEnt m e).qe = m.qe := rfl
@[simp] theorem dropEnt_dx (m : Mx) (e : Nat) : (dropEnt m e).dx = m.dx := rfl
@[simp] theorem dropEnt_sb (m : Mx) (e : Nat) : (dropEnt m e).sb = m.sb := rfl
@[simp] theorem dropEnt_ch (m : Mx) (e : Nat) : (dropEnt m e).ch = m.ch := rfl
@[simp] theorem dropEnt_die (m : Mx) (e : Nat) : (dropEnt m e).die = m.die := rfl
@[simp] theorem dropEnt_mc (m : Mx) (e : Nat) : (dropEnt m e).mc = m.mc := rfl
@[simp] theorem dropEnt_ph (m : Mx) (e : Nat) : (dropEnt m e).ph = m.ph := rfl
@[simp] theorem dropEnt_cx (m : Mx) (e : Nat) : (dropEnt m e).cx = m.cx := rfl
@[simp] theorem dropEnt_sg (m : Mx) (e : Nat) : (dropEnt m e).sg = m.sg := rfl
@[simp] theorem dropEnt_st (m : Mx) (e : Nat) : (dropEnt m e).st = m.st := rfl
@[simp] theorem dropEnt_md (m : Mx) (e : Nat) : (dropEnt m e).md = m.md := rfl
@[simp] theorem dropEnt_tr (m : Mx) (e : Nat) : (dropEnt m e).tr = m.tr := rfl
@[simp] theorem dropEnt_ic (m : Mx) (e : Nat) : (dropEnt m e).ic = m.ic := rfl
@[simp] theorem dropEnt_dm (m : Mx) (e : Nat) : (dropEnt m e).dm = m.dm := rfl
@[simp] theorem dropEnt_nl (m : Mx) (e : Nat) : (dropEnt m e).nl = m.nl := rfl
@[simp] theorem dropEnt_bt (m : Mx) (e : Nat) : (dropEnt m e).bt = m.bt := rfl
@[simp] theorem dropEnt_wr (m : Mx) (e : Nat) : (dropEnt m e).wr = m.wr := rfl
@[simp] theorem dropEnt_free (m : Mx) (e : Nat) : (dropEnt m e).free = m.free := rfl

@[simp] theorem setEngine_regs (m : Mx) (e : Nat) (v : Engine) : (setEngine m e v).regs = m.regs := rfl
@[simp] theorem setEngine_gl (m : Mx) (e : Nat) (v : Engine) : (setEngine m e v).gl = m.gl := rfl
@[simp] theorem setEngine_cp (m : Mx) (e : Nat) (v : Engine) : (setEngine m e v).cp = m.cp := rfl
@[simp] theorem setEngine_hp (m : Mx) (e : Nat) (v : Engine) : (setEngine m e v).hp = m.hp := rfl
@[simp] theorem setEngine_qe (m : Mx) (e : Nat) (v : Engine) : (setEngine m e v).qe = m.qe := rfl
@[simp] theorem setEngine_ents (m : Mx) (e : Nat) (v : Engine) : (setEngine m e v).ents = m.ents := rfl
@[simp] theorem setEngine_sb (m : Mx) (e : Nat) (v : Engine) : (setEngine m e v).sb = m.sb := rfl
@[simp] theorem setEngine_ch (m : Mx) (e : Nat) (v : Engine) : (setEngine m e v).ch = m.ch := rfl
@[simp] theorem setEngine_die (m : Mx) (e : Nat) (v : Engine) : (setEngine m e v).die = m.die := rfl
@[simp] theorem setEngine_mc (m : Mx) (e : Nat) (v : Engine) : (setEngine m e v).mc = m.mc := rfl
@[simp] theorem setEngine_ph (m : Mx) (e : Nat) (v : Engine) : (setEngine m e v).ph = m.ph := rfl
@[simp] theorem setEngine_cx (m : Mx) (e : Nat) (v : Engine) : (setEngine m e v).cx = m.cx := rfl
@[simp] theorem setEngine_sg (m : Mx) (e : Nat) (v : Engine) : (setEngine m e v).sg = m.sg := rfl
@[simp] theorem setEngine_st (m : Mx) (e : Nat) (v : Engine) : (setEngine m e v).st = m.st := rfl
@[simp] theorem setEngine_md (m : Mx) (e : Nat) (v : Engine) : (setEngine m e v).md = m.md := rfl
@[simp] theorem setEngine_tr (m : Mx) (e : Nat) (v : Engine) : (setEngine m e v).tr = m.tr := rfl
@[simp] theorem setEngine_ic (m : Mx) (e : Nat) (v : Engine) : (setEngine m e v).ic = m.ic := rfl
@[simp] theorem setEngine_dm (m : Mx) (e : Nat) (v : Engine) : (setEngine m e v).dm = m.dm := rfl
@[simp] theorem setEngine_nl (m : Mx) (e : Nat) (v : Engine) : (setEngine m e v).nl = m.nl := rfl
@[simp] theorem setEngine_bt (m : Mx) (e : Nat) (v : Engine) : (setEngine m e v).bt = m.bt := rfl
@[simp] theorem setEngine_wr (m : Mx) (e : Nat) (v : Engine) : (setEngine m e v).wr = m.wr := rfl
@[simp] theorem setEngine_free (m : Mx) (e : Nat) (v : Engine) : (setEngine m e v).free = m.free := rfl

@[simp] theorem setTarget_regs (m : Mx) (t : Nat) (v : Target) : (setTarget m t v).regs = m.regs := rfl
@[simp] theorem setTarget_gl (m : Mx) (t : Nat) (v : Target) : (setTarget m t v).gl = m.gl := rfl
@[simp] theorem setTarget_cp (m : Mx) (t : Nat) (v : Target) : (setTarget m t v).cp = m.cp := rfl
@[simp] theorem setTarget_hp (m : Mx) (t : Nat) (v : Target) : (setTarget m t v).hp = m.hp := rfl
@[simp] theorem setTarget_qe (m : Mx) (t : Nat) (v : Target) : (setTarget m t v).qe = m.qe := rfl
@[simp] theorem setTarget_ents (m : Mx) (t : Nat) (v : Target) : (setTarget m t v).ents = m.ents := rfl
@[simp] theorem setTarget_dx (m : Mx) (t : Nat) (v : Target) : (setTarget m t v).dx = m.dx := rfl
@[simp] theorem setTarget_sb (m : Mx) (t : Nat) (v : Target) : (setTarget m t v).sb = m.sb := rfl
@[simp] theorem setTarget_ch (m : Mx) (t : Nat) (v : Target) : (setTarget m t v).ch = m.ch := rfl
@[simp] theorem setTarget_die (m : Mx) (t : Nat) (v : Target) : (setTarget m t v).die = m.die := rfl
@[simp] theorem setTarget_mc (m : Mx) (t : Nat) (v : Target) : (setTarget m t v).mc = m.mc := rfl
@[simp] theorem setTarget_ph (m : Mx) (t : Nat) (v : Target) : (setTarget m t v).ph = m.ph := rfl
@[simp] theorem setTarget_cx (m : Mx) (t : Nat) (v : Target) : (setTarget m t v).cx = m.cx := rfl
@[simp] theorem setTarget_sg (m : Mx) (t : Nat) (v : Target) : (setTarget m t v).sg = m.sg := rfl
@[simp] theorem setTarget_st (m : Mx) (t : Nat) (v : Target) : (setTarget m t v).st = m.st := rfl
@[simp] theorem setTarget_md (m : Mx) (t : Nat) (v : Target) : (setTarget m t v).md = m.md := rfl
@[simp] theorem setTarget_tr (m : Mx) (t : Nat) (v : Target) : (setTarget m t v).tr = m.tr := rfl
@[simp] theorem setTarget_dm (m : Mx) (t : Nat) (v : Target) : (setTarget m t v).dm = m.dm := rfl
@[simp] theorem setTarget_nl (m : Mx) (t : Nat) (v : Target) : (setTarget m t v).nl = m.nl := rfl
@[simp] theorem setTarget_bt (m : Mx) (t : Nat) (v : Target) : (setTarget m t v).bt = m.bt := rfl
@[simp] theorem setTarget_wr (m : Mx) (t : Nat) (v : Target) : (setTarget m t v).wr = m.wr := rfl
@[simp] theorem setTarget_free (m : Mx) (t : Nat) (v : Target) : (setTarget m t v).free = m.free := rfl

@[simp] theorem setChan_regs (m : Mx) (c : Nat) (v : Chan) : (setChan m c v).regs = m.regs := rfl
@[simp] theorem setChan_gl (m : Mx) (c : Nat) (v : Chan) : (setChan m c v).gl = m.gl := rfl
@[simp] theorem setChan_cp (m : Mx) (c : Nat) (v : Chan) : (setChan m c v).cp = m.cp := rfl
@[simp] theorem setChan_hp (m : Mx) (c : Nat) (v : Chan) : (setChan m c v).hp = m.hp := rfl
@[simp] theorem setChan_qe (m : Mx) (c : Nat) (v : Chan) : (setChan m c v).qe = m.qe := rfl
@[simp] theorem setChan_ents (m : Mx) (c : Nat) (v : Chan) : (setChan m c v).ents = m.ents := rfl
@[simp] theorem setChan_dx (m : Mx) (c : Nat) (v : Chan) : (setChan m c v).dx = m.dx := rfl
@[simp] theorem setChan_sb (m : Mx) (c : Nat) (v : Chan) : (setChan m c v).sb = m.sb := rfl
@[simp] theorem setChan_die (m : Mx) (c : Nat) (v : Chan) : (setChan m c v).die = m.die := rfl
@[simp] theorem setChan_mc (m : Mx) (c : Nat) (v : Chan) : (setChan m c v).mc = m.mc := rfl
@[simp] theorem setChan_ph (m : Mx) (c : Nat) (v : Chan) : (setChan m c v).ph = m.ph := rfl
@[simp] theorem setChan_cx (m : Mx) (c : Nat) (v : Chan) : (setChan m c v).cx = m.cx := rfl
@[simp] theorem setChan_sg (m : Mx) (c : Nat) (v : Chan) : (setChan m c v).sg = m.sg := rfl
@[simp] theorem setChan_st (m : Mx) (c : Nat) (v : Chan) : (setChan m c v).st = m.st := rfl
@[simp] theorem setChan_md (m : Mx) (c : Nat) (v : Chan) : (setChan m c v).md = m.md := rfl
@[simp] theorem setChan_tr (m : Mx) (c : Nat) (v : Chan) : (setChan m c v).tr = m.tr := rfl
@[simp] theorem setChan_ic (m : Mx) (c : Nat) (v : Chan) : (setChan m c v).ic = m.ic := rfl
@[simp] theorem setChan_dm (m : Mx) (c : Nat) (v : Chan) : (setChan m c v).dm = m.dm := rfl
@[simp] theorem setChan_nl (m : Mx) (c : Nat) (v : Chan) : (setChan m c v).nl = m.nl := rfl
@[simp] theorem setChan_bt (m : Mx) (c : Nat) (v : Chan) : (setChan m c v).bt = m.bt := rfl
@[simp] theorem setChan_wr (m : Mx) (c : Nat) (v : Chan) : (setChan m c v).wr = m.wr := rfl
@[simp] theorem setChan_free (m : Mx) (c : Nat) (v : Chan) : (setChan m c v).free = m.free := rfl

@[simp] theorem setDie_regs (m : Mx) (d : Nat) (v : Die) : (setDie m d v).regs = m.regs := rfl
@[simp] theorem setDie_gl (m : Mx) (d : Nat) (v : Die) : (setDie m d v).gl = m.gl := rfl
@[simp] theorem setDie_cp (m : Mx) (d : Nat) (v : Die) : (setDie m d v).cp = m.cp := rfl
@[simp] theorem setDie_hp (m : Mx) (d : Nat) (v : Die) : (setDie m d v).hp = m.hp := rfl
@[simp] theorem setDie_qe (m : Mx) (d : Nat) (v : Die) : (setDie m d v).qe = m.qe := rfl
@[simp] theorem setDie_ents (m : Mx) (d : Nat) (v : Die) : (setDie m d v).ents = m.ents := rfl
@[simp] theorem setDie_dx (m : Mx) (d : Nat) (v : Die) : (setDie m d v).dx = m.dx := rfl
@[simp] theorem setDie_sb (m : Mx) (d : Nat) (v : Die) : (setDie m d v).sb = m.sb := rfl
@[simp] theorem setDie_ch (m : Mx) (d : Nat) (v : Die) : (setDie m d v).ch = m.ch := rfl
@[simp] theorem setDie_mc (m : Mx) (d : Nat) (v : Die) : (setDie m d v).mc = m.mc := rfl
@[simp] theorem setDie_ph (m : Mx) (d : Nat) (v : Die) : (setDie m d v).ph = m.ph := rfl
@[simp] theorem setDie_cx (m : Mx) (d : Nat) (v : Die) : (setDie m d v).cx = m.cx := rfl
@[simp] theorem setDie_sg (m : Mx) (d : Nat) (v : Die) : (setDie m d v).sg = m.sg := rfl
@[simp] theorem setDie_st (m : Mx) (d : Nat) (v : Die) : (setDie m d v).st = m.st := rfl
@[simp] theorem setDie_md (m : Mx) (d : Nat) (v : Die) : (setDie m d v).md = m.md := rfl
@[simp] theorem setDie_tr (m : Mx) (d : Nat) (v : Die) : (setDie m d v).tr = m.tr := rfl
@[simp] theorem setDie_ic (m : Mx) (d : Nat) (v : Die) : (setDie m d v).ic = m.ic := rfl
@[simp] theorem setDie_dm (m : Mx) (d : Nat) (v : Die) : (setDie m d v).dm = m.dm := rfl
@[simp] theorem setDie_nl (m : Mx) (d : Nat) (v : Die) : (setDie m d v).nl = m.nl := rfl
@[simp] theorem setDie_bt (m : Mx) (d : Nat) (v : Die) : (setDie m d v).bt = m.bt := rfl
@[simp] theorem setDie_wr (m : Mx) (d : Nat) (v : Die) : (setDie m d v).wr = m.wr := rfl
@[simp] theorem setDie_free (m : Mx) (d : Nat) (v : Die) : (setDie m d v).free = m.free := rfl

@[simp] theorem setCluster_regs (m : Mx) (g : Nat) (v : Cluster) : (setCluster m g v).regs = m.regs := rfl
@[simp] theorem setCluster_gl (m : Mx) (g : Nat) (v : Cluster) : (setCluster m g v).gl = m.gl := rfl
@[simp] theorem setCluster_cp (m : Mx) (g : Nat) (v : Cluster) : (setCluster m g v).cp = m.cp := rfl
@[simp] theorem setCluster_hp (m : Mx) (g : Nat) (v : Cluster) : (setCluster m g v).hp = m.hp := rfl
@[simp] theorem setCluster_qe (m : Mx) (g : Nat) (v : Cluster) : (setCluster m g v).qe = m.qe := rfl
@[simp] theorem setCluster_ents (m : Mx) (g : Nat) (v : Cluster) : (setCluster m g v).ents = m.ents := rfl
@[simp] theorem setCluster_dx (m : Mx) (g : Nat) (v : Cluster) : (setCluster m g v).dx = m.dx := rfl
@[simp] theorem setCluster_sb (m : Mx) (g : Nat) (v : Cluster) : (setCluster m g v).sb = m.sb := rfl
@[simp] theorem setCluster_ch (m : Mx) (g : Nat) (v : Cluster) : (setCluster m g v).ch = m.ch := rfl
@[simp] theorem setCluster_die (m : Mx) (g : Nat) (v : Cluster) : (setCluster m g v).die = m.die := rfl
@[simp] theorem setCluster_ph (m : Mx) (g : Nat) (v : Cluster) : (setCluster m g v).ph = m.ph := rfl
@[simp] theorem setCluster_cx (m : Mx) (g : Nat) (v : Cluster) : (setCluster m g v).cx = m.cx := rfl
@[simp] theorem setCluster_sg (m : Mx) (g : Nat) (v : Cluster) : (setCluster m g v).sg = m.sg := rfl
@[simp] theorem setCluster_st (m : Mx) (g : Nat) (v : Cluster) : (setCluster m g v).st = m.st := rfl
@[simp] theorem setCluster_md (m : Mx) (g : Nat) (v : Cluster) : (setCluster m g v).md = m.md := rfl
@[simp] theorem setCluster_tr (m : Mx) (g : Nat) (v : Cluster) : (setCluster m g v).tr = m.tr := rfl
@[simp] theorem setCluster_ic (m : Mx) (g : Nat) (v : Cluster) : (setCluster m g v).ic = m.ic := rfl
@[simp] theorem setCluster_dm (m : Mx) (g : Nat) (v : Cluster) : (setCluster m g v).dm = m.dm := rfl
@[simp] theorem setCluster_nl (m : Mx) (g : Nat) (v : Cluster) : (setCluster m g v).nl = m.nl := rfl
@[simp] theorem setCluster_bt (m : Mx) (g : Nat) (v : Cluster) : (setCluster m g v).bt = m.bt := rfl
@[simp] theorem setCluster_wr (m : Mx) (g : Nat) (v : Cluster) : (setCluster m g v).wr = m.wr := rfl
@[simp] theorem setCluster_free (m : Mx) (g : Nat) (v : Cluster) : (setCluster m g v).free = m.free := rfl

@[simp] theorem setPhy_regs (m : Mx) (g : Nat) (v : Phy) : (setPhy m g v).regs = m.regs := rfl
@[simp] theorem setPhy_gl (m : Mx) (g : Nat) (v : Phy) : (setPhy m g v).gl = m.gl := rfl
@[simp] theorem setPhy_cp (m : Mx) (g : Nat) (v : Phy) : (setPhy m g v).cp = m.cp := rfl
@[simp] theorem setPhy_hp (m : Mx) (g : Nat) (v : Phy) : (setPhy m g v).hp = m.hp := rfl
@[simp] theorem setPhy_qe (m : Mx) (g : Nat) (v : Phy) : (setPhy m g v).qe = m.qe := rfl
@[simp] theorem setPhy_ents (m : Mx) (g : Nat) (v : Phy) : (setPhy m g v).ents = m.ents := rfl
@[simp] theorem setPhy_dx (m : Mx) (g : Nat) (v : Phy) : (setPhy m g v).dx = m.dx := rfl
@[simp] theorem setPhy_sb (m : Mx) (g : Nat) (v : Phy) : (setPhy m g v).sb = m.sb := rfl
@[simp] theorem setPhy_ch (m : Mx) (g : Nat) (v : Phy) : (setPhy m g v).ch = m.ch := rfl
@[simp] theorem setPhy_die (m : Mx) (g : Nat) (v : Phy) : (setPhy m g v).die = m.die := rfl
@[simp] theorem setPhy_mc (m : Mx) (g : Nat) (v : Phy) : (setPhy m g v).mc = m.mc := rfl
@[simp] theorem setPhy_cx (m : Mx) (g : Nat) (v : Phy) : (setPhy m g v).cx = m.cx := rfl
@[simp] theorem setPhy_sg (m : Mx) (g : Nat) (v : Phy) : (setPhy m g v).sg = m.sg := rfl
@[simp] theorem setPhy_st (m : Mx) (g : Nat) (v : Phy) : (setPhy m g v).st = m.st := rfl
@[simp] theorem setPhy_md (m : Mx) (g : Nat) (v : Phy) : (setPhy m g v).md = m.md := rfl
@[simp] theorem setPhy_tr (m : Mx) (g : Nat) (v : Phy) : (setPhy m g v).tr = m.tr := rfl
@[simp] theorem setPhy_ic (m : Mx) (g : Nat) (v : Phy) : (setPhy m g v).ic = m.ic := rfl
@[simp] theorem setPhy_dm (m : Mx) (g : Nat) (v : Phy) : (setPhy m g v).dm = m.dm := rfl
@[simp] theorem setPhy_nl (m : Mx) (g : Nat) (v : Phy) : (setPhy m g v).nl = m.nl := rfl
@[simp] theorem setPhy_bt (m : Mx) (g : Nat) (v : Phy) : (setPhy m g v).bt = m.bt := rfl
@[simp] theorem setPhy_wr (m : Mx) (g : Nat) (v : Phy) : (setPhy m g v).wr = m.wr := rfl
@[simp] theorem setPhy_free (m : Mx) (g : Nat) (v : Phy) : (setPhy m g v).free = m.free := rfl

@[simp] theorem setCodec_regs (m : Mx) (g : Nat) (v : Codec) : (setCodec m g v).regs = m.regs := rfl
@[simp] theorem setCodec_gl (m : Mx) (g : Nat) (v : Codec) : (setCodec m g v).gl = m.gl := rfl
@[simp] theorem setCodec_cp (m : Mx) (g : Nat) (v : Codec) : (setCodec m g v).cp = m.cp := rfl
@[simp] theorem setCodec_hp (m : Mx) (g : Nat) (v : Codec) : (setCodec m g v).hp = m.hp := rfl
@[simp] theorem setCodec_qe (m : Mx) (g : Nat) (v : Codec) : (setCodec m g v).qe = m.qe := rfl
@[simp] theorem setCodec_ents (m : Mx) (g : Nat) (v : Codec) : (setCodec m g v).ents = m.ents := rfl
@[simp] theorem setCodec_dx (m : Mx) (g : Nat) (v : Codec) : (setCodec m g v).dx = m.dx := rfl
@[simp] theorem setCodec_sb (m : Mx) (g : Nat) (v : Codec) : (setCodec m g v).sb = m.sb := rfl
@[simp] theorem setCodec_ch (m : Mx) (g : Nat) (v : Codec) : (setCodec m g v).ch = m.ch := rfl
@[simp] theorem setCodec_die (m : Mx) (g : Nat) (v : Codec) : (setCodec m g v).die = m.die := rfl
@[simp] theorem setCodec_mc (m : Mx) (g : Nat) (v : Codec) : (setCodec m g v).mc = m.mc := rfl
@[simp] theorem setCodec_ph (m : Mx) (g : Nat) (v : Codec) : (setCodec m g v).ph = m.ph := rfl
@[simp] theorem setCodec_sg (m : Mx) (g : Nat) (v : Codec) : (setCodec m g v).sg = m.sg := rfl
@[simp] theorem setCodec_st (m : Mx) (g : Nat) (v : Codec) : (setCodec m g v).st = m.st := rfl
@[simp] theorem setCodec_md (m : Mx) (g : Nat) (v : Codec) : (setCodec m g v).md = m.md := rfl
@[simp] theorem setCodec_tr (m : Mx) (g : Nat) (v : Codec) : (setCodec m g v).tr = m.tr := rfl
@[simp] theorem setCodec_ic (m : Mx) (g : Nat) (v : Codec) : (setCodec m g v).ic = m.ic := rfl
@[simp] theorem setCodec_dm (m : Mx) (g : Nat) (v : Codec) : (setCodec m g v).dm = m.dm := rfl
@[simp] theorem setCodec_nl (m : Mx) (g : Nat) (v : Codec) : (setCodec m g v).nl = m.nl := rfl
@[simp] theorem setCodec_bt (m : Mx) (g : Nat) (v : Codec) : (setCodec m g v).bt = m.bt := rfl
@[simp] theorem setCodec_wr (m : Mx) (g : Nat) (v : Codec) : (setCodec m g v).wr = m.wr := rfl
@[simp] theorem setCodec_free (m : Mx) (g : Nat) (v : Codec) : (setCodec m g v).free = m.free := rfl

@[simp] theorem setStripe_regs (m : Mx) (k : Nat) (v : Stripe) : (setStripe m k v).regs = m.regs := rfl
@[simp] theorem setStripe_gl (m : Mx) (k : Nat) (v : Stripe) : (setStripe m k v).gl = m.gl := rfl
@[simp] theorem setStripe_cp (m : Mx) (k : Nat) (v : Stripe) : (setStripe m k v).cp = m.cp := rfl
@[simp] theorem setStripe_hp (m : Mx) (k : Nat) (v : Stripe) : (setStripe m k v).hp = m.hp := rfl
@[simp] theorem setStripe_qe (m : Mx) (k : Nat) (v : Stripe) : (setStripe m k v).qe = m.qe := rfl
@[simp] theorem setStripe_ents (m : Mx) (k : Nat) (v : Stripe) : (setStripe m k v).ents = m.ents := rfl
@[simp] theorem setStripe_dx (m : Mx) (k : Nat) (v : Stripe) : (setStripe m k v).dx = m.dx := rfl
@[simp] theorem setStripe_sb (m : Mx) (k : Nat) (v : Stripe) : (setStripe m k v).sb = m.sb := rfl
@[simp] theorem setStripe_ch (m : Mx) (k : Nat) (v : Stripe) : (setStripe m k v).ch = m.ch := rfl
@[simp] theorem setStripe_die (m : Mx) (k : Nat) (v : Stripe) : (setStripe m k v).die = m.die := rfl
@[simp] theorem setStripe_mc (m : Mx) (k : Nat) (v : Stripe) : (setStripe m k v).mc = m.mc := rfl
@[simp] theorem setStripe_ph (m : Mx) (k : Nat) (v : Stripe) : (setStripe m k v).ph = m.ph := rfl
@[simp] theorem setStripe_cx (m : Mx) (k : Nat) (v : Stripe) : (setStripe m k v).cx = m.cx := rfl
@[simp] theorem setStripe_sg (m : Mx) (k : Nat) (v : Stripe) : (setStripe m k v).sg = m.sg := rfl
@[simp] theorem setStripe_md (m : Mx) (k : Nat) (v : Stripe) : (setStripe m k v).md = m.md := rfl
@[simp] theorem setStripe_tr (m : Mx) (k : Nat) (v : Stripe) : (setStripe m k v).tr = m.tr := rfl
@[simp] theorem setStripe_ic (m : Mx) (k : Nat) (v : Stripe) : (setStripe m k v).ic = m.ic := rfl
@[simp] theorem setStripe_dm (m : Mx) (k : Nat) (v : Stripe) : (setStripe m k v).dm = m.dm := rfl
@[simp] theorem setStripe_nl (m : Mx) (k : Nat) (v : Stripe) : (setStripe m k v).nl = m.nl := rfl
@[simp] theorem setStripe_bt (m : Mx) (k : Nat) (v : Stripe) : (setStripe m k v).bt = m.bt := rfl
@[simp] theorem setStripe_wr (m : Mx) (k : Nat) (v : Stripe) : (setStripe m k v).wr = m.wr := rfl
@[simp] theorem setStripe_free (m : Mx) (k : Nat) (v : Stripe) : (setStripe m k v).free = m.free := rfl

@[simp] theorem setSensor_regs (m : Mx) (k : Nat) (v : Sensor) : (setSensor m k v).regs = m.regs := rfl
@[simp] theorem setSensor_gl (m : Mx) (k : Nat) (v : Sensor) : (setSensor m k v).gl = m.gl := rfl
@[simp] theorem setSensor_cp (m : Mx) (k : Nat) (v : Sensor) : (setSensor m k v).cp = m.cp := rfl
@[simp] theorem setSensor_hp (m : Mx) (k : Nat) (v : Sensor) : (setSensor m k v).hp = m.hp := rfl
@[simp] theorem setSensor_qe (m : Mx) (k : Nat) (v : Sensor) : (setSensor m k v).qe = m.qe := rfl
@[simp] theorem setSensor_ents (m : Mx) (k : Nat) (v : Sensor) : (setSensor m k v).ents = m.ents := rfl
@[simp] theorem setSensor_dx (m : Mx) (k : Nat) (v : Sensor) : (setSensor m k v).dx = m.dx := rfl
@[simp] theorem setSensor_sb (m : Mx) (k : Nat) (v : Sensor) : (setSensor m k v).sb = m.sb := rfl
@[simp] theorem setSensor_ch (m : Mx) (k : Nat) (v : Sensor) : (setSensor m k v).ch = m.ch := rfl
@[simp] theorem setSensor_die (m : Mx) (k : Nat) (v : Sensor) : (setSensor m k v).die = m.die := rfl
@[simp] theorem setSensor_mc (m : Mx) (k : Nat) (v : Sensor) : (setSensor m k v).mc = m.mc := rfl
@[simp] theorem setSensor_ph (m : Mx) (k : Nat) (v : Sensor) : (setSensor m k v).ph = m.ph := rfl
@[simp] theorem setSensor_cx (m : Mx) (k : Nat) (v : Sensor) : (setSensor m k v).cx = m.cx := rfl
@[simp] theorem setSensor_sg (m : Mx) (k : Nat) (v : Sensor) : (setSensor m k v).sg = m.sg := rfl
@[simp] theorem setSensor_st (m : Mx) (k : Nat) (v : Sensor) : (setSensor m k v).st = m.st := rfl
@[simp] theorem setSensor_md (m : Mx) (k : Nat) (v : Sensor) : (setSensor m k v).md = m.md := rfl
@[simp] theorem setSensor_tr (m : Mx) (k : Nat) (v : Sensor) : (setSensor m k v).tr = m.tr := rfl
@[simp] theorem setSensor_ic (m : Mx) (k : Nat) (v : Sensor) : (setSensor m k v).ic = m.ic := rfl
@[simp] theorem setSensor_nl (m : Mx) (k : Nat) (v : Sensor) : (setSensor m k v).nl = m.nl := rfl
@[simp] theorem setSensor_bt (m : Mx) (k : Nat) (v : Sensor) : (setSensor m k v).bt = m.bt := rfl
@[simp] theorem setSensor_wr (m : Mx) (k : Nat) (v : Sensor) : (setSensor m k v).wr = m.wr := rfl
@[simp] theorem setSensor_free (m : Mx) (k : Nat) (v : Sensor) : (setSensor m k v).free = m.free := rfl

@[simp] theorem setGl_regs (m : Mx) (v : Gl) : (setGl m v).regs = m.regs := rfl
@[simp] theorem setGl_cp (m : Mx) (v : Gl) : (setGl m v).cp = m.cp := rfl
@[simp] theorem setGl_hp (m : Mx) (v : Gl) : (setGl m v).hp = m.hp := rfl
@[simp] theorem setGl_qe (m : Mx) (v : Gl) : (setGl m v).qe = m.qe := rfl
@[simp] theorem setGl_ents (m : Mx) (v : Gl) : (setGl m v).ents = m.ents := rfl
@[simp] theorem setGl_dx (m : Mx) (v : Gl) : (setGl m v).dx = m.dx := rfl
@[simp] theorem setGl_sb (m : Mx) (v : Gl) : (setGl m v).sb = m.sb := rfl
@[simp] theorem setGl_ch (m : Mx) (v : Gl) : (setGl m v).ch = m.ch := rfl
@[simp] theorem setGl_die (m : Mx) (v : Gl) : (setGl m v).die = m.die := rfl
@[simp] theorem setGl_mc (m : Mx) (v : Gl) : (setGl m v).mc = m.mc := rfl
@[simp] theorem setGl_ph (m : Mx) (v : Gl) : (setGl m v).ph = m.ph := rfl
@[simp] theorem setGl_cx (m : Mx) (v : Gl) : (setGl m v).cx = m.cx := rfl
@[simp] theorem setGl_sg (m : Mx) (v : Gl) : (setGl m v).sg = m.sg := rfl
@[simp] theorem setGl_st (m : Mx) (v : Gl) : (setGl m v).st = m.st := rfl
@[simp] theorem setGl_md (m : Mx) (v : Gl) : (setGl m v).md = m.md := rfl
@[simp] theorem setGl_tr (m : Mx) (v : Gl) : (setGl m v).tr = m.tr := rfl
@[simp] theorem setGl_ic (m : Mx) (v : Gl) : (setGl m v).ic = m.ic := rfl
@[simp] theorem setGl_dm (m : Mx) (v : Gl) : (setGl m v).dm = m.dm := rfl
@[simp] theorem setGl_nl (m : Mx) (v : Gl) : (setGl m v).nl = m.nl := rfl
@[simp] theorem setGl_bt (m : Mx) (v : Gl) : (setGl m v).bt = m.bt := rfl
@[simp] theorem setGl_wr (m : Mx) (v : Gl) : (setGl m v).wr = m.wr := rfl
@[simp] theorem setGl_free (m : Mx) (v : Gl) : (setGl m v).free = m.free := rfl

@[simp] theorem setTrack_regs (m : Mx) (i : Nat) (t : Track) : (setTrack m i t).regs = m.regs := rfl
@[simp] theorem setTrack_gl (m : Mx) (i : Nat) (t : Track) : (setTrack m i t).gl = m.gl := rfl
@[simp] theorem setTrack_cp (m : Mx) (i : Nat) (t : Track) : (setTrack m i t).cp = m.cp := rfl
@[simp] theorem setTrack_hp (m : Mx) (i : Nat) (t : Track) : (setTrack m i t).hp = m.hp := rfl
@[simp] theorem setTrack_qe (m : Mx) (i : Nat) (t : Track) : (setTrack m i t).qe = m.qe := rfl
@[simp] theorem setTrack_ents (m : Mx) (i : Nat) (t : Track) : (setTrack m i t).ents = m.ents := rfl
@[simp] theorem setTrack_dx (m : Mx) (i : Nat) (t : Track) : (setTrack m i t).dx = m.dx := rfl
@[simp] theorem setTrack_ch (m : Mx) (i : Nat) (t : Track) : (setTrack m i t).ch = m.ch := rfl
@[simp] theorem setTrack_die (m : Mx) (i : Nat) (t : Track) : (setTrack m i t).die = m.die := rfl
@[simp] theorem setTrack_mc (m : Mx) (i : Nat) (t : Track) : (setTrack m i t).mc = m.mc := rfl
@[simp] theorem setTrack_ph (m : Mx) (i : Nat) (t : Track) : (setTrack m i t).ph = m.ph := rfl
@[simp] theorem setTrack_cx (m : Mx) (i : Nat) (t : Track) : (setTrack m i t).cx = m.cx := rfl
@[simp] theorem setTrack_sg (m : Mx) (i : Nat) (t : Track) : (setTrack m i t).sg = m.sg := rfl
@[simp] theorem setTrack_st (m : Mx) (i : Nat) (t : Track) : (setTrack m i t).st = m.st := rfl
@[simp] theorem setTrack_md (m : Mx) (i : Nat) (t : Track) : (setTrack m i t).md = m.md := rfl
@[simp] theorem setTrack_tr (m : Mx) (i : Nat) (t : Track) : (setTrack m i t).tr = m.tr := rfl
@[simp] theorem setTrack_ic (m : Mx) (i : Nat) (t : Track) : (setTrack m i t).ic = m.ic := rfl
@[simp] theorem setTrack_dm (m : Mx) (i : Nat) (t : Track) : (setTrack m i t).dm = m.dm := rfl
@[simp] theorem setTrack_nl (m : Mx) (i : Nat) (t : Track) : (setTrack m i t).nl = m.nl := rfl
@[simp] theorem setTrack_bt (m : Mx) (i : Nat) (t : Track) : (setTrack m i t).bt = m.bt := rfl
@[simp] theorem setTrack_wr (m : Mx) (i : Nat) (t : Track) : (setTrack m i t).wr = m.wr := rfl
@[simp] theorem setTrack_free (m : Mx) (i : Nat) (t : Track) : (setTrack m i t).free = m.free := rfl

@[simp] theorem answer_regs (m : Mx) (w : Word) : (answer m w).regs = m.regs := rfl
@[simp] theorem answer_gl (m : Mx) (w : Word) : (answer m w).gl = m.gl := rfl
@[simp] theorem answer_hp (m : Mx) (w : Word) : (answer m w).hp = m.hp := rfl
@[simp] theorem answer_qe (m : Mx) (w : Word) : (answer m w).qe = m.qe := rfl
@[simp] theorem answer_ents (m : Mx) (w : Word) : (answer m w).ents = m.ents := rfl
@[simp] theorem answer_dx (m : Mx) (w : Word) : (answer m w).dx = m.dx := rfl
@[simp] theorem answer_sb (m : Mx) (w : Word) : (answer m w).sb = m.sb := rfl
@[simp] theorem answer_ch (m : Mx) (w : Word) : (answer m w).ch = m.ch := rfl
@[simp] theorem answer_die (m : Mx) (w : Word) : (answer m w).die = m.die := rfl
@[simp] theorem answer_mc (m : Mx) (w : Word) : (answer m w).mc = m.mc := rfl
@[simp] theorem answer_ph (m : Mx) (w : Word) : (answer m w).ph = m.ph := rfl
@[simp] theorem answer_cx (m : Mx) (w : Word) : (answer m w).cx = m.cx := rfl
@[simp] theorem answer_sg (m : Mx) (w : Word) : (answer m w).sg = m.sg := rfl
@[simp] theorem answer_st (m : Mx) (w : Word) : (answer m w).st = m.st := rfl
@[simp] theorem answer_md (m : Mx) (w : Word) : (answer m w).md = m.md := rfl
@[simp] theorem answer_tr (m : Mx) (w : Word) : (answer m w).tr = m.tr := rfl
@[simp] theorem answer_ic (m : Mx) (w : Word) : (answer m w).ic = m.ic := rfl
@[simp] theorem answer_dm (m : Mx) (w : Word) : (answer m w).dm = m.dm := rfl
@[simp] theorem answer_nl (m : Mx) (w : Word) : (answer m w).nl = m.nl := rfl
@[simp] theorem answer_bt (m : Mx) (w : Word) : (answer m w).bt = m.bt := rfl
@[simp] theorem answer_wr (m : Mx) (w : Word) : (answer m w).wr = m.wr := rfl
@[simp] theorem answer_free (m : Mx) (w : Word) : (answer m w).free = m.free := rfl

@[simp] theorem setDome_regs (m : Mx) (v : Dome) : (setDome m v).regs = m.regs := rfl
@[simp] theorem setDome_gl (m : Mx) (v : Dome) : (setDome m v).gl = m.gl := rfl
@[simp] theorem setDome_cp (m : Mx) (v : Dome) : (setDome m v).cp = m.cp := rfl
@[simp] theorem setDome_hp (m : Mx) (v : Dome) : (setDome m v).hp = m.hp := rfl
@[simp] theorem setDome_qe (m : Mx) (v : Dome) : (setDome m v).qe = m.qe := rfl
@[simp] theorem setDome_ents (m : Mx) (v : Dome) : (setDome m v).ents = m.ents := rfl
@[simp] theorem setDome_dx (m : Mx) (v : Dome) : (setDome m v).dx = m.dx := rfl
@[simp] theorem setDome_sb (m : Mx) (v : Dome) : (setDome m v).sb = m.sb := rfl
@[simp] theorem setDome_ch (m : Mx) (v : Dome) : (setDome m v).ch = m.ch := rfl
@[simp] theorem setDome_die (m : Mx) (v : Dome) : (setDome m v).die = m.die := rfl
@[simp] theorem setDome_mc (m : Mx) (v : Dome) : (setDome m v).mc = m.mc := rfl
@[simp] theorem setDome_ph (m : Mx) (v : Dome) : (setDome m v).ph = m.ph := rfl
@[simp] theorem setDome_cx (m : Mx) (v : Dome) : (setDome m v).cx = m.cx := rfl
@[simp] theorem setDome_sg (m : Mx) (v : Dome) : (setDome m v).sg = m.sg := rfl
@[simp] theorem setDome_st (m : Mx) (v : Dome) : (setDome m v).st = m.st := rfl
@[simp] theorem setDome_md (m : Mx) (v : Dome) : (setDome m v).md = m.md := rfl
@[simp] theorem setDome_tr (m : Mx) (v : Dome) : (setDome m v).tr = m.tr := rfl
@[simp] theorem setDome_ic (m : Mx) (v : Dome) : (setDome m v).ic = m.ic := rfl
@[simp] theorem setDome_nl (m : Mx) (v : Dome) : (setDome m v).nl = m.nl := rfl
@[simp] theorem setDome_bt (m : Mx) (v : Dome) : (setDome m v).bt = m.bt := rfl
@[simp] theorem setDome_wr (m : Mx) (v : Dome) : (setDome m v).wr = m.wr := rfl
@[simp] theorem setDome_free (m : Mx) (v : Dome) : (setDome m v).free = m.free := rfl

@[simp] theorem setInv_regs (m : Mx) (n : Nat) : (setInv n m).regs = m.regs := rfl
@[simp] theorem setInv_gl (m : Mx) (n : Nat) : (setInv n m).gl = m.gl := rfl
@[simp] theorem setInv_cp (m : Mx) (n : Nat) : (setInv n m).cp = m.cp := rfl
@[simp] theorem setInv_hp (m : Mx) (n : Nat) : (setInv n m).hp = m.hp := rfl
@[simp] theorem setInv_ents (m : Mx) (n : Nat) : (setInv n m).ents = m.ents := rfl
@[simp] theorem setInv_dx (m : Mx) (n : Nat) : (setInv n m).dx = m.dx := rfl
@[simp] theorem setInv_sb (m : Mx) (n : Nat) : (setInv n m).sb = m.sb := rfl
@[simp] theorem setInv_ch (m : Mx) (n : Nat) : (setInv n m).ch = m.ch := rfl
@[simp] theorem setInv_die (m : Mx) (n : Nat) : (setInv n m).die = m.die := rfl
@[simp] theorem setInv_mc (m : Mx) (n : Nat) : (setInv n m).mc = m.mc := rfl
@[simp] theorem setInv_ph (m : Mx) (n : Nat) : (setInv n m).ph = m.ph := rfl
@[simp] theorem setInv_cx (m : Mx) (n : Nat) : (setInv n m).cx = m.cx := rfl
@[simp] theorem setInv_sg (m : Mx) (n : Nat) : (setInv n m).sg = m.sg := rfl
@[simp] theorem setInv_st (m : Mx) (n : Nat) : (setInv n m).st = m.st := rfl
@[simp] theorem setInv_md (m : Mx) (n : Nat) : (setInv n m).md = m.md := rfl
@[simp] theorem setInv_tr (m : Mx) (n : Nat) : (setInv n m).tr = m.tr := rfl
@[simp] theorem setInv_ic (m : Mx) (n : Nat) : (setInv n m).ic = m.ic := rfl
@[simp] theorem setInv_dm (m : Mx) (n : Nat) : (setInv n m).dm = m.dm := rfl
@[simp] theorem setInv_nl (m : Mx) (n : Nat) : (setInv n m).nl = m.nl := rfl
@[simp] theorem setInv_bt (m : Mx) (n : Nat) : (setInv n m).bt = m.bt := rfl
@[simp] theorem setInv_wr (m : Mx) (n : Nat) : (setInv n m).wr = m.wr := rfl
@[simp] theorem setInv_free (m : Mx) (n : Nat) : (setInv n m).free = m.free := rfl

@[simp] theorem setJob_regs (m : Mx) (e : Nat) (j : Job) : (setJob m e j).regs = m.regs := rfl
@[simp] theorem setJob_gl (m : Mx) (e : Nat) (j : Job) : (setJob m e j).gl = m.gl := rfl
@[simp] theorem setJob_cp (m : Mx) (e : Nat) (j : Job) : (setJob m e j).cp = m.cp := rfl
@[simp] theorem setJob_hp (m : Mx) (e : Nat) (j : Job) : (setJob m e j).hp = m.hp := rfl
@[simp] theorem setJob_qe (m : Mx) (e : Nat) (j : Job) : (setJob m e j).qe = m.qe := rfl
@[simp] theorem setJob_ents (m : Mx) (e : Nat) (j : Job) : (setJob m e j).ents = m.ents := rfl
@[simp] theorem setJob_dx (m : Mx) (e : Nat) (j : Job) : (setJob m e j).dx = m.dx := rfl
@[simp] theorem setJob_sb (m : Mx) (e : Nat) (j : Job) : (setJob m e j).sb = m.sb := rfl
@[simp] theorem setJob_ch (m : Mx) (e : Nat) (j : Job) : (setJob m e j).ch = m.ch := rfl
@[simp] theorem setJob_die (m : Mx) (e : Nat) (j : Job) : (setJob m e j).die = m.die := rfl
@[simp] theorem setJob_mc (m : Mx) (e : Nat) (j : Job) : (setJob m e j).mc = m.mc := rfl
@[simp] theorem setJob_ph (m : Mx) (e : Nat) (j : Job) : (setJob m e j).ph = m.ph := rfl
@[simp] theorem setJob_cx (m : Mx) (e : Nat) (j : Job) : (setJob m e j).cx = m.cx := rfl
@[simp] theorem setJob_sg (m : Mx) (e : Nat) (j : Job) : (setJob m e j).sg = m.sg := rfl
@[simp] theorem setJob_md (m : Mx) (e : Nat) (j : Job) : (setJob m e j).md = m.md := rfl
@[simp] theorem setJob_tr (m : Mx) (e : Nat) (j : Job) : (setJob m e j).tr = m.tr := rfl
@[simp] theorem setJob_ic (m : Mx) (e : Nat) (j : Job) : (setJob m e j).ic = m.ic := rfl
@[simp] theorem setJob_dm (m : Mx) (e : Nat) (j : Job) : (setJob m e j).dm = m.dm := rfl
@[simp] theorem setJob_nl (m : Mx) (e : Nat) (j : Job) : (setJob m e j).nl = m.nl := rfl
@[simp] theorem setJob_bt (m : Mx) (e : Nat) (j : Job) : (setJob m e j).bt = m.bt := rfl
@[simp] theorem setJob_wr (m : Mx) (e : Nat) (j : Job) : (setJob m e j).wr = m.wr := rfl
@[simp] theorem setJob_free (m : Mx) (e : Nat) (j : Job) : (setJob m e j).free = m.free := rfl

@[simp] theorem setPend_regs (m : Mx) (k : Nat) : (setPend m k).regs = m.regs := rfl
@[simp] theorem setPend_gl (m : Mx) (k : Nat) : (setPend m k).gl = m.gl := rfl
@[simp] theorem setPend_cp (m : Mx) (k : Nat) : (setPend m k).cp = m.cp := rfl
@[simp] theorem setPend_hp (m : Mx) (k : Nat) : (setPend m k).hp = m.hp := rfl
@[simp] theorem setPend_qe (m : Mx) (k : Nat) : (setPend m k).qe = m.qe := rfl
@[simp] theorem setPend_ents (m : Mx) (k : Nat) : (setPend m k).ents = m.ents := rfl
@[simp] theorem setPend_dx (m : Mx) (k : Nat) : (setPend m k).dx = m.dx := rfl
@[simp] theorem setPend_sb (m : Mx) (k : Nat) : (setPend m k).sb = m.sb := rfl
@[simp] theorem setPend_ch (m : Mx) (k : Nat) : (setPend m k).ch = m.ch := rfl
@[simp] theorem setPend_die (m : Mx) (k : Nat) : (setPend m k).die = m.die := rfl
@[simp] theorem setPend_mc (m : Mx) (k : Nat) : (setPend m k).mc = m.mc := rfl
@[simp] theorem setPend_ph (m : Mx) (k : Nat) : (setPend m k).ph = m.ph := rfl
@[simp] theorem setPend_cx (m : Mx) (k : Nat) : (setPend m k).cx = m.cx := rfl
@[simp] theorem setPend_sg (m : Mx) (k : Nat) : (setPend m k).sg = m.sg := rfl
@[simp] theorem setPend_st (m : Mx) (k : Nat) : (setPend m k).st = m.st := rfl
@[simp] theorem setPend_md (m : Mx) (k : Nat) : (setPend m k).md = m.md := rfl
@[simp] theorem setPend_tr (m : Mx) (k : Nat) : (setPend m k).tr = m.tr := rfl
@[simp] theorem setPend_dm (m : Mx) (k : Nat) : (setPend m k).dm = m.dm := rfl
@[simp] theorem setPend_nl (m : Mx) (k : Nat) : (setPend m k).nl = m.nl := rfl
@[simp] theorem setPend_bt (m : Mx) (k : Nat) : (setPend m k).bt = m.bt := rfl
@[simp] theorem setPend_wr (m : Mx) (k : Nat) : (setPend m k).wr = m.wr := rfl
@[simp] theorem setPend_free (m : Mx) (k : Nat) : (setPend m k).free = m.free := rfl

@[simp] theorem setSys_regs (m : Mx) (k : Nat) (w : SysW) : (setSys m k w).regs = m.regs := rfl
@[simp] theorem setSys_gl (m : Mx) (k : Nat) (w : SysW) : (setSys m k w).gl = m.gl := rfl
@[simp] theorem setSys_cp (m : Mx) (k : Nat) (w : SysW) : (setSys m k w).cp = m.cp := rfl
@[simp] theorem setSys_hp (m : Mx) (k : Nat) (w : SysW) : (setSys m k w).hp = m.hp := rfl
@[simp] theorem setSys_qe (m : Mx) (k : Nat) (w : SysW) : (setSys m k w).qe = m.qe := rfl
@[simp] theorem setSys_ents (m : Mx) (k : Nat) (w : SysW) : (setSys m k w).ents = m.ents := rfl
@[simp] theorem setSys_dx (m : Mx) (k : Nat) (w : SysW) : (setSys m k w).dx = m.dx := rfl
@[simp] theorem setSys_sb (m : Mx) (k : Nat) (w : SysW) : (setSys m k w).sb = m.sb := rfl
@[simp] theorem setSys_ch (m : Mx) (k : Nat) (w : SysW) : (setSys m k w).ch = m.ch := rfl
@[simp] theorem setSys_die (m : Mx) (k : Nat) (w : SysW) : (setSys m k w).die = m.die := rfl
@[simp] theorem setSys_mc (m : Mx) (k : Nat) (w : SysW) : (setSys m k w).mc = m.mc := rfl
@[simp] theorem setSys_ph (m : Mx) (k : Nat) (w : SysW) : (setSys m k w).ph = m.ph := rfl
@[simp] theorem setSys_cx (m : Mx) (k : Nat) (w : SysW) : (setSys m k w).cx = m.cx := rfl
@[simp] theorem setSys_sg (m : Mx) (k : Nat) (w : SysW) : (setSys m k w).sg = m.sg := rfl
@[simp] theorem setSys_st (m : Mx) (k : Nat) (w : SysW) : (setSys m k w).st = m.st := rfl
@[simp] theorem setSys_md (m : Mx) (k : Nat) (w : SysW) : (setSys m k w).md = m.md := rfl
@[simp] theorem setSys_tr (m : Mx) (k : Nat) (w : SysW) : (setSys m k w).tr = m.tr := rfl
@[simp] theorem setSys_ic (m : Mx) (k : Nat) (w : SysW) : (setSys m k w).ic = m.ic := rfl
@[simp] theorem setSys_dm (m : Mx) (k : Nat) (w : SysW) : (setSys m k w).dm = m.dm := rfl
@[simp] theorem setSys_nl (m : Mx) (k : Nat) (w : SysW) : (setSys m k w).nl = m.nl := rfl
@[simp] theorem setSys_bt (m : Mx) (k : Nat) (w : SysW) : (setSys m k w).bt = m.bt := rfl
@[simp] theorem setSys_free (m : Mx) (k : Nat) (w : SysW) : (setSys m k w).free = m.free := rfl

@[simp] theorem dropSys_regs (m : Mx) (k : Nat) : (dropSys m k).regs = m.regs := rfl
@[simp] theorem dropSys_gl (m : Mx) (k : Nat) : (dropSys m k).gl = m.gl := rfl
@[simp] theorem dropSys_cp (m : Mx) (k : Nat) : (dropSys m k).cp = m.cp := rfl
@[simp] theorem dropSys_hp (m : Mx) (k : Nat) : (dropSys m k).hp = m.hp := rfl
@[simp] theorem dropSys_qe (m : Mx) (k : Nat) : (dropSys m k).qe = m.qe := rfl
@[simp] theorem dropSys_ents (m : Mx) (k : Nat) : (dropSys m k).ents = m.ents := rfl
@[simp] theorem dropSys_dx (m : Mx) (k : Nat) : (dropSys m k).dx = m.dx := rfl
@[simp] theorem dropSys_sb (m : Mx) (k : Nat) : (dropSys m k).sb = m.sb := rfl
@[simp] theorem dropSys_ch (m : Mx) (k : Nat) : (dropSys m k).ch = m.ch := rfl
@[simp] theorem dropSys_die (m : Mx) (k : Nat) : (dropSys m k).die = m.die := rfl
@[simp] theorem dropSys_mc (m : Mx) (k : Nat) : (dropSys m k).mc = m.mc := rfl
@[simp] theorem dropSys_ph (m : Mx) (k : Nat) : (dropSys m k).ph = m.ph := rfl
@[simp] theorem dropSys_cx (m : Mx) (k : Nat) : (dropSys m k).cx = m.cx := rfl
@[simp] theorem dropSys_sg (m : Mx) (k : Nat) : (dropSys m k).sg = m.sg := rfl
@[simp] theorem dropSys_st (m : Mx) (k : Nat) : (dropSys m k).st = m.st := rfl
@[simp] theorem dropSys_md (m : Mx) (k : Nat) : (dropSys m k).md = m.md := rfl
@[simp] theorem dropSys_tr (m : Mx) (k : Nat) : (dropSys m k).tr = m.tr := rfl
@[simp] theorem dropSys_ic (m : Mx) (k : Nat) : (dropSys m k).ic = m.ic := rfl
@[simp] theorem dropSys_dm (m : Mx) (k : Nat) : (dropSys m k).dm = m.dm := rfl
@[simp] theorem dropSys_nl (m : Mx) (k : Nat) : (dropSys m k).nl = m.nl := rfl
@[simp] theorem dropSys_bt (m : Mx) (k : Nat) : (dropSys m k).bt = m.bt := rfl
@[simp] theorem dropSys_free (m : Mx) (k : Nat) : (dropSys m k).free = m.free := rfl

@[simp] theorem setGl_gl (m : Mx) (v : Gl) : (setGl m v).gl = v := rfl

@[simp] theorem setDome_dm (m : Mx) (v : Dome) : (setDome m v).dm = v := rfl

@[simp] theorem cpOk_regs (m : Mx) : (cpOk m).regs = m.regs := rfl
@[simp] theorem cpOk_gl (m : Mx) : (cpOk m).gl = m.gl := rfl
@[simp] theorem cpOk_hp (m : Mx) : (cpOk m).hp = m.hp := rfl
@[simp] theorem cpOk_qe (m : Mx) : (cpOk m).qe = m.qe := rfl
@[simp] theorem cpOk_ents (m : Mx) : (cpOk m).ents = m.ents := rfl
@[simp] theorem cpOk_dx (m : Mx) : (cpOk m).dx = m.dx := rfl
@[simp] theorem cpOk_sb (m : Mx) : (cpOk m).sb = m.sb := rfl
@[simp] theorem cpOk_ch (m : Mx) : (cpOk m).ch = m.ch := rfl
@[simp] theorem cpOk_die (m : Mx) : (cpOk m).die = m.die := rfl
@[simp] theorem cpOk_mc (m : Mx) : (cpOk m).mc = m.mc := rfl
@[simp] theorem cpOk_ph (m : Mx) : (cpOk m).ph = m.ph := rfl
@[simp] theorem cpOk_cx (m : Mx) : (cpOk m).cx = m.cx := rfl
@[simp] theorem cpOk_sg (m : Mx) : (cpOk m).sg = m.sg := rfl
@[simp] theorem cpOk_st (m : Mx) : (cpOk m).st = m.st := rfl
@[simp] theorem cpOk_md (m : Mx) : (cpOk m).md = m.md := rfl
@[simp] theorem cpOk_tr (m : Mx) : (cpOk m).tr = m.tr := rfl
@[simp] theorem cpOk_ic (m : Mx) : (cpOk m).ic = m.ic := rfl
@[simp] theorem cpOk_dm (m : Mx) : (cpOk m).dm = m.dm := rfl
@[simp] theorem cpOk_nl (m : Mx) : (cpOk m).nl = m.nl := rfl
@[simp] theorem cpOk_bt (m : Mx) : (cpOk m).bt = m.bt := rfl
@[simp] theorem cpOk_wr (m : Mx) : (cpOk m).wr = m.wr := rfl
@[simp] theorem cpOk_free (m : Mx) : (cpOk m).free = m.free := rfl

/-! ## Tables -/

@[simp] theorem tabGet_tabSet_same {α : Type} (d : α) (t : Tab α) (i : Nat) (v : α) : tabGet d (tabSet t i v) i = v := by
  induction t with
  | nil => simp [tabSet, tabGet]
  | cons x t ih =>
    obtain ⟨k, w⟩ := x
    by_cases h : k = i
    · simp [tabSet, tabGet, h]
    · by_cases h2 : i < k
      · simp [tabSet, tabGet, h, h2]
      · simp [tabSet, tabGet, h, h2, ih]

theorem tabGet_tabSet_ne {α : Type} (d : α) (t : Tab α) (i j : Nat) (v : α) (h : i ≠ j) :
    tabGet d (tabSet t i v) j = tabGet d t j := by
  induction t with
  | nil => simp [tabSet, tabGet, h]
  | cons x t ih =>
    obtain ⟨k, w⟩ := x
    by_cases hk : k = i
    · have hj : k ≠ j := by omega
      simp [tabSet, tabGet, hk, h]
    · by_cases h2 : i < k
      · simp [tabSet, tabGet, hk, h2, h]
      · simp only [tabSet, hk, h2, if_false, tabGet, ih]

@[simp] theorem reg_setReg (m : Mx) (off : Nat) (v : Word) : reg (setReg m off v) off = v := by simp [reg, setReg]
theorem reg_setReg_ne (m : Mx) (off y : Nat) (v : Word) (h : off ≠ y) : reg (setReg m off v) y = reg m y := by
  simp [reg, setReg, tabGet_tabSet_ne _ _ _ _ _ h]
@[simp] theorem port_setPort (m : Mx) (p : Nat) (v : Port) : port (setPort m p v) p = v := by simp [port, setPort]
theorem port_setPort_ne (m : Mx) (p y : Nat) (v : Port) (h : p ≠ y) : port (setPort m p v) y = port m y := by
  simp [port, setPort, tabGet_tabSet_ne _ _ _ _ _ h]
@[simp] theorem ring_setRing (m : Mx) (r : Nat) (v : Ring) : ring (setRing m r v) r = v := by simp [ring, setRing]
theorem ring_setRing_ne (m : Mx) (r y : Nat) (v : Ring) (h : r ≠ y) : ring (setRing m r v) y = ring m y := by
  simp [ring, setRing, tabGet_tabSet_ne _ _ _ _ _ h]
@[simp] theorem ntc_setNtc (m : Mx) (g : Nat) (v : Ntc) : ntc (setNtc m g v) g = v := by simp [ntc, setNtc]
theorem ntc_setNtc_ne (m : Mx) (g y : Nat) (v : Ntc) (h : g ≠ y) : ntc (setNtc m g v) y = ntc m y := by
  simp [ntc, setNtc, tabGet_tabSet_ne _ _ _ _ _ h]
@[simp] theorem engine_setEngine (m : Mx) (e : Nat) (v : Engine) : engine (setEngine m e v) e = v := by simp [engine, setEngine]
theorem engine_setEngine_ne (m : Mx) (e y : Nat) (v : Engine) (h : e ≠ y) : engine (setEngine m e v) y = engine m y := by
  simp [engine, setEngine, tabGet_tabSet_ne _ _ _ _ _ h]
@[simp] theorem target_setTarget (m : Mx) (t : Nat) (v : Target) : target (setTarget m t v) t = v := by simp [target, setTarget]
theorem target_setTarget_ne (m : Mx) (t y : Nat) (v : Target) (h : t ≠ y) : target (setTarget m t v) y = target m y := by
  simp [target, setTarget, tabGet_tabSet_ne _ _ _ _ _ h]
@[simp] theorem chan_setChan (m : Mx) (c : Nat) (v : Chan) : chan (setChan m c v) c = v := by simp [chan, setChan]
theorem chan_setChan_ne (m : Mx) (c y : Nat) (v : Chan) (h : c ≠ y) : chan (setChan m c v) y = chan m y := by
  simp [chan, setChan, tabGet_tabSet_ne _ _ _ _ _ h]
@[simp] theorem die_setDie (m : Mx) (d : Nat) (v : Die) : die (setDie m d v) d = v := by simp [die, setDie]
theorem die_setDie_ne (m : Mx) (d y : Nat) (v : Die) (h : d ≠ y) : die (setDie m d v) y = die m y := by
  simp [die, setDie, tabGet_tabSet_ne _ _ _ _ _ h]
@[simp] theorem cluster_setCluster (m : Mx) (g : Nat) (v : Cluster) : cluster (setCluster m g v) g = v := by simp [cluster, setCluster]
theorem cluster_setCluster_ne (m : Mx) (g y : Nat) (v : Cluster) (h : g ≠ y) : cluster (setCluster m g v) y = cluster m y := by
  simp [cluster, setCluster, tabGet_tabSet_ne _ _ _ _ _ h]
@[simp] theorem phy_setPhy (m : Mx) (g : Nat) (v : Phy) : phy (setPhy m g v) g = v := by simp [phy, setPhy]
theorem phy_setPhy_ne (m : Mx) (g y : Nat) (v : Phy) (h : g ≠ y) : phy (setPhy m g v) y = phy m y := by
  simp [phy, setPhy, tabGet_tabSet_ne _ _ _ _ _ h]
@[simp] theorem codec_setCodec (m : Mx) (g : Nat) (v : Codec) : codec (setCodec m g v) g = v := by simp [codec, setCodec]
theorem codec_setCodec_ne (m : Mx) (g y : Nat) (v : Codec) (h : g ≠ y) : codec (setCodec m g v) y = codec m y := by
  simp [codec, setCodec, tabGet_tabSet_ne _ _ _ _ _ h]
@[simp] theorem stripe_setStripe (m : Mx) (k : Nat) (v : Stripe) : stripe (setStripe m k v) k = v := by simp [stripe, setStripe]
theorem stripe_setStripe_ne (m : Mx) (k y : Nat) (v : Stripe) (h : k ≠ y) : stripe (setStripe m k v) y = stripe m y := by
  simp [stripe, setStripe, tabGet_tabSet_ne _ _ _ _ _ h]
@[simp] theorem sensor_setSensor (m : Mx) (k : Nat) (v : Sensor) : sensor (setSensor m k v) k = v := by simp [sensor, setSensor]
theorem sensor_setSensor_ne (m : Mx) (k y : Nat) (v : Sensor) (h : k ≠ y) : sensor (setSensor m k v) y = sensor m y := by
  simp [sensor, setSensor, tabGet_tabSet_ne _ _ _ _ _ h]
@[simp] theorem ent_setEnt (m : Mx) (e : Nat) (v : Ent) : ent (setEnt m e v) e = some v := by simp [ent, setEnt]
theorem ent_setEnt_ne (m : Mx) (e y : Nat) (v : Ent) (h : e ≠ y) : ent (setEnt m e v) y = ent m y := by
  simp [ent, setEnt, tabGet_tabSet_ne _ _ _ _ _ h]
@[simp] theorem ent_dropEnt (m : Mx) (e : Nat) : ent (dropEnt m e) e = none := by simp [ent, dropEnt]

/-! ## Parts -/

/-- A part outside the list is kept. -/
theorem keepsBut_same {l : List Area} {s t : State} (h : keepsBut l s t) (p : Area) (hp : p ∉ l) : p.same s.mx t.mx := h.2 p hp

end Sys2Proof.Machine
end

