-- ==== Sys2Proof/Laws/Memory.lean ====
section
/-! SUPPORT. Byte memories: the canonical form and what a write leaves (12_stage_buffer.md R440–R446; log entry 5). -/

namespace Sys2Proof.Machine

/-- Every address of a memory lies above a bound. -/
def memAbove (m : Mem) (a : Nat) : Prop := ∀ c ∈ m, a < c.1

/-- The canonical form, entry by entry. -/
theorem wf_cons (k : Nat) (b : Byte) (t : Mem) :
    Memory.wf ((k, b) :: t) = true ↔ b ≠ 0 ∧ memAbove t k ∧ Memory.wf t = true := by
  induction t generalizing k b with
  | nil => simp [Memory.wf, memAbove]
  | cons x t ih =>
    obtain ⟨l, c⟩ := x
    rw [Memory.wf]
    simp only [Bool.and_eq_true, bne_iff_ne, ne_eq, decide_eq_true_eq]
    constructor
    · rintro ⟨⟨hb, hkl⟩, hw⟩
      refine ⟨hb, ?_, hw⟩
      intro y hy
      rcases List.mem_cons.1 hy with rfl | hy
      · exact hkl
      · have := ((ih l c).1 hw).2.1 y hy
        omega
    · rintro ⟨hb, ha, hw⟩
      exact ⟨⟨hb, ha (l, c) List.mem_cons_self⟩, hw⟩

theorem wf_nil : Memory.wf [] = true := rfl

/-- Removing an address keeps the form. -/
theorem wf_filter (m : Mem) (p : Host.Cell → Bool) (h : Memory.wf m = true) : Memory.wf (m.filter p) = true := by
  induction m with
  | nil => rfl
  | cons x t ih =>
    obtain ⟨k, b⟩ := x
    obtain ⟨hb, ha, hw⟩ := (wf_cons k b t).1 h
    by_cases hp : p (k, b) = true
    · rw [List.filter_cons_of_pos hp]
      refine (wf_cons k b _).2 ⟨hb, ?_, ih hw⟩
      intro y hy
      exact ha y (List.mem_filter.1 hy).1
    · rw [List.filter_cons_of_neg hp]
      exact ih hw

theorem memIns_mem (m : Mem) (a : Nat) (b : Byte) (y : Host.Cell) (h : y ∈ memIns m a b) : y = (a, b) ∨ y ∈ m := by
  induction m with
  | nil => simpa [memIns] using h
  | cons x t ih =>
    obtain ⟨k, c⟩ := x
    unfold memIns at h
    split at h
    · rcases List.mem_cons.1 h with rfl | h
      · exact .inl rfl
      · exact .inr (List.mem_cons_of_mem _ h)
    · split at h
      · rcases List.mem_cons.1 h with rfl | h
        · exact .inl rfl
        · exact .inr h
      · rcases List.mem_cons.1 h with rfl | h
        · exact .inr List.mem_cons_self
        · rcases ih h with h | h
          · exact .inl h
          · exact .inr (List.mem_cons_of_mem _ h)

theorem wf_memIns (m : Mem) (a : Nat) (b : Byte) (hb : b ≠ 0) (h : Memory.wf m = true) : Memory.wf (memIns m a b) = true := by
  induction m with
  | nil => simpa [memIns, Memory.wf] using hb
  | cons x t ih =>
    obtain ⟨k, c⟩ := x
    obtain ⟨hc, ha, hw⟩ := (wf_cons k c t).1 h
    unfold memIns
    split
    · subst_vars; exact (wf_cons _ _ _).2 ⟨hb, ha, hw⟩
    · split
      · rename_i _ hak
        refine (wf_cons _ _ _).2 ⟨hb, ?_, h⟩
        intro y hy
        rcases List.mem_cons.1 hy with rfl | hy
        · exact hak
        · have := ha y hy; omega
      · refine (wf_cons _ _ _).2 ⟨hc, ?_, ih hw⟩
        intro y hy
        rcases memIns_mem t a b y hy with rfl | hy
        · show k < a; omega
        · exact ha y hy

/-- A write of one byte keeps the canonical form. -/
theorem wf_memSet (m : Mem) (a : Nat) (b : Byte) (h : Memory.wf m = true) : Memory.wf (memSet m a b) = true := by
  unfold memSet
  split
  · exact wf_filter _ _ h
  · exact wf_memIns _ _ _ (by assumption) h

/-- A write of bytes keeps the canonical form. -/
theorem wf_memWrite (m : Mem) (a : Nat) (bs : List Byte) (h : Memory.wf m = true) : Memory.wf (memWrite m a bs) = true := by
  induction bs generalizing m a with
  | nil => exact h
  | cons b t ih => exact ih _ _ (wf_memSet _ _ _ h)

/-- What a write of one byte leaves at each address. -/
theorem memGet_memSet (m : Mem) (a i : Nat) (b : Byte) : memGet (memSet m a b) i = if i = a then b else memGet m i := by
  unfold memSet
  split
  · rename_i hb
    subst hb
    induction m with
    | nil => simp [memGet]
    | cons x t ih =>
      obtain ⟨k, c⟩ := x
      by_cases hk : k = a
      · subst hk
        rw [List.filter_cons_of_neg (by simp), ih]
        simp only [memGet]
        by_cases hi : i = k
        · simp [hi]
        · simp [hi, Ne.symm hi]
      · rw [List.filter_cons_of_pos (by simp [hk])]
        simp only [memGet, ih]
        by_cases hki : k = i
        · have : i ≠ a := by omega
          simp [hki, this]
        · simp [hki]
  · rename_i hb
    clear hb
    induction m with
    | nil => by_cases h : a = i <;> simp [memIns, memGet, h, eq_comm]
    | cons x t ih =>
      obtain ⟨k, c⟩ := x
      unfold memIns
      split
      · rename_i hk
        subst hk
        by_cases h : k = i
        · simp [memGet, h]
        · simp [memGet, h, Ne.symm h]
      · split
        · by_cases h : a = i
          · simp [memGet, h]
          · simp [memGet, h, Ne.symm h]
        · simp only [memGet, ih]
          by_cases hki : k = i
          · have : i ≠ a := by omega
            simp [hki, this]
          · simp [hki]

/-! ## The stage buffer's operations -/

theorem sbWf_storeByte (m : Mx) (a : Nat) (b : Byte) (h : sbWf m) : sbWf (storeByte m a b) :=
  ⟨wf_memSet _ _ _ h.1, wf_memSet _ _ _ h.2⟩

/-- Marking a line as written moves no byte. -/
@[simp] theorem lineWritten_data (m : Mx) (l : Nat) : (lineWritten m l).sb.data = m.sb.data := by
  unfold lineWritten setTrack
  dsimp only
  repeat' split
  all_goals rfl

@[simp] theorem lineWritten_chk (m : Mx) (l : Nat) : (lineWritten m l).sb.chk = m.sb.chk := by
  unfold lineWritten setTrack
  dsimp only
  repeat' split
  all_goals rfl

theorem sbWf_lineWritten (m : Mx) (l : Nat) (h : sbWf m) : sbWf (lineWritten m l) := by simpa [sbWf] using h

theorem sbWf_storeBytes (m : Mx) (a : Nat) (bs : List Byte) (h : sbWf m) : sbWf (storeBytes m a bs) := by
  induction bs generalizing m a with
  | nil => exact h
  | cons b t ih => exact ih _ _ (sbWf_lineWritten _ _ (sbWf_storeByte _ _ _ h))

/-- A write into a reservation keeps the canonical form. -/
theorem sbWf_resvWrite (m : Mx) (o : ROwner) (off : Nat) (bs : List Byte) (h : sbWf m) : sbWf (resvWrite m o off bs) := by
  have key : ∀ (bs : List Byte) (x : Mx × Nat) (ls : List Nat), sbWf x.1 →
      sbWf (bs.foldl (fun (x : Mx × Nat) b =>
        match ls[x.2 / 128]? with
        | some l => (lineWritten (storeByte x.1 (128 * l + x.2 % 128) b) l, x.2 + 1)
        | none => (x.1, x.2 + 1)) x).1 := by
    intro bs
    induction bs with
    | nil => intro x ls h; exact h
    | cons b t ih =>
      intro x ls h
      rw [List.foldl_cons]
      apply ih
      split
      · exact sbWf_lineWritten _ _ (sbWf_storeByte _ _ _ h)
      · exact h
  exact key bs (m, off) (resvLines m o) h

/-- A write through the aperture keeps the canonical form. -/
theorem sbWf_apWrite (a : Nat) (v : Word) (m : Mx) (h : sbWf m) : sbWf (apWrite a v m) := by
  unfold apWrite
  dsimp only
  split
  · exact ⟨h.1, wf_memWrite _ _ _ h.2⟩
  · exact sbWf_storeBytes _ _ _ h

/-- The self-test's zero-fill leaves the canonical form. -/
theorem sbWf_bistEnd (m : Mx) : sbWf (bistEnd m) := ⟨rfl, rfl⟩

end Sys2Proof.Machine
end

