-- ==== Sys2Proof/Laws/Ops.lean ====
section
/-! SUPPORT. What each shared operation can do: the parts it keeps, what a raised source leaves pending, and what an access
of a register does (02_boundary.md R66; 13_interrupts.md R469–R487; 14_dome_nightlog.md R518). -/

namespace Sys2Proof.Machine

@[simp] theorem arrive_regs (m : Mx) (a : Arrival) : (arrive m a).regs = m.regs := by
  unfold arrive; split <;> rfl
@[simp] theorem arrive_gl (m : Mx) (a : Arrival) : (arrive m a).gl = m.gl := by
  unfold arrive; split <;> rfl
@[simp] theorem arrive_cp (m : Mx) (a : Arrival) : (arrive m a).cp = m.cp := by
  unfold arrive; split <;> rfl
@[simp] theorem arrive_hp (m : Mx) (a : Arrival) : (arrive m a).hp = m.hp := by
  unfold arrive; split <;> rfl
@[simp] theorem arrive_qe (m : Mx) (a : Arrival) : (arrive m a).qe = m.qe := by
  unfold arrive; split <;> rfl
@[simp] theorem arrive_ents (m : Mx) (a : Arrival) : (arrive m a).ents = m.ents := by
  unfold arrive; split <;> rfl
@[simp] theorem arrive_dx (m : Mx) (a : Arrival) : (arrive m a).dx = m.dx := by
  unfold arrive; split <;> rfl
@[simp] theorem arrive_sb (m : Mx) (a : Arrival) : (arrive m a).sb = m.sb := by
  unfold arrive; split <;> rfl
@[simp] theorem arrive_ch (m : Mx) (a : Arrival) : (arrive m a).ch = m.ch := by
  unfold arrive; split <;> rfl
@[simp] theorem arrive_die (m : Mx) (a : Arrival) : (arrive m a).die = m.die := by
  unfold arrive; split <;> rfl
@[simp] theorem arrive_mc (m : Mx) (a : Arrival) : (arrive m a).mc = m.mc := by
  unfold arrive; split <;> rfl
@[simp] theorem arrive_ph (m : Mx) (a : Arrival) : (arrive m a).ph = m.ph := by
  unfold arrive; split <;> rfl
@[simp] theorem arrive_cx (m : Mx) (a : Arrival) : (arrive m a).cx = m.cx := by
  unfold arrive; split <;> rfl
@[simp] theorem arrive_sg (m : Mx) (a : Arrival) : (arrive m a).sg = m.sg := by
  unfold arrive; split <;> rfl
@[simp] theorem arrive_st (m : Mx) (a : Arrival) : (arrive m a).st = m.st := by
  unfold arrive; split <;> rfl
@[simp] theorem arrive_md (m : Mx) (a : Arrival) : (arrive m a).md = m.md := by
  unfold arrive; split <;> rfl
@[simp] theorem arrive_tr (m : Mx) (a : Arrival) : (arrive m a).tr = m.tr := by
  unfold arrive; split <;> rfl
@[simp] theorem arrive_ic (m : Mx) (a : Arrival) : (arrive m a).ic = m.ic := by
  unfold arrive; split <;> rfl
@[simp] theorem arrive_dm (m : Mx) (a : Arrival) : (arrive m a).dm = m.dm := by
  unfold arrive; split <;> rfl
@[simp] theorem arrive_bt (m : Mx) (a : Arrival) : (arrive m a).bt = m.bt := by
  unfold arrive; split <;> rfl
@[simp] theorem arrive_wr (m : Mx) (a : Arrival) : (arrive m a).wr = m.wr := by
  unfold arrive; split <;> rfl
@[simp] theorem arrive_free (m : Mx) (a : Arrival) : (arrive m a).free = m.free := by
  unfold arrive; split <;> rfl

@[simp] theorem log_regs (m : Mx) (k : RecKind) (x y z : Nat) : (log m k x y z).regs = m.regs := by
  simp [log]
@[simp] theorem log_gl (m : Mx) (k : RecKind) (x y z : Nat) : (log m k x y z).gl = m.gl := by
  simp [log]
@[simp] theorem log_cp (m : Mx) (k : RecKind) (x y z : Nat) : (log m k x y z).cp = m.cp := by
  simp [log]
@[simp] theorem log_hp (m : Mx) (k : RecKind) (x y z : Nat) : (log m k x y z).hp = m.hp := by
  simp [log]
@[simp] theorem log_qe (m : Mx) (k : RecKind) (x y z : Nat) : (log m k x y z).qe = m.qe := by
  simp [log]
@[simp] theorem log_ents (m : Mx) (k : RecKind) (x y z : Nat) : (log m k x y z).ents = m.ents := by
  simp [log]
@[simp] theorem log_dx (m : Mx) (k : RecKind) (x y z : Nat) : (log m k x y z).dx = m.dx := by
  simp [log]
@[simp] theorem log_sb (m : Mx) (k : RecKind) (x y z : Nat) : (log m k x y z).sb = m.sb := by
  simp [log]
@[simp] theorem log_ch (m : Mx) (k : RecKind) (x y z : Nat) : (log m k x y z).ch = m.ch := by
  simp [log]
@[simp] theorem log_die (m : Mx) (k : RecKind) (x y z : Nat) : (log m k x y z).die = m.die := by
  simp [log]
@[simp] theorem log_mc (m : Mx) (k : RecKind) (x y z : Nat) : (log m k x y z).mc = m.mc := by
  simp [log]
@[simp] theorem log_ph (m : Mx) (k : RecKind) (x y z : Nat) : (log m k x y z).ph = m.ph := by
  simp [log]
@[simp] theorem log_cx (m : Mx) (k : RecKind) (x y z : Nat) : (log m k x y z).cx = m.cx := by
  simp [log]
@[simp] theorem log_sg (m : Mx) (k : RecKind) (x y z : Nat) : (log m k x y z).sg = m.sg := by
  simp [log]
@[simp] theorem log_st (m : Mx) (k : RecKind) (x y z : Nat) : (log m k x y z).st = m.st := by
  simp [log]
@[simp] theorem log_md (m : Mx) (k : RecKind) (x y z : Nat) : (log m k x y z).md = m.md := by
  simp [log]
@[simp] theorem log_tr (m : Mx) (k : RecKind) (x y z : Nat) : (log m k x y z).tr = m.tr := by
  simp [log]
@[simp] theorem log_ic (m : Mx) (k : RecKind) (x y z : Nat) : (log m k x y z).ic = m.ic := by
  simp [log]
@[simp] theorem log_dm (m : Mx) (k : RecKind) (x y z : Nat) : (log m k x y z).dm = m.dm := by
  simp [log]
@[simp] theorem log_bt (m : Mx) (k : RecKind) (x y z : Nat) : (log m k x y z).bt = m.bt := by
  simp [log]
@[simp] theorem log_wr (m : Mx) (k : RecKind) (x y z : Nat) : (log m k x y z).wr = m.wr := by
  simp [log]
@[simp] theorem log_free (m : Mx) (k : RecKind) (x y z : Nat) : (log m k x y z).free = m.free := by
  simp [log]

@[simp] theorem pump_regs (m : Mx) (i : Nat) : (pump m i).regs = m.regs := by
  simp [pump]
@[simp] theorem pump_gl (m : Mx) (i : Nat) : (pump m i).gl = m.gl := by
  simp [pump]
@[simp] theorem pump_cp (m : Mx) (i : Nat) : (pump m i).cp = m.cp := by
  simp [pump]
@[simp] theorem pump_qe (m : Mx) (i : Nat) : (pump m i).qe = m.qe := by
  simp [pump]
@[simp] theorem pump_ents (m : Mx) (i : Nat) : (pump m i).ents = m.ents := by
  simp [pump]
@[simp] theorem pump_dx (m : Mx) (i : Nat) : (pump m i).dx = m.dx := by
  simp [pump]
@[simp] theorem pump_sb (m : Mx) (i : Nat) : (pump m i).sb = m.sb := by
  simp [pump]
@[simp] theorem pump_ch (m : Mx) (i : Nat) : (pump m i).ch = m.ch := by
  simp [pump]
@[simp] theorem pump_die (m : Mx) (i : Nat) : (pump m i).die = m.die := by
  simp [pump]
@[simp] theorem pump_mc (m : Mx) (i : Nat) : (pump m i).mc = m.mc := by
  simp [pump]
@[simp] theorem pump_ph (m : Mx) (i : Nat) : (pump m i).ph = m.ph := by
  simp [pump]
@[simp] theorem pump_cx (m : Mx) (i : Nat) : (pump m i).cx = m.cx := by
  simp [pump]
@[simp] theorem pump_sg (m : Mx) (i : Nat) : (pump m i).sg = m.sg := by
  simp [pump]
@[simp] theorem pump_st (m : Mx) (i : Nat) : (pump m i).st = m.st := by
  simp [pump]
@[simp] theorem pump_md (m : Mx) (i : Nat) : (pump m i).md = m.md := by
  simp [pump]
@[simp] theorem pump_tr (m : Mx) (i : Nat) : (pump m i).tr = m.tr := by
  simp [pump]
@[simp] theorem pump_ic (m : Mx) (i : Nat) : (pump m i).ic = m.ic := by
  simp [pump]
@[simp] theorem pump_dm (m : Mx) (i : Nat) : (pump m i).dm = m.dm := by
  simp [pump]
@[simp] theorem pump_nl (m : Mx) (i : Nat) : (pump m i).nl = m.nl := by
  simp [pump]
@[simp] theorem pump_bt (m : Mx) (i : Nat) : (pump m i).bt = m.bt := by
  simp [pump]
@[simp] theorem pump_wr (m : Mx) (i : Nat) : (pump m i).wr = m.wr := by
  simp [pump]

@[simp] theorem request_regs (m : Mx) (i : Nat) (q : Req) : (request m i q).regs = m.regs := by
  simp [request]
@[simp] theorem request_gl (m : Mx) (i : Nat) (q : Req) : (request m i q).gl = m.gl := by
  simp [request]
@[simp] theorem request_cp (m : Mx) (i : Nat) (q : Req) : (request m i q).cp = m.cp := by
  simp [request]
@[simp] theorem request_qe (m : Mx) (i : Nat) (q : Req) : (request m i q).qe = m.qe := by
  simp [request]
@[simp] theorem request_ents (m : Mx) (i : Nat) (q : Req) : (request m i q).ents = m.ents := by
  simp [request]
@[simp] theorem request_dx (m : Mx) (i : Nat) (q : Req) : (request m i q).dx = m.dx := by
  simp [request]
@[simp] theorem request_sb (m : Mx) (i : Nat) (q : Req) : (request m i q).sb = m.sb := by
  simp [request]
@[simp] theorem request_ch (m : Mx) (i : Nat) (q : Req) : (request m i q).ch = m.ch := by
  simp [request]
@[simp] theorem request_die (m : Mx) (i : Nat) (q : Req) : (request m i q).die = m.die := by
  simp [request]
@[simp] theorem request_mc (m : Mx) (i : Nat) (q : Req) : (request m i q).mc = m.mc := by
  simp [request]
@[simp] theorem request_ph (m : Mx) (i : Nat) (q : Req) : (request m i q).ph = m.ph := by
  simp [request]
@[simp] theorem request_cx (m : Mx) (i : Nat) (q : Req) : (request m i q).cx = m.cx := by
  simp [request]
@[simp] theorem request_sg (m : Mx) (i : Nat) (q : Req) : (request m i q).sg = m.sg := by
  simp [request]
@[simp] theorem request_st (m : Mx) (i : Nat) (q : Req) : (request m i q).st = m.st := by
  simp [request]
@[simp] theorem request_md (m : Mx) (i : Nat) (q : Req) : (request m i q).md = m.md := by
  simp [request]
@[simp] theorem request_tr (m : Mx) (i : Nat) (q : Req) : (request m i q).tr = m.tr := by
  simp [request]
@[simp] theorem request_ic (m : Mx) (i : Nat) (q : Req) : (request m i q).ic = m.ic := by
  simp [request]
@[simp] theorem request_dm (m : Mx) (i : Nat) (q : Req) : (request m i q).dm = m.dm := by
  simp [request]
@[simp] theorem request_nl (m : Mx) (i : Nat) (q : Req) : (request m i q).nl = m.nl := by
  simp [request]
@[simp] theorem request_bt (m : Mx) (i : Nat) (q : Req) : (request m i q).bt = m.bt := by
  simp [request]
@[simp] theorem request_wr (m : Mx) (i : Nat) (q : Req) : (request m i q).wr = m.wr := by
  simp [request]

@[simp] theorem msgFault_regs (m : Mx) (t : Nat) (c : Cause) : (msgFault m t c).regs = m.regs := by
  simp [msgFault]
@[simp] theorem msgFault_gl (m : Mx) (t : Nat) (c : Cause) : (msgFault m t c).gl = m.gl := by
  simp [msgFault]
@[simp] theorem msgFault_cp (m : Mx) (t : Nat) (c : Cause) : (msgFault m t c).cp = m.cp := by
  simp [msgFault]
@[simp] theorem msgFault_qe (m : Mx) (t : Nat) (c : Cause) : (msgFault m t c).qe = m.qe := by
  simp [msgFault]
@[simp] theorem msgFault_ents (m : Mx) (t : Nat) (c : Cause) : (msgFault m t c).ents = m.ents := by
  simp [msgFault]
@[simp] theorem msgFault_dx (m : Mx) (t : Nat) (c : Cause) : (msgFault m t c).dx = m.dx := by
  simp [msgFault]
@[simp] theorem msgFault_sb (m : Mx) (t : Nat) (c : Cause) : (msgFault m t c).sb = m.sb := by
  simp [msgFault]
@[simp] theorem msgFault_ch (m : Mx) (t : Nat) (c : Cause) : (msgFault m t c).ch = m.ch := by
  simp [msgFault]
@[simp] theorem msgFault_die (m : Mx) (t : Nat) (c : Cause) : (msgFault m t c).die = m.die := by
  simp [msgFault]
@[simp] theorem msgFault_mc (m : Mx) (t : Nat) (c : Cause) : (msgFault m t c).mc = m.mc := by
  simp [msgFault]
@[simp] theorem msgFault_ph (m : Mx) (t : Nat) (c : Cause) : (msgFault m t c).ph = m.ph := by
  simp [msgFault]
@[simp] theorem msgFault_cx (m : Mx) (t : Nat) (c : Cause) : (msgFault m t c).cx = m.cx := by
  simp [msgFault]
@[simp] theorem msgFault_sg (m : Mx) (t : Nat) (c : Cause) : (msgFault m t c).sg = m.sg := by
  simp [msgFault]
@[simp] theorem msgFault_st (m : Mx) (t : Nat) (c : Cause) : (msgFault m t c).st = m.st := by
  simp [msgFault]
@[simp] theorem msgFault_md (m : Mx) (t : Nat) (c : Cause) : (msgFault m t c).md = m.md := by
  simp [msgFault]
@[simp] theorem msgFault_tr (m : Mx) (t : Nat) (c : Cause) : (msgFault m t c).tr = m.tr := by
  simp [msgFault]
@[simp] theorem msgFault_dm (m : Mx) (t : Nat) (c : Cause) : (msgFault m t c).dm = m.dm := by
  simp [msgFault]
@[simp] theorem msgFault_bt (m : Mx) (t : Nat) (c : Cause) : (msgFault m t c).bt = m.bt := by
  simp [msgFault]
@[simp] theorem msgFault_wr (m : Mx) (t : Nat) (c : Cause) : (msgFault m t c).wr = m.wr := by
  simp [msgFault]

@[simp] theorem sendMsg_regs (m : Mx) (t : Nat) : ((sendMsg m t).1).regs = m.regs := by
  unfold sendMsg; dsimp only; split <;> simp
@[simp] theorem sendMsg_gl (m : Mx) (t : Nat) : ((sendMsg m t).1).gl = m.gl := by
  unfold sendMsg; dsimp only; split <;> simp
@[simp] theorem sendMsg_cp (m : Mx) (t : Nat) : ((sendMsg m t).1).cp = m.cp := by
  unfold sendMsg; dsimp only; split <;> simp
@[simp] theorem sendMsg_qe (m : Mx) (t : Nat) : ((sendMsg m t).1).qe = m.qe := by
  unfold sendMsg; dsimp only; split <;> simp
@[simp] theorem sendMsg_ents (m : Mx) (t : Nat) : ((sendMsg m t).1).ents = m.ents := by
  unfold sendMsg; dsimp only; split <;> simp
@[simp] theorem sendMsg_dx (m : Mx) (t : Nat) : ((sendMsg m t).1).dx = m.dx := by
  unfold sendMsg; dsimp only; split <;> simp
@[simp] theorem sendMsg_sb (m : Mx) (t : Nat) : ((sendMsg m t).1).sb = m.sb := by
  unfold sendMsg; dsimp only; split <;> simp
@[simp] theorem sendMsg_ch (m : Mx) (t : Nat) : ((sendMsg m t).1).ch = m.ch := by
  unfold sendMsg; dsimp only; split <;> simp
@[simp] theorem sendMsg_die (m : Mx) (t : Nat) : ((sendMsg m t).1).die = m.die := by
  unfold sendMsg; dsimp only; split <;> simp
@[simp] theorem sendMsg_mc (m : Mx) (t : Nat) : ((sendMsg m t).1).mc = m.mc := by
  unfold sendMsg; dsimp only; split <;> simp
@[simp] theorem sendMsg_ph (m : Mx) (t : Nat) : ((sendMsg m t).1).ph = m.ph := by
  unfold sendMsg; dsimp only; split <;> simp
@[simp] theorem sendMsg_cx (m : Mx) (t : Nat) : ((sendMsg m t).1).cx = m.cx := by
  unfold sendMsg; dsimp only; split <;> simp
@[simp] theorem sendMsg_sg (m : Mx) (t : Nat) : ((sendMsg m t).1).sg = m.sg := by
  unfold sendMsg; dsimp only; split <;> simp
@[simp] theorem sendMsg_st (m : Mx) (t : Nat) : ((sendMsg m t).1).st = m.st := by
  unfold sendMsg; dsimp only; split <;> simp
@[simp] theorem sendMsg_md (m : Mx) (t : Nat) : ((sendMsg m t).1).md = m.md := by
  unfold sendMsg; dsimp only; split <;> simp
@[simp] theorem sendMsg_tr (m : Mx) (t : Nat) : ((sendMsg m t).1).tr = m.tr := by
  unfold sendMsg; dsimp only; split <;> simp
@[simp] theorem sendMsg_dm (m : Mx) (t : Nat) : ((sendMsg m t).1).dm = m.dm := by
  unfold sendMsg; dsimp only; split <;> simp
@[simp] theorem sendMsg_bt (m : Mx) (t : Nat) : ((sendMsg m t).1).bt = m.bt := by
  unfold sendMsg; dsimp only; split <;> simp
@[simp] theorem sendMsg_wr (m : Mx) (t : Nat) : ((sendMsg m t).1).wr = m.wr := by
  unfold sendMsg; dsimp only; split <;> simp

@[simp] theorem judge_regs (m : Mx) (t : Nat) : ((judge m t).1).regs = m.regs := by
  unfold judge; dsimp only; repeat' split
  all_goals simp
@[simp] theorem judge_gl (m : Mx) (t : Nat) : ((judge m t).1).gl = m.gl := by
  unfold judge; dsimp only; repeat' split
  all_goals simp
@[simp] theorem judge_cp (m : Mx) (t : Nat) : ((judge m t).1).cp = m.cp := by
  unfold judge; dsimp only; repeat' split
  all_goals simp
@[simp] theorem judge_qe (m : Mx) (t : Nat) : ((judge m t).1).qe = m.qe := by
  unfold judge; dsimp only; repeat' split
  all_goals simp
@[simp] theorem judge_ents (m : Mx) (t : Nat) : ((judge m t).1).ents = m.ents := by
  unfold judge; dsimp only; repeat' split
  all_goals simp
@[simp] theorem judge_dx (m : Mx) (t : Nat) : ((judge m t).1).dx = m.dx := by
  unfold judge; dsimp only; repeat' split
  all_goals simp
@[simp] theorem judge_sb (m : Mx) (t : Nat) : ((judge m t).1).sb = m.sb := by
  unfold judge; dsimp only; repeat' split
  all_goals simp
@[simp] theorem judge_ch (m : Mx) (t : Nat) : ((judge m t).1).ch = m.ch := by
  unfold judge; dsimp only; repeat' split
  all_goals simp
@[simp] theorem judge_die (m : Mx) (t : Nat) : ((judge m t).1).die = m.die := by
  unfold judge; dsimp only; repeat' split
  all_goals simp
@[simp] theorem judge_mc (m : Mx) (t : Nat) : ((judge m t).1).mc = m.mc := by
  unfold judge; dsimp only; repeat' split
  all_goals simp
@[simp] theorem judge_ph (m : Mx) (t : Nat) : ((judge m t).1).ph = m.ph := by
  unfold judge; dsimp only; repeat' split
  all_goals simp
@[simp] theorem judge_cx (m : Mx) (t : Nat) : ((judge m t).1).cx = m.cx := by
  unfold judge; dsimp only; repeat' split
  all_goals simp
@[simp] theorem judge_sg (m : Mx) (t : Nat) : ((judge m t).1).sg = m.sg := by
  unfold judge; dsimp only; repeat' split
  all_goals simp
@[simp] theorem judge_st (m : Mx) (t : Nat) : ((judge m t).1).st = m.st := by
  unfold judge; dsimp only; repeat' split
  all_goals simp
@[simp] theorem judge_md (m : Mx) (t : Nat) : ((judge m t).1).md = m.md := by
  unfold judge; dsimp only; repeat' split
  all_goals simp
@[simp] theorem judge_tr (m : Mx) (t : Nat) : ((judge m t).1).tr = m.tr := by
  unfold judge; dsimp only; repeat' split
  all_goals simp
@[simp] theorem judge_dm (m : Mx) (t : Nat) : ((judge m t).1).dm = m.dm := by
  unfold judge; dsimp only; repeat' split
  all_goals simp
@[simp] theorem judge_bt (m : Mx) (t : Nat) : ((judge m t).1).bt = m.bt := by
  unfold judge; dsimp only; repeat' split
  all_goals simp
@[simp] theorem judge_wr (m : Mx) (t : Nat) : ((judge m t).1).wr = m.wr := by
  unfold judge; dsimp only; repeat' split
  all_goals simp

@[simp] theorem judgeAll_regs (m : Mx) (l : List Nat) : ((judgeAll m l).1).regs = m.regs := by
  induction l generalizing m with
  | nil => rfl
  | cons t l ih => simp [judgeAll, ih]
@[simp] theorem judgeAll_gl (m : Mx) (l : List Nat) : ((judgeAll m l).1).gl = m.gl := by
  induction l generalizing m with
  | nil => rfl
  | cons t l ih => simp [judgeAll, ih]
@[simp] theorem judgeAll_cp (m : Mx) (l : List Nat) : ((judgeAll m l).1).cp = m.cp := by
  induction l generalizing m with
  | nil => rfl
  | cons t l ih => simp [judgeAll, ih]
@[simp] theorem judgeAll_qe (m : Mx) (l : List Nat) : ((judgeAll m l).1).qe = m.qe := by
  induction l generalizing m with
  | nil => rfl
  | cons t l ih => simp [judgeAll, ih]
@[simp] theorem judgeAll_ents (m : Mx) (l : List Nat) : ((judgeAll m l).1).ents = m.ents := by
  induction l generalizing m with
  | nil => rfl
  | cons t l ih => simp [judgeAll, ih]
@[simp] theorem judgeAll_dx (m : Mx) (l : List Nat) : ((judgeAll m l).1).dx = m.dx := by
  induction l generalizing m with
  | nil => rfl
  | cons t l ih => simp [judgeAll, ih]
@[simp] theorem judgeAll_sb (m : Mx) (l : List Nat) : ((judgeAll m l).1).sb = m.sb := by
  induction l generalizing m with
  | nil => rfl
  | cons t l ih => simp [judgeAll, ih]
@[simp] theorem judgeAll_ch (m : Mx) (l : List Nat) : ((judgeAll m l).1).ch = m.ch := by
  induction l generalizing m with
  | nil => rfl
  | cons t l ih => simp [judgeAll, ih]
@[simp] theorem judgeAll_die (m : Mx) (l : List Nat) : ((judgeAll m l).1).die = m.die := by
  induction l generalizing m with
  | nil => rfl
  | cons t l ih => simp [judgeAll, ih]
@[simp] theorem judgeAll_mc (m : Mx) (l : List Nat) : ((judgeAll m l).1).mc = m.mc := by
  induction l generalizing m with
  | nil => rfl
  | cons t l ih => simp [judgeAll, ih]
@[simp] theorem judgeAll_ph (m : Mx) (l : List Nat) : ((judgeAll m l).1).ph = m.ph := by
  induction l generalizing m with
  | nil => rfl
  | cons t l ih => simp [judgeAll, ih]
@[simp] theorem judgeAll_cx (m : Mx) (l : List Nat) : ((judgeAll m l).1).cx = m.cx := by
  induction l generalizing m with
  | nil => rfl
  | cons t l ih => simp [judgeAll, ih]
@[simp] theorem judgeAll_sg (m : Mx) (l : List Nat) : ((judgeAll m l).1).sg = m.sg := by
  induction l generalizing m with
  | nil => rfl
  | cons t l ih => simp [judgeAll, ih]
@[simp] theorem judgeAll_st (m : Mx) (l : List Nat) : ((judgeAll m l).1).st = m.st := by
  induction l generalizing m with
  | nil => rfl
  | cons t l ih => simp [judgeAll, ih]
@[simp] theorem judgeAll_md (m : Mx) (l : List Nat) : ((judgeAll m l).1).md = m.md := by
  induction l generalizing m with
  | nil => rfl
  | cons t l ih => simp [judgeAll, ih]
@[simp] theorem judgeAll_tr (m : Mx) (l : List Nat) : ((judgeAll m l).1).tr = m.tr := by
  induction l generalizing m with
  | nil => rfl
  | cons t l ih => simp [judgeAll, ih]
@[simp] theorem judgeAll_dm (m : Mx) (l : List Nat) : ((judgeAll m l).1).dm = m.dm := by
  induction l generalizing m with
  | nil => rfl
  | cons t l ih => simp [judgeAll, ih]
@[simp] theorem judgeAll_bt (m : Mx) (l : List Nat) : ((judgeAll m l).1).bt = m.bt := by
  induction l generalizing m with
  | nil => rfl
  | cons t l ih => simp [judgeAll, ih]
@[simp] theorem judgeAll_wr (m : Mx) (l : List Nat) : ((judgeAll m l).1).wr = m.wr := by
  induction l generalizing m with
  | nil => rfl
  | cons t l ih => simp [judgeAll, ih]

@[simp] theorem deliver_regs (m : Mx) : (deliver m).regs = m.regs := by
  unfold deliver; dsimp only; split <;> simp
@[simp] theorem deliver_gl (m : Mx) : (deliver m).gl = m.gl := by
  unfold deliver; dsimp only; split <;> simp
@[simp] theorem deliver_cp (m : Mx) : (deliver m).cp = m.cp := by
  unfold deliver; dsimp only; split <;> simp
@[simp] theorem deliver_qe (m : Mx) : (deliver m).qe = m.qe := by
  unfold deliver; dsimp only; split <;> simp
@[simp] theorem deliver_ents (m : Mx) : (deliver m).ents = m.ents := by
  unfold deliver; dsimp only; split <;> simp
@[simp] theorem deliver_dx (m : Mx) : (deliver m).dx = m.dx := by
  unfold deliver; dsimp only; split <;> simp
@[simp] theorem deliver_sb (m : Mx) : (deliver m).sb = m.sb := by
  unfold deliver; dsimp only; split <;> simp
@[simp] theorem deliver_ch (m : Mx) : (deliver m).ch = m.ch := by
  unfold deliver; dsimp only; split <;> simp
@[simp] theorem deliver_die (m : Mx) : (deliver m).die = m.die := by
  unfold deliver; dsimp only; split <;> simp
@[simp] theorem deliver_mc (m : Mx) : (deliver m).mc = m.mc := by
  unfold deliver; dsimp only; split <;> simp
@[simp] theorem deliver_ph (m : Mx) : (deliver m).ph = m.ph := by
  unfold deliver; dsimp only; split <;> simp
@[simp] theorem deliver_cx (m : Mx) : (deliver m).cx = m.cx := by
  unfold deliver; dsimp only; split <;> simp
@[simp] theorem deliver_sg (m : Mx) : (deliver m).sg = m.sg := by
  unfold deliver; dsimp only; split <;> simp
@[simp] theorem deliver_st (m : Mx) : (deliver m).st = m.st := by
  unfold deliver; dsimp only; split <;> simp
@[simp] theorem deliver_md (m : Mx) : (deliver m).md = m.md := by
  unfold deliver; dsimp only; split <;> simp
@[simp] theorem deliver_tr (m : Mx) : (deliver m).tr = m.tr := by
  unfold deliver; dsimp only; split <;> simp
@[simp] theorem deliver_dm (m : Mx) : (deliver m).dm = m.dm := by
  unfold deliver; dsimp only; split <;> simp
@[simp] theorem deliver_bt (m : Mx) : (deliver m).bt = m.bt := by
  unfold deliver; dsimp only; split <;> simp
@[simp] theorem deliver_wr (m : Mx) : (deliver m).wr = m.wr := by
  unfold deliver; dsimp only; split <;> simp

@[simp] theorem raise_regs (m : Mx) (k : Nat) : (raise m k).regs = m.regs := by
  simp [raise]
@[simp] theorem raise_gl (m : Mx) (k : Nat) : (raise m k).gl = m.gl := by
  simp [raise]
@[simp] theorem raise_cp (m : Mx) (k : Nat) : (raise m k).cp = m.cp := by
  simp [raise]
@[simp] theorem raise_qe (m : Mx) (k : Nat) : (raise m k).qe = m.qe := by
  simp [raise]
@[simp] theorem raise_ents (m : Mx) (k : Nat) : (raise m k).ents = m.ents := by
  simp [raise]
@[simp] theorem raise_dx (m : Mx) (k : Nat) : (raise m k).dx = m.dx := by
  simp [raise]
@[simp] theorem raise_sb (m : Mx) (k : Nat) : (raise m k).sb = m.sb := by
  simp [raise]
@[simp] theorem raise_ch (m : Mx) (k : Nat) : (raise m k).ch = m.ch := by
  simp [raise]
@[simp] theorem raise_die (m : Mx) (k : Nat) : (raise m k).die = m.die := by
  simp [raise]
@[simp] theorem raise_mc (m : Mx) (k : Nat) : (raise m k).mc = m.mc := by
  simp [raise]
@[simp] theorem raise_ph (m : Mx) (k : Nat) : (raise m k).ph = m.ph := by
  simp [raise]
@[simp] theorem raise_cx (m : Mx) (k : Nat) : (raise m k).cx = m.cx := by
  simp [raise]
@[simp] theorem raise_sg (m : Mx) (k : Nat) : (raise m k).sg = m.sg := by
  simp [raise]
@[simp] theorem raise_st (m : Mx) (k : Nat) : (raise m k).st = m.st := by
  simp [raise]
@[simp] theorem raise_md (m : Mx) (k : Nat) : (raise m k).md = m.md := by
  simp [raise]
@[simp] theorem raise_tr (m : Mx) (k : Nat) : (raise m k).tr = m.tr := by
  simp [raise]
@[simp] theorem raise_dm (m : Mx) (k : Nat) : (raise m k).dm = m.dm := by
  simp [raise]
@[simp] theorem raise_bt (m : Mx) (k : Nat) : (raise m k).bt = m.bt := by
  simp [raise]
@[simp] theorem raise_wr (m : Mx) (k : Nat) : (raise m k).wr = m.wr := by
  simp [raise]

/-! ## Pending sources -/

theorem mem_insN (l : List Nat) (a x : Nat) : x ∈ insN l a ↔ x = a ∨ x ∈ l := by
  induction l with
  | nil => simp [insN]
  | cons k t ih =>
    unfold insN
    split
    · subst_vars; simp
    · split
      · simp
      · simp only [List.mem_cons, ih]; exact or_left_comm

@[simp] theorem setTarget_pend (m : Mx) (t : Nat) (v : Target) : (setTarget m t v).ic.pend = m.ic.pend := rfl

@[simp] theorem sendMsg_pend (m : Mx) (t : Nat) : (sendMsg m t).1.ic.pend = m.ic.pend := by
  unfold sendMsg; dsimp only; split <;> simp [msgFault]

@[simp] theorem judge_pend (m : Mx) (t : Nat) : (judge m t).1.ic.pend = m.ic.pend := by
  unfold judge; dsimp only; repeat' split
  all_goals simp

@[simp] theorem judgeAll_pend (m : Mx) (l : List Nat) : (judgeAll m l).1.ic.pend = m.ic.pend := by
  induction l generalizing m with
  | nil => rfl
  | cons t l ih => simp [judgeAll, ih]

/-- Delivery takes no source away. -/
theorem mem_deliver (m : Mx) (x : Nat) (h : x ∈ m.ic.pend) : x ∈ (deliver m).ic.pend := by
  unfold deliver; dsimp only; split
  · simp [setPend, mem_insN, h]
  · simpa using h

/-- A raised source is pending (R469). -/
theorem mem_raise (m : Mx) (k : Nat) : k ∈ (raise m k).ic.pend := by
  unfold raise; exact mem_deliver _ _ (by simp [setPend, mem_insN])

theorem mem_raise_of_mem (m : Mx) (k x : Nat) (h : x ∈ m.ic.pend) : x ∈ (raise m k).ic.pend := by
  unfold raise; exact mem_deliver _ _ (by simp [setPend, mem_insN, h])

/-! ## Sources enabled, claims and fault counts that delivery keeps -/

@[simp] theorem setTarget_en (m : Mx) (t : Nat) (v : Target) : (setTarget m t v).ic.en = m.ic.en := rfl

@[simp] theorem sendMsg_en (m : Mx) (t : Nat) : (sendMsg m t).1.ic.en = m.ic.en := by
  unfold sendMsg; dsimp only; split <;> simp [msgFault]

@[simp] theorem judge_en (m : Mx) (t : Nat) : (judge m t).1.ic.en = m.ic.en := by
  unfold judge; dsimp only; repeat' split
  all_goals simp

@[simp] theorem judgeAll_en (m : Mx) (l : List Nat) : (judgeAll m l).1.ic.en = m.ic.en := by
  induction l generalizing m with
  | nil => rfl
  | cons t l ih => simp [judgeAll, ih]

@[simp] theorem deliver_en (m : Mx) : (deliver m).ic.en = m.ic.en := by
  unfold deliver; dsimp only; split <;> simp [setPend]

@[simp] theorem raise_en (m : Mx) (k : Nat) : (raise m k).ic.en = m.ic.en := by simp [raise, setPend]

/-! ## Register accesses (02_boundary.md R66) -/

/-- An access that is carried out does its register's work with CP_ERR low. -/
theorem access_carried (s : State) (off : Nat) (wr : Bool) (f : Mx → Mx) (h : carried s off) :
    access off wr f s.mx = f (cpOk s.mx) := by
  unfold access accessBe cpOk; simp [h.1, h.2]

/-- A command that writes a register does its work on the complex with CP_ERR low. -/
theorem act_access (s : State) (off : Nat) (wr : Bool) (f : Mx → Mx) (h : carried s off) :
    act s (access off wr f) = .next { s with mx := f (cpOk s.mx) } := by
  unfold act; rw [access_carried s off wr f h]

/-- A write by firmware: the host's through the control port, Dome's at once. -/
theorem writeBy_dome (off : Nat) (f : Mx → Mx) (m : Mx) : writeBy .dome off f m = f m := rfl

theorem writeBy_host (s : State) (off : Nat) (f : Mx → Mx) (h : carried s off) :
    writeBy .host off f s.mx = f (cpOk s.mx) := access_carried s off true f h

@[simp] theorem onlyIf_true (f : Mx → Mx) (m : Mx) : onlyIf true f m = f m := rfl

@[simp] theorem onlyIf_false (f : Mx → Mx) (m : Mx) : onlyIf false f m = m := rfl

/-- Something done for no member. -/
@[simp] theorem each_nil {α : Type} (f : α → Mx → Mx) (m : Mx) : each [] f m = m := rfl

/-- What holds at first and after every member's turn holds at the end. -/
theorem each_inv {α : Type} (P : Mx → Prop) (l : List α) (f : α → Mx → Mx) (m : Mx) (h : P m)
    (hs : ∀ a x, P x → P (f a x)) : P (each l f m) := by
  unfold each
  induction l generalizing m with
  | nil => exact h
  | cons a l ih => exact ih _ (hs a m h)

/-- An access that R66 refuses. -/
theorem access_refused (m : Mx) (off c : Nat) (wr : Bool) (f : Mx → Mx) (h : m.gl.porstN = true)
    (hc : accessCause m off 15 = some c) : access off wr f m = cpRefuse m off wr c := by
  unfold access accessBe; simp [h, hc]

end Sys2Proof.Machine
end

