-- ==== Sys2Proof/Tests/Slice0.lean ====
section
/-! SUPPORT. Tests: ill-formed commands, the manual's own examples, and a witness for the hypotheses of every clause of
the statements. Each test names the rule that its expected result comes from. -/

namespace Sys2Proof.Tests
open Sys2Proof Sys2Proof.Machine

set_option Elab.async false

/-! ## States that the tests start from -/

/-- A complex in READY with nothing in it. -/
def wMx : Mx := { gl := { phase := .ready } }

/-- A machine with no command waiting. -/
def wSt (m : Mx) : State := { mx := m }

def wPort (p : Port) : Mx := { wMx with hp := [(3, p)] }

def wPkg (seq : Nat) : List Byte :=
  leBytes 4 0x454D4F44 ++ leBytes 2 1 ++ leBytes 2 0 ++ leBytes 4 seq ++ leBytes 4 0 ++ leBytes 4 7 ++ leBytes 4 0x180 ++ leBytes 4 0 ++ leBytes 4 0x180 ++ leBytes 4 0 ++ List.replicate 36 0 ++ leBytes 4 480 ++ List.replicate 404 0

def wCfgRec : List Byte := [0x43, 0x4E, 0x46, 0x47, 1, 0, 0, 0] ++ List.replicate 56 0

def wPort3 (p : Port) : State := wSt { wMx with hp := [(3, p)] }

def wFetchReq : Req := { op := .read, addr := 0x1000, beats := 1, why := .fetch 263 }

def wOrd : Req := { op := .writeOrd, addr := 0x1000, beats := 1, why := .cplOrd 5 }

def wBody : Req := { op := .write, addr := 0x1000, beats := 1, why := .cplBody 5 }

/-- The bytes of an entry: values by byte offset. -/
def wRaw (l : List (Nat × Nat)) : BitVec 512 := BitVec.ofNat 512 (l.foldl (fun a x => a + x.2 * 2 ^ (8 * x.1)) 0)

/-- One ring, and one entry of it. -/
def wRing (r : Nat) (g : Ring) : State := wSt { wMx with qe := { rings := [(r, g)] } }

def wEnt (r i : Nat) (g : Ring) (e : Ent) : State :=
  wSt { wMx with qe := { rings := [(r, g)] }, ents := [(eidOf r i, some e)] }

/-- A ring whose next entry to dispatch has these bytes. -/
def wTurn (r : Nat) (l : List (Nat × Nat)) (m : Mx := wMx) : State :=
  wSt { m with qe := { rings := [(r, { state := .active, tail := 1, fetch := 1, cache := [0], live := [0] })] },
               ents := [(eidOf r 0, some { raw := wRaw l })] }

/-- A READ of one codeword, an ERASE, a STRIPE_CLOSE and a REBUILD. -/
def wReadB : List (Nat × Nat) := [(0, 1), (6, 1), (0xE, 1), (0x10, 0x1000), (0x20, 4096), (0x27, 1)]

def wEraseB : List (Nat × Nat) := [(0, 3), (6, 1)]

def wRebuildB : List (Nat × Nat) := [(0, 0x12), (0x10, 0x1000), (0x20, 16), (0x34, 0x80010000)]

def wFillX : Xfer :=
  { owner := .fill (eidOf 255 0), port := 3, ring := 255, opc := 0x28, toHost := false, pat := some 7, left := 128 }

def wFillE : Ent := { raw := wRaw [(0, 0x28), (0x20, 128), (0x30, 0x80000001)], stage := .xferIn }

def wInX : Xfer :=
  { owner := .entryIn (eidOf 255 0), port := 3, ring := 255, opc := 2, toHost := false,
    parts := [{ side := .flat 0x1FFC, runs := [{ off := 0, len := 4 }] }], left := 4 }

def wInE : Ent := { raw := wRaw [(0, 2)], stage := .xferIn }

/-- A REBUILD that waits for its map entry, and the transfer that has brought it. -/
def wRbE : Ent := { raw := wRaw wRebuildB, stage := .stripeWork }

def wMapX : Xfer :=
  { owner := .stMap (eidOf 255 0), port := 3, ring := 255, opc := 0x12, toHost := false,
    lines := [(8, [0x15, 0, 0, 0, 0, 0, 0, 0])] }

/-- A die of the last channel, and its entry. -/
def wD : Nat := dieOf 127 15

def wDie (x : Die) (l : List (Nat × Option Ent) := []) : State := wSt { wMx with die := [(wD, x)], ents := l }

/-- A control-store image with every kind at address 0. -/
def wImg : Img := { iver := 1, entries := List.replicate 32 0 }

def wDieImg (x : Die) (l : List (Nat × Option Ent) := []) : State :=
  wSt { wMx with die := [(wD, x)], ents := l, mc := { cl := [(31, { img := some wImg })] } }

def wChan (c : Chan) (x : Die := {}) : State := wSt { wMx with ch := [(127, c)], die := [(wD, x)], md := { time := 500000 } }

def wErase : Ent := { raw := wRaw [(0, 3), (4, 2047), (6, 1)], stage := .toPlace }

def wProg : Ent := { raw := wRaw [(0, 2), (4, 2047), (6, 1)], stage := .placed }

def wAhead : Ahead := { row := 1, planes := 1, arg0 := 0, arg1 := 0, profile := 1, base := some [3], bin := 2 }

def wReadE : Ent := { raw := wRaw [(0, 1), (4, 2047), (6, 1), (8, 1), (0xE, 1), (0x27, 1)], stage := .toPlace }

/-- A READ_RAW past the end of its die's raw page. -/
def wRawFar : Ent := { raw := wRaw [(0, 5), (4, 2047), (6, 1), (0x20, 65000)], stage := .toPlace }

/-- A control-store word: values by bit place, with the two parity bits. -/
def wWord (l : List (Nat × Nat)) : Microword :=
  let w := BitVec.ofNat 128 (l.foldl (fun a x => a + x.2 * 2 ^ x.1) 0)
  w ||| BitVec.ofNat 128 ((if parityHi w then 0 else 2 ^ 127) + (if parityLo w then 0 else 2 ^ 63))

/-- A die whose frame is at this word. -/
def wAt (w : Microword) (f : Frame := {}) (x : Die := {}) (l : List (Nat × Option Ent) := []) (c : Cluster := {}) : State :=
  wSt { wMx with die := [(wD, { x with frame := { f with active := true } })], ents := l,
                 mc := { cl := [(31, { c with store := [(0, w)] })] } }

def wBus (m : Mx) : State := wSt { m with ch := [(127, { tenure := true, owner := some 15 })] }

def wEr : Ent := { raw := wRaw [(0, 3), (4, 2047), (6, 1)], stage := .placed }

/-- A group of one channel of sixteen dies, Fervon allowed and its standard and second sets accepted. -/
def wPhy (p : Phy) (c : Word := 0x80284000) : State :=
  wSt { wMx with regs := [(0x2C, 0x80000000), (phOff 31 0, c)], ph := { grp := [(31, p)] },
                 die := (List.range 16).map (fun i => (2032 + i, { cap := some (24, 1) })),
                 mc := { cl := [(31, { img := some wImg })] }, md := { time := 200000000 } }

def wRun : List Byte := List.replicate 272 40

/-- An entry of one codeword with its reservation, in a stage buffer that the self-test has filled with zeros. -/
def wCw : CwRef := { eid := eidOf 255 0, cw := 0, mode := 1 }

def wCwE : Ent := { raw := wRaw [(0, 1), (1, 0x10), (6, 1), (0xE, 1), (0x27, 1)], stage := .decode, cws := [.pending], sent := 2 }

def wCx (k : Codec) (e : Ent := wCwE) (n : Nat := 110) : State :=
  wSt { wMx with cx := { cl := [(31, k)] }, ents := [(eidOf 255 0, some e)],
                 sb := { allWritten := true,
                         resv := if n = 0 then [] else [{ owner := .entry (eidOf 255 0), cls := 0, lines := List.range n }] },
                 md := { time := 1000000000 } }

def wZeros (n : Nat) : List Byte := List.replicate n 0

/-- A line that the zero-fill reached reads clean, and so does any run of them. -/
theorem wLine (m : Mx) (port l off n : Nat) (h1 : m.sb.data = []) (h2 : m.sb.chk = []) (h3 : m.sb.allWritten = true) :
    readLine m port l off n = (List.replicate n 0, false, m) := by
  have hs : (List.range n).map (fun i => checkByte (stored m (128 * l + off + i)).1 (stored m (128 * l + off + i)).2) =
      List.replicate n ((0 : Byte), ByteRes.clean) := by
    rw [List.map_eq_replicate_iff.mpr, List.length_range]
    intro i _
    simp only [stored, h1, h2, memGet]
    decide
  have hw : isWritten m l = true := by simp [isWritten, h3]
  unfold readLine accessLine
  simp only [hs, hw]
  simp [each]

theorem wLines (m : Mx) (port : Nat) (h1 : m.sb.data = []) (h2 : m.sb.chk = []) (h3 : m.sb.allWritten = true) :
    ∀ (ls : List Nat) (off n : Nat), off < 128 → off + n ≤ 128 * ls.length →
      readLines port ls off n m = (List.replicate n 0, false, m) := by
  intro ls
  induction ls with
  | nil =>
    intro off n _ h
    have h : off + n ≤ 0 := h
    have : n = 0 := by omega
    subst this; rfl
  | cons l ls ih =>
    intro off n ho h
    simp only [List.length_cons] at h
    unfold readLines
    by_cases hn : n = 0
    · subst hn; rfl
    · simp only [hn, if_false, wLine m port l off _ h1 h2 h3]
      rw [ih 0 (n - min n (128 - off)) (by omega) (by omega)]
      rw [List.replicate_append_replicate, show min n (128 - off) + (n - min n (128 - off)) = n by omega]
      rfl

theorem wReads (m : Mx) (o : ROwner) (port off n k : Nat) (hk : k = n) (h1 : m.sb.data = []) (h2 : m.sb.chk = [])
    (h3 : m.sb.allWritten = true) (h : off % 128 + n ≤ 128 * ((resvLines m o).drop (off / 128)).length) :
    readsClean m o port off n (wZeros k) := hk ▸ wLines m port h1 h2 h3 _ _ _ (Nat.mod_lt _ (by decide)) (hk ▸ h)

def wStat : Stat := { result := 0, die := 2047, bg := 15, bin := 0, levels := [1], fell := [32], rose := [0], used := [0] }

/-- A table in which the last die is served by a class of one level, its accumulator one vote from HYST. -/
def wTable : Mem :=
  [(0x80000 + 16 * (16 * 2047 + 15), 0xF9), (0x180000 + 16 * 2047, 1), (0x18C000, 1), (0x18C001, 1), (0x18C004, 1)]

def wSgAddr (a : Word) : State := wSt { wMx with regs := [(sgOff 0x38, a)] }

/-- Data of the positions of a stripe, and a reconstruction of one slot. -/
def wData (p : Nat) : List Byte := List.replicate 4128 (BitVec.ofNat 8 (p + 1))

def wJob1 : Job :=
  { cws := [], pos := 0, npar := 1, parts := [61], slots := [(15, 0)],
    got := [(16 * 61 + 15, wData 61), (16 * 62 + 15, xorAll wData [0, 61])] }

def wJob2 : Job :=
  { cws := [], pos := 0, npar := 2, parts := [60, 61], erased := [(61, 15)], slots := [(15, 0)],
    got := [(16 * 60 + 15, wData 60), (16 * 62 + 15, xorAll wData [0, 60, 61]),
            (16 * 63 + 15, xorAll (fun p => gfScale (gfPow p) (wData p)) [0, 60, 61])] }

/-- One slot of a short frame, so that its DCRC is quickly told from its bytes. -/
def wJob3 : Job := { cws := [], pos := 0, npar := 1, parts := [61], slots := [(15, 0)], got := [(16 * 61 + 15, [0x11]), (16 * 62 + 15, [0x22])] }

/-- A PROGRAM of one codeword of the last stripe at the accumulator. -/
def wPassE : Ent := { raw := wRaw [(0, 2), (1, 0x14), (6, 1), (0xE, 1), (0x24, 127), (0x27, 1)], stage := .pass, stripe := some (127, 61) }

def wPass : State :=
  wSt { wMx with ents := [(eidOf 255 0, some wPassE)], st := { stripes := [(127, { state := 1, npar := 2, planes := 1, profile := 1 })] },
                 sb := { allWritten := true, resv := [{ owner := .entry (eidOf 255 0), cls := 1, lines := List.range 36 }] } }

def wJobSt (e : Ent) (j : Job) : State := wSt { wMx with ents := [(eidOf 255 0, some e)], st := { jobs := [(eidOf 255 0, j)] } }

def wReb : Ent := { raw := wRaw [(0, 0x12), (0x20, 32), (0x34, 0x80020000)], stage := .stripeWork }

theorem wPassOnly : ∀ x ∈ wPass.mx.ents, ∀ f, x.2 = some f → eOpc f ≠ 0x11 := by
  intro x hx f hf
  rw [List.mem_singleton.mp hx] at hf
  cases hf
  decide +kernel

theorem wPassClean : (readPlain (eidOf 255 0) wPassE wPass.mx).2.1 = false := by
  have h : resvRead wPass.mx (.entry (eidOf 255 0)) 10 (0 * eStride wPassE) 4128 = (wZeros 4128, false, wPass.mx) :=
    wReads _ _ _ _ _ _ (by decide +kernel) rfl rfl rfl (by decide +kernel)
  have hn : List.range (eNcw wPassE) = [0] := by decide +kernel
  simp only [readPlain, hn, List.foldl, h, Bool.or_self]

def wTimed (t at_ l : Nat) : State :=
  let m := (wBus (wAt (wWord [(99, 1)]) { launchAt := some at_ }).mx).mx
  wSt { m with md := { time := t }, ch := m.ch.map (fun x => (x.1, { x.2 with since := 0 })),
               tr := { slot := t / 1000, holds := [{ die := dieOf 127 15, rail := 0, segs := [(2, 5)], at_ := some at_,
                                                     req := some { die := dieOf 127 15, kind := 1, cls := 0, rail := 0, segs := [(2, 5)], made := 0, launch := some l } }] } }

def wReq : TrReq := { die := 2047, kind := 1, cls := 0, rail := 15, segs := [(3, 100), (2, 0xFFFFF)], made := 1 }

def wAp (w : Word) (a : Bool) : State := wSt { wMx with regs := [(sbOff 0x3C, w)], sb := { allWritten := a } }

def wIc (i : Ic) : State := wSt { wMx with regs := [(icSrcOff 255, 0x10013E3), (icSrcOff 7, 0x3E3), (icSrcOff 5, 0x3E3), (icSrcOff 270, 0x3E1), (icTgtOff 31 0, 0x80000000)], ic := i }

/-- Dome running, with one command of the mailbox at its head. -/
def wMb (ws : List Word) : MbCmd := { words := ws ++ List.replicate (16 - ws.length) 0 }

def wDm (ws : List Word) (d : Dome) (l : Tab Word := []) : State := wSt { wMx with dm := { d with boot := 1, cmds := [wMb ws] }, regs := l }

def wArr : Arrival := { time := 5, code := 0x8001, sev := 3, fmt := 0, p0 := 1, p1 := 2, p2 := 3 }

def wUp : Tab Word := [(doOff 0xA0, 0x80000000), (sbOff 0x50, 8192), (sbOff 0x70, 16384)]

def wLog : Tab Word := [(nlOff 0x40, 0x80010000), (nlOff 0x44, 0x1000), (chOff 0 0x140, 0x194), (chOff 0 0x144, 0x194)]

def wNl (n : Nl) (l : Tab Word := []) : State := wSt { wMx with nl := n, regs := l, dm := { boot := 1 } }

def wNl' (n : Nl) (st : Nat) : State := wSt { (wNl n wLog).mx with wr := [(8, { die := 0, ended := some (st, 0) })] }

/-- A full array of records not yet persisted. -/
def wFull : Nl :=
  { queue := [{ wArr with code := 7 }], recs := List.replicate 32768 { seq := 7, arr := wArr }, seg := some { sseq := 1, seqs := [] } }

theorem wFullApart : ∀ r, (wNl wFull).mx.nl.recs.getLast? = some r → merges (wNl wFull).mx r { wArr with code := 7 } = false := by
  intro r h
  have hr : r ∈ List.replicate 32768 ({ seq := 7, arr := wArr } : NlRec) := List.mem_of_getLast? h
  obtain rfl := List.eq_of_mem_replicate hr
  rfl

/-- A package that passes every check but those of its key. -/
def wPkg' (seq : Nat) : List Byte :=
  leBytes 4 0x454D4F44 ++ leBytes 2 1 ++ leBytes 2 0 ++ leBytes 4 seq ++ leBytes 4 0 ++ leBytes 4 7 ++ leBytes 4 0x180 ++ leBytes 4 0 ++ leBytes 4 0x180 ++ leBytes 4 0 ++ List.replicate 36 0 ++ leBytes 4 480 ++ List.replicate 404 0

/-- A legend as a start reads it. -/
def wSeg : SegRead :=
  let b : List Byte := leBytes 4 0x474F4C4E ++ [1, 0, 2, 0] ++ List.replicate 244 0
  { blk := 3, page := 0, bytes := b ++ leBytes 4 (crc32c b) }

def wTemp : Mc := { cl := [(31, { img := some { iver := 1, entries := [], exports := [(0xFFF0, 5)] } })] }

/-! ## Ill-formed commands are refused by WellFormed -/

/-- Every command of a list is ill formed. -/
def allIll (l : List Instr) : Bool := l.all (fun i => !i.wf)

theorem test_wf_pins_and_ports : allIll
    [.clkLoss (.pll 32), .clockReturn (.pll 32), .requestCredit 4, .writeCredit 4, .responseBeat 4 false 0 0 0 true,
     .responseBeat 0 false 1024 0 0 true, .responseBeat 0 false 0 4 0 true, .hostRequestTmo 4 0, .hostRequestTmo 0 1024,
     .drained 4, .hpDown 4, .controlPortWrite .host 0x1000000 15 0, .controlPortWrite .host 0 16 0,
     .i3cWrite (.priv (List.replicate 15 0)), .i3cWrite (.assign 128), .loRegisterRead { addr := 0x1000000 },
     .loRegisterRead { addr := 0, be := 16 }] = true := by decide +kernel

theorem test_wf_rings : allIll
    [.enable .host 264, .shutdown .host 264, .ringFreset .host 264, .ringFresetDone 264, .resume .host 264,
     .ringConfigWrite .host 264 0 0, .ringConfigWrite .host 0 12 0, .dbTail .host 264 0, .dbHead .host 264 0,
     .entryFetch 264, .entryFetchDone 264, .hold 512 0, .hold 0 65536, .release 512, .completionWrite 264 0,
     .completionWrite 0 131072, .writeOrdResponse 264 0, .writeOrdResponse 0 131072, .noticeWriteResponse 264 0,
     .noticeWriteResponse 0 131072, .noticeEnable .host 33 0, .noticeHeadWrite .host 33 0] = true := by decide +kernel

theorem test_wf_opcodes : allIll
    [.read 264, .program 264, .erase 264, .copy 264, .readRaw 264, .programRaw 264, .status 264, .featureSet 264,
     .featureGet 264, .resetDie 264, .stripeOpen 264, .stripeClose 264, .rebuild 264 .held, .call 264, .nop 264,
     .fence 264, .scan 264, .fill 264, .unknownOpcode 264, .reservationGrant 5 [], .reservationGrant 0 [524288],
     .dxTransferStart 64, .transferDone 64, .disable 64] = true := by decide +kernel

theorem test_wf_channels : allIll
    [.entryPlace 264 0, .entryPlace 0 131072, .workItemStart 128 0, .workItemStart 0 16, .markSuspect 2048, .markDead 2048,
     .clearDead 2048, .dieRecovery 2048 none none, .pollDue 128 0, .pollDue 0 16, .rbRise 128, .busGrant 128,
     .launchPrerequest 128 0, .launchPrerequest 0 16, .freeze 128 true, .chStarve 128 0, .chStarve 0 16, .waitmaxClr 128,
     .suspension 128 0, .suspension 0 16, .operationResume 128 0, .operationResume 0 16, .readAheadExpiry 128 0,
     .readAheadExpiry 0 16, .acquire .host 128 0 0, .acquire .host 0 16 0, .acquire .host 0 0 512,
     .lockRelease .host 128 0 0, .lockRelease .host 0 16 0, .lockRelease .host 0 0 512, .lockBroken 128 0, .lockBroken 0 16,
     .channelReset 128] = true := by decide +kernel

theorem test_wf_microcode : allIll
    [.seq 128 0, .seq 0 16, .jmp 128 0, .jmp 0 16, .br 128 0, .br 0 16, .microCall 128 0, .microCall 0 16, .ret 128 0,
     .ret 0 16, .wait 128 0, .wait 0 16, .waitSatisfied 128 0, .waitSatisfied 0 16, .waitTimeout 128 0, .waitTimeout 0 16,
     .disp 128 0, .disp 0 16, .exit 128 0, .exit 0 16, .busCycleDone 128 0 {}, .busCycleDone 0 16 {}, .groupReloadDone 32,
     .controlStoreScrub 32 [], .controlStoreScrub 0 [(8192, 0)], .poisonRewrite 32 0, .poisonRewrite 0 8192,
     .groupIdle 32] = true := by decide +kernel

theorem test_wf_phy : allIll
    [.fervonEntry 32 {}, .fervonEntry 0 { fails := [64] }, .recalibrationDone 32 {}, .gradualApplication 32 (List.replicate 272 0) 0,
     .gradualApplication 0 [] 0, .shortZq 32 { code := 0 } { code := 0 }, .shortZq 0 { code := 64 } { code := 0 },
     .shortZq 0 { code := 0 } { code := 64 }, .shortZq 0 { code := 0, ch := 4 } { code := 0 }, .busIdleBoundary 32 {},
     .thermalSample 32 0, .thermalReturn 32, .frate 32 0, .frate 0 4, .dfeForce 32 0, .retrain 32 [],
     .retrain 0 [{ grp := 1, set := 0 }]] = true := by decide +kernel

theorem test_wf_codec_and_stripes : allIll
    [.encode 32, .encodeWriteBack 32 { lane := 0 }, .encodeWriteBack 0 { lane := 8 }, .hardDecode 32, .softDecode 32, .decodeResult 32 false { lane := 0 },
     .decodeResult 0 true { lane := 4 }, .decodeResult 0 false { lane := 16 }, .slotSolve 264 0 0, .slotSolve 0 131072 0, .slotSolve 0 0 16,
     .laneTmo 32 0 0, .laneTmo 0 3 0, .laneTmo 0 0 16, .restore 32, .restoreTestDone 32 true, .memberPass 264 0,
     .memberPass 0 131072, .rebuildWalkStep 264 0 .held, .rebuildWalkStep 0 131072 .held,
     .checkpointCopyDone 8 .held,
     .timedLaunch 128 0, .timedLaunch 0 16] = true := by decide +kernel

theorem test_wf_buffers_and_interrupts : allIll
    [.retire 64 0, .retire 0 8192, .apertureWrite 0x800000 0, .apertureWrite 2 0, .apertureRead 0x800000, .apertureRead 2,
     .coalescingTimer 256, .enSet 11 0, .enClr 11 0, .pSet 11 0, .pClr 11 0, .claim 32, .eoi 32 0, .eoi 0 512, .stkRst 32,
     .tcfgWrite 32 0, .messageResponse 32, .voltageSample 16 0, .packageTemp 64 none] = true := by decide +kernel

theorem test_wf_reads : allIll
    [.restart { reads := [{ die := 2048, row := 0 }] }, .domeWatchdog { reads := [{ die := 2048, row := 0 }] },
     .trialBootTimeout { reads := [{ die := 2048, row := 0 }] }, .hostPkg .held { reads := [{ die := 2048, row := 0 }] },
     .start { reads := [{ die := 2048, row := 0 }] }, .selfTestEnd { reads := [{ die := 2048, row := 0 }] },
     .p0Request false { reads := [{ die := 2048, row := 0 }] }] = true := by decide +kernel

/-! ## Published check values -/

/-- The digest of the bytes of "abc", the example of the standard that defines SHA-384. -/
theorem test_sha384 : beNat (sha384 [0x61, 0x62, 0x63]) =
    0xcb00753f45a35e8bb5a03d699ac65007272c32ab0eded1631a8b605a43ff5bed8086072ba1e7cc2358baeca134c825a7 := by decide +kernel

/-- The published P-384 and SHA-384 signature of the bytes of "sample", of the standard for deterministic signatures. -/
theorem test_ecdsa :
    ecdsaGood (0x04 :: beBytes 48 0xEC3A4E415B4E19A4568618029F427FA5DA9A8BC4AE92E02E06AAE5286B300C64DEF8F0EA9055866064A254515480BC13
        ++ beBytes 48 0x8015D9B72D7D57244EA8EF9AC0C621896708A59367F9DFB9F54CA84B3F1C9DB1288B231C3AE0D4FE7344FD2533264720)
      (sha384 [0x73, 0x61, 0x6D, 0x70, 0x6C, 0x65])
      (beBytes 48 0x94EDBB92A5ECB8AAD4736E56C691916B3F88140666CE9FA73D64C4EA95AD133C81A648152E44ACF96E36DD1E80FABE46
        ++ beBytes 48 0x99EF4AEB15F178CEA1FE40DB2603138F130E740A19624526203B6351D0A3A94FA329C145786E679E7B82C71A38628AC8) = true := by
  decide +kernel

/-! ## The manual's own examples -/

/-- The state that a command leaves, for tests. -/
def after (c : Instr) (s : State) : State :=
  match exec c s with
  | .next t => t
  | _ => s

/-- The example under 00_scope.md R9. -/
theorem test_die_index : dieOf 37 (2 * 4 + 3) = 603 ∧ dieCh 603 = 37 ∧ dieTgt 603 = 2 ∧ dieGrp 603 = 9 := by decide

/-- The examples of 16_register_index.md R560, CH037_DST11, IC_CLAIM05 and QE013_CFG. -/
theorem test_register_addresses : qeRingOff 13 8 = 0x20348 ∧ regRead State.reset.mx 0x20348 = 0x01FF0004 ∧
    icTgtOff 5 4 = 0x11144 ∧ regRead State.reset.mx 0x11144 = 0x1FF ∧ dstOff (dieOf 37 11) = 0x22512C := by decide +kernel

/-- The seeds of the example under 08_codec.md R306. -/
theorem test_random_seeds : randSeed 0x100 0 = 0x3779B100 ∧ randSeed 0x100 1 = 0x3D657B6B ∧ randSeed 0x100 2 = 0x435145D6 ∧
    randSeed 0x100 3 = 0x493D1041 := by decide +kernel

/-- The published check values of CRC-32C and of the CRC-16 of polynomial 0x1021 over the digits 1 to 9. -/
theorem test_crc_check_values :
    crc32c [0x31, 0x32, 0x33, 0x34, 0x35, 0x36, 0x37, 0x38, 0x39] = 0xE3069283 ∧
    crc16 [0x31, 0x32, 0x33, 0x34, 0x35, 0x36, 0x37, 0x38, 0x39] = 0x29B1 := by decide +kernel

/-- The example under 12_stage_buffer.md R445: 0x5A has check bits 0, and 0x4A beside them is corrected to it. -/
theorem test_check_bits : checkBits 0x5A = 0 ∧ checkByte 0x4A 0 = (0x5A, .corrected) := by decide

/-- The example under 10_stripes.md R389: the sum Q of three members, and the solution of two. -/
theorem test_stripe_example :
    gfScale (gfPow 1) [0x22] = [0x44] ∧ gfScale (gfPow 2) [0x33] = [0xCC] ∧
    solve {} { cws := [], pos := 0, npar := 2, parts := [1, 2], erased := [(2, 0)],
               got := [(16, [0x22]), (16 * 62, [0]), (16 * 63, [0x99])] } 0 = some [0x11] := by decide +kernel

/-- The example under 03_queues.md R138: the DETAIL of a LEN of 0, and of a DIE of 2,100. -/
theorem test_detail_examples :
    entryFault {} 0 { raw := wRaw [(0, 1), (6, 1), (0xE, 1), (0x10, 0x1000), (0x27, 1)] } = some (0x1000, 0x0120) ∧
    entryFault {} 0 { raw := wRaw [(0, 1), (4, 2100), (6, 1), (0xE, 1), (0x10, 0x1000), (0x20, 4096), (0x27, 1)] } =
      some (0x1000, 0x0204) := by decide +kernel

/-- Ring 12 of the example at the end of 03_queues.md. -/
def ring12 (g : Ring) : State :=
  wSt { wMx with regs := [(qeRingOff 12 0, 0x1000), (qeRingOff 12 4, 2), (qeRingOff 12 8, 0x0F0004)], qe := { rings := [(12, g)] } }

/-- Steps 2, 6, 10 and 12 of that example: doorbells accepted, and refused with DB_HEAD and DB_OVERRUN. -/
theorem test_one_lap_of_a_ring :
    (ring (after (.dbTail .host 12 4) (ring12 { state := .active, head := 20, tail := 26, fetch := 26, cpt := 20 })).mx 12).tail = 4 ∧
    (ring (after (.dbTail .host 12 27) (ring12 { state := .active, head := 10, tail := 26, fetch := 26, cpt := 10 })).mx 12).tail = 26 ∧
    (ring (after (.dbHead .host 12 10) (ring12 { state := .active, head := 3, tail := 12, fetch := 12, cpt := 3 })).mx 12).head = 3 ∧
    slotAddr (ring12 {}).mx 12 8 = 0x200001200 := by decide +kernel

/-- Target 05 of the example at the end of 13_interrupts.md. -/
def target05 (i : Ic) : State :=
  wSt { wMx with regs := [(icTgtOff 5 0, 0x80000000), (icSrcOff 40, 0xA4), (icSrcOff 271, 0xA9), (icSrcOff 274, 0xAC)],
                 ic := { i with en := [40, 271, 274] } }

/-- Steps 4, 7, 8 and 11 of that example. -/
theorem test_compatibility_claims :
    (after (.claim 5) (target05 { pend := [40, 271] })).mx.cp.rdata = 0x8121010F ∧
    (after (.claim 5) (target05 { pend := [40, 274], tgt := [(5, { stack := [(271, 9)] })] })).mx.cp.rdata = 0x81820112 ∧
    (target (after (.eoi 5 274) (target05 { tgt := [(5, { stack := [(274, 12), (271, 9)] })] })).mx 5).stack = [(271, 9)] ∧
    (target (after (.eoi 5 271) (target05 { tgt := [(5, { stack := [(40, 4)] })] })).mx 5).badSrc = 271 := by decide +kernel

/-- The example under 13_interrupts.md R470: the sixteenth completion of ring 40 makes its source pending. -/
theorem test_coalescing :
    (signalVector { regs := [(icSrcOff 40, 0x10032000)], ic := { held := [(40, 14)], timer := [40] } } 40).ic.pend = [] ∧
    (signalVector { regs := [(icSrcOff 40, 0x10032000)], ic := { held := [(40, 15)], timer := [40] } } 40).ic.pend = [40] := by
  decide +kernel

/-- The example under 12_stage_buffer.md R454: the 65th correction passes the limit, COUNT stays at 64, and a drain to
31 clears ALARM. -/
theorem test_leaky_bucket :
    (leak { sb := { count := 64 } }).sb.count = 64 ∧ (leak { sb := { count := 64 } }).sb.alarm = true ∧
    (leak { sb := { count := 63 } }).sb.alarm = false ∧
    (after .leakDrain (wSt { wMx with sb := { count := 33, alarm := true } })).mx.sb.alarm = true ∧
    (after .leakDrain (wSt { wMx with sb := { count := 32, alarm := true } })).mx.sb.alarm = false := by decide +kernel

/-- The example under 07_phy_calibration.md R279: codes three steps apart disagree, and one or two apart agree. -/
theorem test_training_runs :
    let run : Byte → List Byte := fun c => patch (List.replicate 272 0) 0x13 [c]
    chAgree (run 41) (run 44) 0 = false ∧ chAgree (run 41) (run 42) 0 = true ∧
    chAgree (run 44) (run 42) 0 = true := by decide +kernel

/-- The example at the end of 09_seeing.md: age bin 10 of 12,974 hours, and the vote at level 2: FELL 30 and ROSE 12 take
an accumulator of −7 to 0 and the learned offset from +2 to +1. -/
theorem test_seeing_vote :
    let base : Mem := [(0x1000, 2), (0x81000, 0xF9), (0x180100, 1)]
    let tb : Mem := base ++ [(0x18C000, 2), (0x18C001, 1), (0x18C004, 2)]
    let r : Stat := { result := 0, die := 16, bg := 0, bin := 0, levels := [1], fell := [30], rose := [12], used := [0] }
    let t := (after .learningUpdate (wSt { sg := { table := tb, recs := [r] } })).mx
    sgInt t 0x81000 = 0 ∧ sgInt t 0x1000 = 1 := by decide +kernel

/-- The example at the end of 14_dome_nightlog.md: SEQ 5,000 is captured with HIT, and its last word moves the cursor. -/
theorem test_cursor :
    let a : Arrival := { time := 1, code := 2, sev := 3, fmt := 4, p0 := 5, p1 := 6, p2 := 7 }
    let s := wSt { wMx with regs := [(nlOff 0x10, 5000)], nl := { recs := [{ seq := 5000, arr := a }, { seq := 5001, arr := a }] } }
    (after .rec0Read s).mx.cp.rdata = 5000 ∧ (after .rec0Read s).mx.nl.cres = 1 ∧
    nlReg (after .rec7Read (after .rec0Read s)).mx 0x10 = 5001 := by decide +kernel

/-- The table gives no row any bits. -/
theorem test_no_row_has_bits : decodeTableWord 16 0x1234 = none := rfl

/-! ## Witnesses: states and operands that meet the hypotheses of the statements, clause by clause -/

theorem witness_IdleStepIsOneMrefEdge :
    (∃ (m : Mx),
      m.md.hold = true) ∧
    (∃ (m : Mx),
      m.md.hold = false ∧ m.md.loadDue = false ∧ m.md.freq = 0 ∧ m.md.slew = 0 ∧ m.md.slewLeft = 0 ∧
        m.md.frac < 2 ^ 32 ∧ m.gl.msyncOut = 0 ∧ bit (syncCfg m) 30 = false ∧ (m.md.time + 10) / 1000 ≤ m.tr.slot) ∧
    (∃ (m : Mx),
      m.md.hold = false ∧ m.md.loadDue = false ∧ m.md.freq = 0 ∧ m.md.slew = 0 ∧ m.md.slewLeft = 0 ∧
        m.md.frac < 2 ^ 32) :=
  ⟨⟨{ md := { hold := true } }, by decide +kernel⟩,
   ⟨{}, by decide +kernel⟩,
   ⟨{ md := { time := 990 }, regs := [(mdOff 0x18, 0xC0010001)] }, by decide +kernel⟩⟩

theorem witness_StepKeepsMemoryCanonical :
    ∃ (s : State) (t : State),
      sbWf s.mx ∧ step s = .next t :=
  ⟨wSt { md := { hold := true } }, wSt { md := { hold := true } }, ⟨⟨rfl, rfl⟩, rfl⟩⟩

theorem witness_StepKeepsQueueWellFormed :
    ∃ (s : State) (t : State),
      queueWf s ∧ step s = .next t :=
  ⟨{ pending := [.requestCredit 3] }, { mx := { hp := [(3, { reqCr := 1 })] } }, ⟨by unfold queueWf; decide, rfl⟩⟩

theorem witness_PowerUpAndColdReset_PowerUpPins :
    ∃ (s : State),
      s.mx.gl.porstN = false :=
  ⟨wSt { gl := { porstN := false } }, by decide +kernel⟩

theorem witness_WarmReset_WarmResetBegins :
    (∃ (s : State) (_env : WarmEnv) (q : Nat),
      s.mx.gl.porstN = true ∧ s.mx.gl.phase = .ready ∧ s.mx.gl.pstate ≠ 3 ∧ s.mx.gl.pf = .none ∧ q < 4 ∧
        (port s.mx q).down = false) ∧
    (∃ (s : State) (_env : WarmEnv),
      s.mx.gl.porstN = true ∧ (s.mx.gl.phase ≠ .ready ∨ s.mx.gl.pf ≠ .none) ∧ s.mx.gl.phase ≠ .warm ∧
        s.mx.gl.pstate ≠ 3) ∧
    (∃ (s : State) (_env : WarmEnv),
      s.mx.gl.porstN = true ∧ s.mx.gl.phase ≠ .warm ∧ s.mx.gl.pstate = 3) ∧
    (∃ (s : State) (_env : WarmEnv),
      (s.mx.gl.porstN = false ∨ s.mx.gl.phase = .warm)) ∧
    (∃ (s : State) (val : Word) (_env : WarmEnv) (q : Nat),
      carried s 0xC ∧ fld val 31 24 = 0xA5 ∧ fld val 1 0 = 2 ∧ s.mx.gl.phase = .ready ∧ s.mx.gl.pf = .none ∧
        q < 4 ∧ (port s.mx q).down = false) ∧
    (∃ (s : State) (val : Word) (_env : WarmEnv),
      carried s 0xC ∧ fld val 31 24 = 0xA5 ∧ fld val 1 0 = 2 ∧ s.mx.gl.phase = .ready ∧ s.mx.gl.pf ≠ .none) :=
  ⟨⟨wSt wMx, {}, 3, by decide +kernel⟩,
   ⟨wSt { wMx with gl := { wMx.gl with pf := .running } }, {}, by decide +kernel⟩,
   ⟨wSt { wMx with gl := { wMx.gl with pstate := 3 } }, {}, by decide +kernel⟩,
   ⟨wSt { wMx with gl := { wMx.gl with porstN := false } }, {}, by decide +kernel⟩,
   ⟨wSt wMx, 0xA5000002, {}, 3, by unfold carried; decide +kernel⟩,
   ⟨wSt { wMx with gl := { wMx.gl with pf := .stopped } }, 0xA5000002, {}, by unfold carried; decide +kernel⟩⟩

theorem witness_WarmReset_WarmResetClears :
    ∃ (s : State) (p : Nat),
      p < 4 ∧ s.mx.gl.pf = .none ∧ s.mx.gl.warm = some .draining ∧ s.mx.gl.wrstN = false ∧
        (port s.mx p).drain = true ∧ (port s.mx p).out = [] ∧ s.mx.gl.warmEnv.unready = [] ∧
        s.mx.gl.warmEnv.tests = [] ∧ noFetch s.mx ∧
        (∀ q, q < 4 → q ≠ p → (port s.mx q).drain = false ∨ (port s.mx q).down = true) :=
  ⟨wSt { wPort { drain := true, reqCr := 3 } with gl := { wMx.gl with phase := .warm, warm := some .draining, wrstN := false }, die := [(2047, { state := 1 })], ents := [(eidOf 3 0, some {})] }, 3, by unfold noFetch; decide +kernel⟩

theorem witness_WarmReset_WarmResetRefused :
    ∃ (s : State) (val : Word) (_env : WarmEnv),
      carried s 0xC ∧ (fld val 31 24 ≠ 0xA5 ∨ fld val 1 0 ≠ 2 ∨ s.mx.gl.phase ≠ .ready) :=
  ⟨wSt wMx, 0xA5000001, {}, by unfold carried; decide +kernel⟩

theorem witness_WarmReset_WarmResetEndsInReady :
    (∃ (s : State),
      s.mx.gl.pf = .none ∧ s.mx.gl.warm = some .waitRelease) ∧
    (∃ (s : State),
      (s.mx.gl.warm = none ∨ s.mx.gl.pf ≠ .none)) :=
  ⟨⟨wSt { wMx with gl := { wMx.gl with phase := .warm, warm := some .waitRelease, wrstN := false }, st := { plates := [(5, { state := 1, row := 7 })] } }, by decide +kernel⟩,
   ⟨wSt { wMx with gl := { wMx.gl with wrstN := false } }, by decide +kernel⟩⟩

theorem witness_PortDrainEnds :
    (∃ (s : State) (p : Nat),
      p < 4 ∧ (port s.mx p).drain = true ∧ (port s.mx p).out = [] ∧ s.mx.gl.warm = none ∧ noFetch s.mx) ∧
    (∃ (s : State) (p : Nat) (o : Out) (r : Nat),
      p < 4 ∧ (port s.mx p).drain = true ∧ (port s.mx p).out = [o] ∧ o.req.why = .fetch r ∧ s.mx.gl.warm = none ∧
        noFetch s.mx) ∧
    (∃ (s : State) (p : Nat),
      p < 4 ∧ (port s.mx p).drain = true ∧ (port s.mx p).down = false ∧ (port s.mx p).out = [] ∧
        (port s.mx p).waiting = [] ∧ s.mx.gl.warm = none ∧ noFetch s.mx) ∧
    (∃ (s : State) (p : Nat) (q : Req) (r : Nat),
      p < 4 ∧ (port s.mx p).drain = true ∧ (port s.mx p).down = false ∧ (port s.mx p).out = [] ∧
        (port s.mx p).waiting = [q] ∧ q.why = .fetch r ∧ s.mx.gl.warm = none ∧ noFetch s.mx) :=
  ⟨⟨wSt (wPort { drain := true, retired := [{ tag := 5, op := .read }], reqCr := 4 }), 3, by unfold noFetch; decide +kernel⟩,
   ⟨wSt (wPort { drain := true, out := [{ tag := 5, req := readReq 0x1000 64 (.fetch 7) }], reqCr := 4 }), 3, { tag := 5, req := readReq 0x1000 64 (.fetch 7) }, 7, by unfold noFetch; decide +kernel⟩,
   ⟨wSt (wPort { drain := true, retired := [{ tag := 5, op := .read }], reqCr := 4 }), 3, by unfold noFetch; decide +kernel⟩,
   ⟨wSt (wPort { drain := true, waiting := [readReq 0x1000 64 (.fetch 7)] }), 3, readReq 0x1000 64 (.fetch 7), 7, by unfold noFetch; decide +kernel⟩⟩

theorem witness_PowerFailSequence :
    (∃ (s : State),
      s.mx.gl.porstN = true ∧ s.mx.gl.pf = .none ∧ s.mx.gl.pstate ≠ 3) ∧
    (∃ (s : State),
      (s.mx.gl.porstN = false ∨ s.mx.gl.pf ≠ .none ∨ s.mx.gl.pstate = 3)) ∧
    (∃ (s : State),
      s.mx.gl.pf = .running ∧ finalTaken s.mx = true) ∧
    (∃ (s : State),
      (s.mx.gl.pf ≠ .running ∨ finalTaken s.mx = false)) ∧
    (∃ (s : State),
      s.mx.gl.pf = .stopped ∧ s.mx.gl.startOwed = none ∧ s.mx.gl.warmOwed = false ∧ s.mx.gl.warm = none) ∧
    (∃ (s : State),
      (s.mx.gl.pf = .running ∨ s.mx.gl.pf = .none)) :=
  ⟨⟨wSt { wMx with die := [(5, { busy := some { op := .erase } }), (9, { busy := some { op := .program } })], tr := { holds := [{ die := 5, rail := 1, segs := [(4, 7)], anchor := some 3 }, { die := 9, rail := 1, segs := [(4, 7)] }] }, st := { plates := [(5, { state := 1, row := 7 })] } }, by decide +kernel⟩,
   ⟨wSt { wMx with gl := { wMx.gl with pstate := 3 } }, by decide +kernel⟩,
   ⟨wSt { wMx with gl := { wMx.gl with pf := .running } }, by decide +kernel⟩,
   ⟨wSt { wMx with gl := { wMx.gl with pf := .running }, regs := [(stOff 0, 0x80000064)] }, by decide +kernel⟩,
   ⟨wSt { wMx with gl := { wMx.gl with pf := .stopped, pfailN := false }, die := [(2047, { pfErase := true, offers := (false, true), busy := some { op := .erase } })] }, by decide +kernel⟩,
   ⟨wSt { wMx with gl := { wMx.gl with pf := .running, pfailN := false } }, by decide +kernel⟩⟩

theorem witness_PowerFailSequence_FinalCheckpointInSequence :
    (∃ (s : State) (_b : Told),
      s.mx.gl.pf = .running ∧ s.mx.gl.warm = none ∧ workDone s.mx = true ∧ jen s.mx = true ∧
        s.mx.st.finalAsked = false ∧ jDies s.mx false = [] ∧ jDies s.mx true = []) ∧
    (∃ (s : State) (_b : Told) (j : Nat),
      s.mx.gl.pf = .running ∧ s.mx.gl.warm = none ∧ workDone s.mx = true ∧ jen s.mx = true ∧
        s.mx.st.finalAsked = false ∧ j ∈ jDies s.mx false ∧ skipsFinal s.mx j = false ∧ j ∉ s.mx.st.jerase) ∧
    (∃ (s : State) (_b : Told),
      (s.mx.gl.pf ≠ .running ∨ workDone s.mx = false ∨ s.mx.st.finalAsked = true)) :=
  ⟨⟨wSt { wMx with gl := { wMx.gl with pf := .running }, regs := [(stOff 0, 0x80000064)] }, .held, by decide +kernel⟩,
   ⟨wSt { wMx with gl := { wMx.gl with pf := .running }, regs := [(stOff 0, 0x80000064)], st := { plates := [(5, { state := 1, row := 7 })] } }, .held, 5, by decide +kernel⟩,
   ⟨wSt wMx, .held, by decide +kernel⟩⟩

theorem witness_ClockLossAndReturn :
    (∃ (s : State),
      Clock.mref ∉ s.mx.gl.lost) ∧
    (∃ (s : State),
      s.mx.md.hold = true ∧ s.mx.md.time / 1000 ≤ s.mx.tr.slot) ∧
    (∃ (s : State),
      Clock.mclk ∉ s.mx.gl.lost ∧ s.mx.gl.pstate ≠ 3) ∧
    (∃ (s : State) (c : Clock),
      (c = .hclk ∨ c = .cpclk) ∧ c ∉ s.mx.gl.lost ∧ (c = .hclk → s.mx.gl.pstate = 0)) ∧
    (∃ (s : State) (c : Clock),
      c ∈ s.mx.gl.lost) ∧
    (∃ (s : State) (c : Clock),
      (c = .hclk ∨ c = .cpclk) ∧ c ∈ s.mx.gl.lost) ∧
    (∃ (s : State),
      s.mx.md.hold = true) ∧
    (∃ (s : State),
      s.mx.md.hold = false) :=
  ⟨⟨wSt wMx, by decide +kernel⟩,
   ⟨wSt { wMx with gl := { wMx.gl with lost := [.mref] }, md := { hold := true }, tr := { slot := 7 } }, by decide +kernel⟩,
   ⟨wSt wMx, by decide +kernel⟩,
   ⟨wSt wMx, .cpclk, by decide +kernel⟩,
   ⟨wSt { wMx with gl := { wMx.gl with lost := [.cpclk] } }, .cpclk, by decide +kernel⟩,
   ⟨wSt { wMx with gl := { wMx.gl with lost := [.cpclk] } }, .cpclk, by decide +kernel⟩,
   ⟨wSt { wMx with gl := { wMx.gl with lost := [.mref] }, md := { hold := true, time := 5000 } }, by decide +kernel⟩,
   ⟨wSt wMx, by decide +kernel⟩⟩

theorem witness_ColdStart :
    (∃ (s : State) (_env : StartEnv),
      carried s 4 ∧ s.mx.gl.phase = .waitStart ∧ s.mx.gl.pf = .none) ∧
    (∃ (s : State) (_env : StartEnv),
      carried s 4 ∧ s.mx.gl.phase = .waitStart ∧ s.mx.gl.pf = .none ∧ s.mx.gl.warmOwed = false) ∧
    (∃ (s : State) (env : StartEnv),
      carried s 4 ∧ s.mx.gl.phase = .waitStart ∧ s.mx.gl.pf = .none ∧ s.mx.gl.island = none ∧
        s.mx.gl.p3exit = false ∧ env.cfgA = none ∧ env.cfgB = none ∧ env.fuses = [] ∧ env.slotA = none ∧
        env.slotB = none) ∧
    (∃ (s : State) (_env : StartEnv),
      carried s 4 ∧ s.mx.gl.phase = .waitStart ∧ s.mx.gl.pf ≠ .none) ∧
    (∃ (s : State) (_env : StartEnv),
      carried s 4 ∧ s.mx.gl.phase ≠ .waitStart) :=
  ⟨⟨wSt { regs := [(doOff 0xA0, 0x80000000)] }, { slotA := some (wPkg 5), dies := [{ die := 5, cap := some (12, 0) }] }, by unfold carried; decide +kernel⟩,
   ⟨wSt { regs := [(doOff 0xA0, 0x80000000)] }, { slotA := some (wPkg 5), dies := [{ die := 5, cap := some (12, 0) }] }, by unfold carried; decide +kernel⟩,
   ⟨wSt {}, {}, by unfold carried; decide +kernel⟩,
   ⟨wSt { gl := { pf := .held } }, {}, by unfold carried; decide +kernel⟩,
   ⟨wSt wMx, {}, by unfold carried; decide +kernel⟩⟩

theorem witness_SelfTest :
    (∃ (s : State),
      carried s 4 ∧ s.mx.gl.phase = .waitStart) ∧
    (∃ (s : State),
      carried s 4 ∧ s.mx.gl.phase ≠ .waitStart) ∧
    (∃ (s : State) (_env : StartEnv),
      s.mx.gl.phase = .bist ∧ s.mx.gl.pf = .held) ∧
    (∃ (s : State) (_env : StartEnv),
      s.mx.gl.phase = .bist ∧ s.mx.gl.pf = .none) ∧
    (∃ (s : State) (_env : StartEnv),
      s.mx.gl.phase = .bist ∧ s.mx.gl.pf = .none ∧ s.mx.gl.warmOwed = false ∧ s.mx.bt.running = true) ∧
    (∃ (s : State) (_env : StartEnv),
      s.mx.gl.phase ≠ .bist) ∧
    (∃ (s : State),
      s.mx.gl.porstN = true ∧ accessCause s.mx 4 15 = none ∧ s.mx.gl.phase = .waitStart) ∧
    (∃ (s : State) (_env : StartEnv),
      s.mx.gl.phase = .bist) :=
  ⟨⟨wSt {}, by unfold carried; decide +kernel⟩,
   ⟨wSt wMx, by unfold carried; decide +kernel⟩,
   ⟨wSt { gl := { phase := .bist, pf := .held } }, {}, by decide +kernel⟩,
   ⟨wSt { gl := { phase := .bist }, regs := [(doOff 0xA0, 0x80000000)] }, { slotA := some (wPkg 5), dies := [{ die := 5, cap := some (12, 0) }] }, by decide +kernel⟩,
   ⟨wSt { gl := { phase := .bist }, bt := { running := true }, regs := [(doOff 0xA0, 0x80000000)] }, { slotA := some (wPkg 5), dies := [{ die := 5, cap := some (12, 0) }] }, by decide +kernel⟩,
   ⟨wSt wMx, {}, by decide +kernel⟩,
   ⟨wSt {}, by decide +kernel⟩,
   ⟨wSt { gl := { phase := .bist }, bt := { running := true } }, {}, by decide +kernel⟩⟩

theorem witness_TrialAndHostPackage :
    (∃ (s : State) (_env : StartEnv) (q : Nat),
      s.mx.dm.trial = some q ∧ s.mx.dm.slotA = none ∧ s.mx.dm.slotB = none ∧ s.mx.dm.cmds = []) ∧
    (∃ (s : State) (env : StartEnv) (q : Nat),
      s.mx.dm.trial = some q ∧ s.mx.gl.phase = .ready ∧ s.mx.dm.cmds = [] ∧ env.fwRuns = true) ∧
    (∃ (s : State) (_env : StartEnv),
      s.mx.dm.trial = none) ∧
    (∃ (s : State) (_env : StartEnv) (_b : Told),
      carried s 0x5000A8 ∧ s.mx.dm.boot = 2 ∧ s.mx.dm.hostEnv = none ∧ 0 < hostLen s.mx ∧
        (port s.mx (fld (reg s.mx 0x5000A8) 1 0)).down = false) ∧
    (∃ (s : State) (_env : StartEnv) (_b : Told),
      carried s 0x5000A8 ∧ s.mx.dm.boot = 2 ∧ s.mx.dm.hostEnv = none ∧ 0 < hostLen s.mx ∧
        (port s.mx (fld (reg s.mx 0x5000A8) 1 0)).down = true) ∧
    (∃ (s : State) (_env : StartEnv) (_b : Told),
      carried s 0x5000A8 ∧ (s.mx.dm.boot ≠ 2 ∨ s.mx.dm.hostEnv ≠ none)) ∧
    (∃ (s : State) (p : Nat) (tag : Nat) (_data : BitVec 1024) (o : Out) (a : OwnAcc) (e : StartEnv),
      p < 4 ∧ tag < 1024 ∧ (port s.mx p).out = [o] ∧ o.tag = tag ∧ o.req.op = .read ∧ o.req.why = .own false a.no ∧
        o.bad = none ∧ o.got + 1 = o.req.beats ∧ (port s.mx p).waiting = [] ∧ (port s.mx p).owed = [] ∧
        s.mx.dm.acc = some a ∧ a.todo = [] ∧ a.ended = none ∧ s.mx.dm.hostEnv = some e ∧ s.mx.gl.cfgAcc = none ∧
        s.mx.gl.phase = .boot ∧ s.mx.gl.pf = .none ∧ s.mx.dm.boot = 2) :=
  ⟨⟨wSt { wMx with dm := { trial := some 7 } }, {}, 7, by decide +kernel⟩,
   ⟨wSt { wMx with dm := { trial := some 7, slotB := some (wPkg 6) }, regs := [(doOff 0xA0, 0x80000000)] }, {}, 7, by decide +kernel⟩,
   ⟨wSt wMx, {}, by decide +kernel⟩,
   ⟨wSt { gl := { phase := .boot }, dm := { boot := 2 }, hp := [(0, { reqCr := 2 })], regs := [(0x5000AC, 0xFC0), (0x5000B0, 1), (0x5000B4, 480)] }, {}, .held, by unfold carried; decide +kernel⟩,
   ⟨wSt { gl := { phase := .boot }, dm := { boot := 2 }, hp := [(1, { down := true })], regs := [(0x5000A8, 1), (0x5000B4, 480)] }, {}, .held, by unfold carried; decide +kernel⟩,
   ⟨wSt wMx, {}, .held, by unfold carried; decide +kernel⟩,
   ⟨wSt { gl := { phase := .boot }, dm := { boot := 2, hostEnv := some {}, acc := some { port := 0, no := 3 } }, hp := [(0, { out := [{ tag := 7, req := readReq 0x1000 96 (.own false 3) }] })], regs := [(0x5000AC, 0x1000), (0x5000B4, 96)] }, 0, 7, 0x444F4D45, { tag := 7, req := readReq 0x1000 96 (.own false 3) }, { port := 0, no := 3 }, {}, by decide +kernel⟩⟩

theorem witness_ConfigurationAndPowerStates_ConfigurationWrite :
    (∃ (s : State) (_b : Told) (_c : Told) (_d : Told),
      carried s 4 ∧ s.mx.gl.phase = .ready ∧ s.mx.gl.wrBusy = false ∧ (port s.mx 0).down = false ∧
        0 < fld (reg s.mx 0x44) 16 0) ∧
    (∃ (s : State) (_b : Told) (_c : Told) (_d : Told),
      carried s 4 ∧ s.mx.gl.phase = .ready ∧ s.mx.gl.wrBusy = false ∧ (port s.mx 0).down = true ∧
        0 < fld (reg s.mx 0x44) 16 0) ∧
    (∃ (s : State) (_b : Told) (_c : Told) (_d : Told),
      carried s 4 ∧ (s.mx.gl.phase ≠ .ready ∨ s.mx.gl.wrBusy = true)) ∧
    (∃ (s : State) (tag : Nat) (stat : Nat) (_data : BitVec 1024) (o : Out) (a : OwnAcc),
      tag < 1024 ∧ stat < 4 ∧ (port s.mx 0).out = [o] ∧ o.tag = tag ∧ o.req.op = .read ∧
        o.req.why = .own true a.no ∧ o.bad = none ∧ o.got + 1 = o.req.beats ∧ (port s.mx 0).waiting = [] ∧
        (port s.mx 0).owed = [] ∧ s.mx.gl.cfgAcc = some a ∧ a.todo = [] ∧ a.ended = none ∧ s.mx.dm.hostEnv = none ∧
        s.mx.gl.wrBusy = true) ∧
    (∃ (m : Mx) (w : SysW),
      sysW m 11 = some w ∧ w.ended = some (0, 0) ∧ w.later = false) ∧
    (∃ (m : Mx) (w : SysW),
      sysW m 11 = some w ∧ w.ended = some (0, 0) ∧ w.later = true) ∧
    (∃ (m : Mx) (w : SysW) (x : Nat × Nat),
      sysW m 11 = some w ∧ w.ended = some x ∧ x.1 ≠ 0) :=
  ⟨⟨wSt { wMx with regs := [(0x30, 0x80000000), (0x3C, 0xFC0), (0x44, 128)], hp := [(0, { reqCr := 1 })] }, .held, .held, .held, by unfold carried; decide +kernel⟩,
   ⟨wSt { wMx with hp := [(0, { down := true })], regs := [(0x44, 64)] }, .held, .held, .held, by unfold carried; decide +kernel⟩,
   ⟨wSt {}, .held, .held, .held, by unfold carried; decide +kernel⟩,
   ⟨wSt { wMx with regs := [(0x30, 0x80000000), (0x3C, 0x1000), (0x44, 64)], gl := { wMx.gl with wrBusy := true, cfgA := some 41, cfgB := some 40, cfgAcc := some { port := 0, no := 3 } }, hp := [(0, { out := [{ tag := 7, req := readReq 0x1000 64 (.own true 3) }] })] }, 7, 0, 0x147464E43, { tag := 7, req := readReq 0x1000 64 (.own true 3) }, { port := 0, no := 3 }, by decide +kernel⟩,
   ⟨{ gl := { wrBusy := true, cfgNew := wCfgRec }, wr := [(11, { die := 5, ended := some (0, 0) })] }, { die := 5, ended := some (0, 0) }, by decide +kernel⟩,
   ⟨{ gl := { wrBusy := true, cfgNew := wCfgRec }, wr := [(11, { die := 5, later := true, copyB := true, ended := some (0, 0) })] }, { die := 5, later := true, copyB := true, ended := some (0, 0) }, by decide +kernel⟩,
   ⟨{ gl := { wrBusy := true, cfgNew := wCfgRec }, wr := [(11, { die := 5, ended := some (4, 1) })] }, { die := 5, ended := some (4, 1) }, (4, 1), by decide +kernel⟩⟩

theorem witness_ConfigurationAndPowerStates_LockAndPowerStates :
    (∃ (s : State),
      carried s 0x10) ∧
    (∃ (s : State) (aw : Bool) (c : Instr) (n : Nat),
      carried s 0x14 ∧ s.mx.gl.phase = .ready ∧ s.mx.gl.pstate = 0 ∧ (∀ x ∈ s.mx.die, x.2.spec = none) ∧
        (c = .p1Request aw ∧ n = 1 ∨ c = .p2Request aw ∧ n = 2 ∨ c = .p3Request aw ∧ n = 3)) ∧
    (∃ (s : State) (aw : Bool) (c : Instr) (n : Nat),
      carried s 0x14 ∧ s.mx.gl.phase = .ready ∧ s.mx.gl.pstate = 0 ∧ (c = .p1Request aw ∧
        n = 1 ∨ c = .p2Request aw ∧ n = 2 ∨ c = .p3Request aw ∧ n = 3)) ∧
    (∃ (s : State),
      s.mx.gl.waitQuiet = true ∧ quiescent s.mx = true ∧ (s.mx.gl.req = 1 ∨ s.mx.gl.req = 2)) ∧
    (∃ (s : State),
      s.mx.gl.waitQuiet = true ∧ quiescent s.mx = true ∧ s.mx.gl.req = 3) ∧
    (∃ (s : State) (_aw : Bool) (_env : StartEnv),
      carried s 0x14 ∧ s.mx.gl.pstate = 0) ∧
    (∃ (s : State) (_aw : Bool) (_env : StartEnv),
      carried s 0x14 ∧ s.mx.gl.pstate = 1) ∧
    (∃ (s : State) (_aw : Bool) (env : StartEnv),
      carried s 0x14 ∧ s.mx.gl.pstate = 2 ∧ env.sets = []) ∧
    (∃ (s : State) (_aw : Bool) (_env : StartEnv),
      carried s 0x14 ∧ s.mx.gl.pstate = 3 ∧ s.mx.gl.pfailN = false ∧ s.mx.dm.cmds = []) ∧
    (∃ (s : State) (_aw : Bool) (_env : StartEnv),
      carried s 0x14 ∧ s.mx.gl.pstate = 3 ∧ s.mx.gl.pfailN = true ∧ s.mx.gl.warmOwed = false) ∧
    (∃ (s : State) (aw : Bool) (c : Instr) (n : Nat),
      carried s 0x14 ∧ (s.mx.gl.phase ≠ .ready ∨ (s.mx.gl.pstate ≠ 0 ∧ s.mx.gl.pstate ≠ n)) ∧ (c = .p1Request aw ∧
        n = 1 ∨ c = .p2Request aw ∧ n = 2 ∨ c = .p3Request aw ∧ n = 3)) ∧
    (∃ (s : State),
      (s.mx.gl.waitQuiet = false ∨ quiescent s.mx = false)) :=
  ⟨⟨wSt wMx, by unfold carried; decide +kernel⟩,
   ⟨wSt wMx, true, .p3Request true, 3, by unfold carried; decide +kernel⟩,
   ⟨wSt { wMx with die := [(5, { spec := some { row := 3, planes := 1, arg0 := 0, arg1 := 0, profile := 1 } })] }, true, .p3Request true, 3, by unfold carried; decide +kernel⟩,
   ⟨wSt { wMx with gl := { wMx.gl with waitQuiet := true, req := 2 } }, by decide +kernel⟩,
   ⟨wSt { wMx with gl := { wMx.gl with waitQuiet := true, req := 3 } }, by decide +kernel⟩,
   ⟨wSt wMx, false, {}, by unfold carried; decide +kernel⟩,
   ⟨wSt { wMx with gl := { wMx.gl with pstate := 1, req := 1 } }, false, {}, by unfold carried; decide +kernel⟩,
   ⟨wSt { wMx with gl := { wMx.gl with pstate := 2, req := 2 } }, false, {}, by unfold carried; decide +kernel⟩,
   ⟨wSt { wMx with gl := { wMx.gl with pstate := 3, req := 3, pfailN := false } }, false, {}, by unfold carried; decide +kernel⟩,
   ⟨wSt { wMx with gl := { wMx.gl with pstate := 3, req := 3 }, dm := { slotA := some (wPkg 6) }, regs := [(doOff 0xA0, 0x80000000)] }, false, {}, by unfold carried; decide +kernel⟩,
   ⟨wSt { wMx with gl := { wMx.gl with pstate := 2, req := 2 } }, true, .p3Request true, 3, by unfold carried; decide +kernel⟩,
   ⟨wSt wMx, by decide +kernel⟩⟩

theorem witness_CreditsCounted :
    (∃ (s : State) (p : Nat),
      p < 4 ∧ (port s.mx p).reqCr < 64 ∧ (port s.mx p).owed = [] ∧
        ((port s.mx p).waiting = [] ∨ (port s.mx p).drain = true ∨ (port s.mx p).down = true ∨ s.mx.gl.phase = .warm)) ∧
    (∃ (s : State) (p : Nat),
      p < 4 ∧ (port s.mx p).wrCr < 256 ∧ (port s.mx p).owed = [] ∧
        ((port s.mx p).waiting = [] ∨ (port s.mx p).drain = true ∨ (port s.mx p).down = true ∨ s.mx.gl.phase = .warm)) ∧
    (∃ (s : State) (p : Nat),
      p < 4 ∧ 64 ≤ (port s.mx p).reqCr) ∧
    (∃ (s : State) (p : Nat),
      p < 4 ∧ 256 ≤ (port s.mx p).wrCr) :=
  ⟨⟨wPort3 { reqCr := 63 }, 3, by decide +kernel⟩,
   ⟨wPort3 { wrCr := 255 }, 3, by decide +kernel⟩,
   ⟨wPort3 { reqCr := 64 }, 3, by decide +kernel⟩,
   ⟨wPort3 { wrCr := 256 }, 3, by decide +kernel⟩⟩

theorem witness_RequestsAndResponses_CreditIssuesRequest :
    (∃ (s : State) (p : Nat) (q : Req),
      p < 4 ∧ s.mx.gl.phase ≠ .warm ∧ (port s.mx p).waiting = [q] ∧ (port s.mx p).reqCr = 0 ∧
        (port s.mx p).wrCr = 0 ∧ (port s.mx p).drain = false ∧ (port s.mx p).down = false ∧
        (tagsUsed (port s.mx p)).length < 900 ∧ (∀ x ∈ tagsUsed (port s.mx p), x < 1024)) ∧
    (∃ (s : State) (p : Nat) (b : Beat) (bs : List Beat),
      p < 4 ∧ (port s.mx p).wrCr = 0 ∧ (port s.mx p).owed = b :: bs ∧ (port s.mx p).waiting = []) :=
  ⟨⟨wPort3 { waiting := [wBody], out := [{ tag := 1023, req := wFetchReq }] }, 3, wBody, by decide +kernel⟩,
   ⟨wPort3 { owed := [{ tag := 9, addr := 128 }, { tag := 9, addr := 256, last := true }] }, 3, { tag := 9, addr := 128 }, [{ tag := 9, addr := 256, last := true }], by decide +kernel⟩⟩

theorem witness_RequestsAndResponses_ResponsesAndTimeouts :
    (∃ (s : State) (p : Nat) (tag : Nat) (stat : Nat) (r : Nat) (_d : BitVec 1024) (o : Out),
      noFetch s.mx ∧ p < 4 ∧ tag < 1024 ∧ stat < 4 ∧ (port s.mx p).out = [o] ∧ o.tag = tag ∧ o.req.op = .read ∧
        o.got + 1 = o.req.beats ∧ o.bad = none ∧ o.req.why = .fetch r ∧ (port s.mx p).retired = []) ∧
    (∃ (s : State) (p : Nat) (tag : Nat) (r : Nat) (o : Out),
      noFetch s.mx ∧ p < 4 ∧ tag < 1024 ∧ (port s.mx p).out = [o] ∧ o.tag = tag ∧ o.req.why = .fetch r ∧
        (port s.mx p).retired = []) ∧
    (∃ (s : State) (p : Nat) (tag : Nat) (_stat : Nat) (_kind : Bool) (_last : Bool) (_d : BitVec 1024),
      noFetch s.mx ∧ p < 4 ∧ tag < 1024 ∧ (∀ o ∈ (port s.mx p).out, o.tag ≠ tag) ∧
        (∀ x ∈ (port s.mx p).retired, x.tag ≠ tag)) ∧
    (∃ (s : State) (p : Nat) (tag : Nat) (stat : Nat) (_d : BitVec 1024) (o : Out),
      noFetch s.mx ∧ p < 4 ∧ tag < 1024 ∧ stat < 4 ∧ (port s.mx p).out = [o] ∧ o.tag = tag ∧ o.req.op = .read ∧
        o.got + 1 < o.req.beats) ∧
    (∃ (s : State) (p : Nat) (tag : Nat) (stat : Nat) (e : Nat) (_d : BitVec 1024) (o : Out) (x : Ent),
      noFetch s.mx ∧ p < 4 ∧ tag < 1024 ∧ stat < 4 ∧ (port s.mx p).out = [o] ∧ o.tag = tag ∧ o.req.op = .writeOrd ∧
        o.req.why = .cplOrd e ∧ ent s.mx e = some x ∧ (∀ b ∈ (port s.mx p).owed, b.tag ≠ tag) ∧
        (port s.mx p).retired = []) ∧
    (∃ (s : State) (p : Nat) (tag : Nat) (_stat : Nat) (e : Nat) (_d : BitVec 1024) (o : Out) (b : Beat) (x : Ent),
      noFetch s.mx ∧ p < 4 ∧ tag < 1024 ∧ (port s.mx p).out = [o] ∧ o.tag = tag ∧ o.req.op = .writeOrd ∧
        o.req.why = .cplOrd e ∧ ent s.mx e = some x ∧ (port s.mx p).owed = [b] ∧ b.tag = tag) ∧
    (∃ (s : State) (p : Nat) (tag : Nat) (_stat : Nat) (kind : Bool) (_last : Bool) (_d : BitVec 1024) (r : Retired),
      noFetch s.mx ∧ p < 4 ∧ tag < 1024 ∧ (∀ o ∈ (port s.mx p).out, o.tag ≠ tag) ∧ (port s.mx p).retired = [r] ∧
        r.tag = tag ∧ (kind = true ∧ r.op ≠ .read ∨ kind = false ∧ r.op = .read)) :=
  ⟨⟨wPort3 { out := [{ tag := 1023, req := wFetchReq }] }, 3, 1023, 3, 263, 0, { tag := 1023, req := wFetchReq }, by unfold noFetch; decide +kernel⟩,
   ⟨wPort3 { out := [{ tag := 1023, req := wFetchReq }] }, 3, 1023, 263, { tag := 1023, req := wFetchReq }, by unfold noFetch; decide +kernel⟩,
   ⟨wPort3 { out := [{ tag := 1023, req := wFetchReq }] }, 3, 1022, 3, false, true, 0, by unfold noFetch; decide +kernel⟩,
   ⟨wPort3 { out := [{ tag := 1023, req := { wFetchReq with beats := 2 } }] }, 3, 1023, 3, 0, { tag := 1023, req := { wFetchReq with beats := 2 } }, by unfold noFetch; decide +kernel⟩,
   ⟨wSt { wMx with hp := [(3, { out := [{ tag := 1023, req := wOrd }] })], ents := [(5, some { stage := .written })] }, 3, 1023, 1, 5, 0, { tag := 1023, req := wOrd }, { stage := .written }, by unfold noFetch; decide +kernel⟩,
   ⟨wSt { wMx with hp := [(3, { out := [{ tag := 1023, req := wOrd }], owed := [{ tag := 1023, addr := 0 }] })], ents := [(5, some { stage := .written })] }, 3, 1023, 1, 5, 0, { tag := 1023, req := wOrd }, { tag := 1023, addr := 0 }, { stage := .written }, by unfold noFetch; decide +kernel⟩,
   ⟨wPort3 { retired := [{ tag := 1023, op := .read }] }, 3, 1023, 0, false, true, 0, { tag := 1023, op := .read }, by unfold noFetch; decide +kernel⟩⟩

theorem witness_AccessRefused :
    (∃ (s : State) (off : Nat) (be : Nat) (c : Nat) (_v : Word),
      off < 2 ^ 24 ∧ s.mx.gl.porstN = true ∧ accessCause s.mx off be = some c) ∧
    (∃ (s : State) (off : Nat) (be : Nat) (c : Nat),
      off < 2 ^ 24 ∧ s.mx.gl.porstN = true ∧ accessCause s.mx off be = some c) :=
  ⟨⟨wSt wMx, 0x50000, 15, 2, 0, by decide +kernel⟩,
   ⟨wSt wMx, 0xFFFFFC, 7, 1, by decide +kernel⟩⟩

theorem witness_RegisterAccess :
    (∃ (s : State) (_v : Word),
      carried s 0x3C) ∧
    (∃ (s : State) (_v : Word),
      carried s 0x20 ∧ s.mx.gl.lockClosed = false) ∧
    (∃ (s : State) (_v : Word),
      carried s 0x20 ∧ s.mx.gl.lockClosed = true) ∧
    (∃ (s : State) (off : Nat),
      off < 2 ^ 24 ∧ carried s off ∧ isLo off = true) ∧
    (∃ (s : State) (off : Nat) (w : Word),
      off + 4 < 2 ^ 24 ∧ carried s (off + 4) ∧ isLo off = true ∧
        s.mx.cp.loCap.find? (fun x => x.1 == off) = some (off, w)) ∧
    (∃ (s : State) (off : Nat),
      off < 0x800000 ∧ carried s off ∧ isLo off = false ∧ (4 ≤ off → isLo (off - 4) = false) ∧
        off ∉ [sgOff 0x3C, trOff 0x14, 0x600004, nlOff 0x20, nlOff 0x3C] ∧
        (off < 0x11000 ∨ 0x11800 ≤ off ∨ off % 0x40 ≠ 4)) :=
  ⟨⟨wSt wMx, 5, by unfold carried; decide +kernel⟩,
   ⟨wSt wMx, 5, by unfold carried; decide +kernel⟩,
   ⟨wSt { wMx with gl := { wMx.gl with lockClosed := true } }, 5, by unfold carried; decide +kernel⟩,
   ⟨wSt wMx, 0x80000, by unfold carried; decide +kernel⟩,
   ⟨wSt { wMx with cp := { loCap := [(0x80000, 9)] } }, 0x80000, 9, by unfold carried; decide +kernel⟩,
   ⟨wSt wMx, 0x14, by unfold carried; decide +kernel⟩⟩

theorem witness_RingStates :
    (∃ (s : State) (a : Agent) (r : Nat),
      r < 259 ∧ writes a (decide (256 ≤ r)) s (qeRingOff r 0xC) ∧ (ring s.mx r).state = .disabled ∧
        4 ≤ ringSize s.mx r ∧ ringSize s.mx r ≤ 16) ∧
    (∃ (s : State) (a : Agent) (r : Nat),
      r < 264 ∧ writes a (decide (256 ≤ r)) s (qeRingOff r 0xC) ∧
        ((ring s.mx r).state = .active ∨ (ring s.mx r).state = .stoppedErr) ∧ (ring s.mx r).live = [] ∧
        (ring s.mx r).reqAt = none ∧ lockedDies s.mx r = [] ∧
        (∀ q ∈ (port s.mx (ringPort s.mx r)).waiting, q.why ≠ .fetch r)) ∧
    (∃ (s : State) (a : Agent) (r : Nat),
      r < 264 ∧ writes a (decide (256 ≤ r)) s (qeRingOff r 0xC) ∧
        ((ring s.mx r).state = .active ∨ (ring s.mx r).state = .stoppedErr ∨ (ring s.mx r).state = .stopping) ∧
        (ring s.mx r).live = [] ∧ lockedDies s.mx r = [] ∧
        (∀ q ∈ (port s.mx (ringPort s.mx r)).waiting, q.why ≠ .fetch r)) ∧
    (∃ (s : State) (r : Nat),
      r < 264 ∧ (ring s.mx r).state = .resetting ∧ (ring s.mx r).live = [] ∧ (ring s.mx r).reqAt = none) ∧
    (∃ (s : State) (a : Agent) (r : Nat),
      r < 264 ∧ writes a (decide (256 ≤ r)) s (qeRingOff r 0xC) ∧ (ring s.mx r).state = .stoppedErr) ∧
    (∃ (s : State) (a : Agent) (r : Nat),
      r < 264 ∧ writes a (decide (256 ≤ r)) s (qeRingOff r 0xC) ∧
        ((ring s.mx r).state = .active ∨ (ring s.mx r).state = .stoppedErr)) ∧
    (∃ (s : State) (a : Agent) (r : Nat),
      r < 264 ∧ writes a (decide (256 ≤ r)) s (qeRingOff r 0xC) ∧
        ((ring s.mx r).state = .active ∨ (ring s.mx r).state = .stoppedErr ∨ (ring s.mx r).state = .stopping)) ∧
    (∃ (s : State) (a : Agent) (r : Nat) (c : Instr),
      r < 264 ∧ writes a (decide (256 ≤ r)) s (qeRingOff r 0xC) ∧ ((ring s.mx r).state = .disabled ∧
        (c = .shutdown a r ∨ c = .ringFreset a r ∨ c = .resume a r) ∨
      ((ring s.mx r).state = .active ∨ (ring s.mx r).state = .stoppedErr) ∧ c = .enable a r)) ∧
    (∃ (s : State) (r : Nat),
      r < 264 ∧ ((ring s.mx r).state ≠ .resetting ∨ (ring s.mx r).live ≠ [] ∨ (ring s.mx r).reqAt ≠ none)) ∧
    (∃ (s : State) (r : Nat) (c : Instr),
      256 ≤ r ∧ r < 264 ∧ carried s (qeRingOff r 0xC) ∧
        (c = .enable .host r ∨ c = .shutdown .host r ∨ c = .ringFreset .host r ∨ c = .resume .host r)) ∧
    (∃ (s : State) (r : Nat),
      259 ≤ r ∧ r < 264 ∧ (ring s.mx r).state = .disabled) :=
  ⟨⟨wRing 255 {}, .host, 255, by unfold writes carried; decide +kernel⟩,
   ⟨wRing 263 { state := .stoppedErr }, .dome, 263, by unfold writes carried; decide +kernel⟩,
   ⟨wRing 0 { state := .stopping }, .host, 0, by unfold writes carried; decide +kernel⟩,
   ⟨wRing 263 { state := .resetting }, 263, by decide +kernel⟩,
   ⟨wRing 255 { state := .stoppedErr }, .host, 255, by unfold writes carried; decide +kernel⟩,
   ⟨wSt { (wEnt 255 0 { state := .active, head := 0, tail := 9, fetch := 1, cache := [0], live := [0], reqAt := some (1, 8), keep := 8 } { raw := 0x19 }).mx with hp := [(3, { waiting := [{ op := .read, addr := 0x40, beats := 4, why := .fetch 255 }] })] }, .host, 255, by unfold writes carried; decide +kernel⟩,
   ⟨wEnt 255 0 { state := .active, head := 0, tail := 1, fetch := 1, cache := [0], live := [0] } { raw := 0x19 }, .host, 255, by unfold writes carried; decide +kernel⟩,
   ⟨wRing 255 {}, .host, 255, .resume .host 255, by unfold writes carried; decide +kernel⟩,
   ⟨wRing 263 { state := .active }, 263, by decide +kernel⟩,
   ⟨wRing 263 { state := .active }, 263, .shutdown .host 263, by unfold carried; decide +kernel⟩,
   ⟨wRing 263 {}, 263, by decide +kernel⟩⟩

theorem witness_RingStates_RingRefusedAndAborted :
    (∃ (s : State) (a : Agent) (r : Nat),
      r < 259 ∧ writes a (decide (256 ≤ r)) s (qeRingOff r 0xC) ∧ (ring s.mx r).state = .disabled ∧
        (ringSize s.mx r < 4 ∨ 16 < ringSize s.mx r) ∧ bit (ring s.mx r).err 31 = false) ∧
    (∃ (s : State) (a : Agent) (r : Nat) (i : Nat) (e : Ent),
      r < 256 ∧ i < 131072 ∧ writes a false s (qeRingOff r 0xC) ∧ (ring s.mx r).state = .active ∧
        (ring s.mx r).live = [i] ∧ ent s.mx (eidOf r i) = some e ∧ e.stage = .cached ∧ e.admitted = false ∧
        eOpc e = 0x19 ∧ e.stripe = none ∧ s.mx.sb.resv = [] ∧ s.mx.sb.wait = [] ∧ s.mx.die = [] ∧
        s.mx.dx.queue = [] ∧ s.mx.dx.eng = [] ∧ s.mx.cx.cl = [] ∧ s.mx.tr.reqs = [] ∧ s.mx.tr.holds = []) :=
  ⟨⟨wSt { wMx with regs := [(qeRingOff 255 8, 0x00FF0011)] }, .host, 255, by unfold writes carried; decide +kernel⟩,
   ⟨wEnt 255 0 { state := .active, head := 0, tail := 1, fetch := 1, cache := [0], live := [0] } { raw := 0x19 }, .host, 255, 0, { raw := 0x19 }, by unfold writes carried; decide +kernel⟩⟩

theorem witness_RingConfiguration :
    (∃ (s : State) (a : Agent) (r : Nat) (_v : Word),
      r < 264 ∧ writes a (decide (256 ≤ r)) s (qeRingOff r 0) ∧ (ring s.mx r).state = .disabled) ∧
    (∃ (s : State) (a : Agent) (r : Nat) (_v : Word),
      r < 264 ∧ writes a (decide (256 ≤ r)) s (qeRingOff r 4) ∧ (ring s.mx r).state = .disabled) ∧
    (∃ (s : State) (a : Agent) (r : Nat) (_v : Word),
      r < 264 ∧ writes a (decide (256 ≤ r)) s (qeRingOff r 8) ∧ (ring s.mx r).state = .disabled ∧
        s.mx.gl.lockClosed = false) ∧
    (∃ (s : State) (a : Agent) (r : Nat) (k : Nat) (_v : Word),
      r < 264 ∧ (k = 0 ∨ k = 4 ∨ k = 8) ∧ writes a (decide (256 ≤ r)) s (qeRingOff r k) ∧
        (ring s.mx r).state ≠ .disabled) :=
  ⟨⟨wSt wMx, .host, 255, 0x12345678, by unfold writes carried; decide +kernel⟩,
   ⟨wSt wMx, .dome, 263, 0x12345678, by unfold writes carried; decide +kernel⟩,
   ⟨wSt wMx, .host, 0, 0xFFFFFFFF, by unfold writes carried; decide +kernel⟩,
   ⟨wRing 255 { state := .active }, .host, 255, 8, 7, by unfold writes carried; decide +kernel⟩⟩

theorem witness_DoorbellsAndHolds_Doorbells :
    (∃ (s : State) (a : Agent) (r : Nat) (v : Word),
      r < 264 ∧ writes a (decide (256 ≤ r)) s (dbOff r 0) ∧
        ((ring s.mx r).state = .active ∨ (ring s.mx r).state = .stoppedErr) ∧ v.toNat < idxMod s.mx r ∧
        occupancy s.mx r + idxSub s.mx r v.toNat (ring s.mx r).tail ≤ slots s.mx r ∧ s.mx.gl.pstate = 0) ∧
    (∃ (s : State) (a : Agent) (r : Nat) (v : Word),
      r < 264 ∧ writes a (decide (256 ≤ r)) s (dbOff r 4) ∧
        ((ring s.mx r).state = .active ∨ (ring s.mx r).state = .stoppedErr ∨ (ring s.mx r).state = .stopping) ∧
        v.toNat < idxMod s.mx r ∧
        idxSub s.mx r v.toNat (ring s.mx r).head ≤ idxSub s.mx r (ring s.mx r).cpt (ring s.mx r).head ∧
        s.mx.gl.pstate = 0) ∧
    (∃ (s : State) (a : Agent) (r : Nat) (code : Nat) (v : Word),
      r < 264 ∧ writes a (decide (256 ≤ r)) s (dbOff r 0) ∧ bit (ring s.mx r).err 31 = false ∧
        ((ring s.mx r).state ≠ .active ∧ (ring s.mx r).state ≠ .stoppedErr ∧ code = 0x12 ∨
      (ring s.mx r).state = .active ∧ idxMod s.mx r ≤ v.toNat ∧ code = 0x13 ∨
      (ring s.mx r).state = .active ∧ v.toNat < idxMod s.mx r ∧
      slots s.mx r < occupancy s.mx r + idxSub s.mx r v.toNat (ring s.mx r).tail ∧ code = 0x10)) :=
  ⟨⟨wRing 255 { state := .active, tail := 4 }, .host, 255, 16, by unfold writes carried; decide +kernel⟩,
   ⟨wRing 263 { state := .stopping, tail := 4, cpt := 3, fetch := 4 }, .dome, 263, 3, by unfold writes carried; decide +kernel⟩,
   ⟨wRing 0 { state := .active, tail := 4 }, .host, 0, 0x10, 17, by unfold writes carried; decide +kernel⟩⟩

theorem witness_EntryFetch :
    (∃ (s : State) (r : Nat),
      r < 264 ∧ nextFetch s.mx = some r ∧ parked s.mx (ringPort s.mx r)) ∧
    (∃ (s : State) (r : Nat) (i : Nat) (data : Mem),
      r < 264 ∧ (ring s.mx r).state = .active ∧ (ring s.mx r).ans = some (none, data) ∧
        (ring s.mx r).reqAt = some (i, 1) ∧ (ring s.mx r).keep = 1 ∧ i < idxMod s.mx r) ∧
    (∃ (s : State) (r : Nat),
      r < 264 ∧ nextFetch s.mx ≠ some r) ∧
    (∃ (s : State) (r : Nat) (i : Nat) (n : Nat) (data : Mem),
      r < 264 ∧ (ring s.mx r).state = .active ∧ 4 ≤ ringSize s.mx r ∧ (ring s.mx r).ans = some (none, data) ∧
        (ring s.mx r).reqAt = some (i, n) ∧ (ring s.mx r).keep = n ∧ 0 < n ∧ n ≤ 8 ∧ i < idxMod s.mx r) ∧
    (∃ (s : State) (r : Nat) (i : Nat) (n : Nat) (c : Cause) (data : Mem),
      r < 264 ∧ (ring s.mx r).state = .active ∧ (ring s.mx r).ans = some (some c, data) ∧
        (ring s.mx r).reqAt = some (i, n) ∧ bit (ring s.mx r).err 31 = false) :=
  ⟨⟨wRing 263 { state := .active, tail := 1 }, 263, by unfold parked; decide +kernel⟩,
   ⟨wRing 255 { state := .active, tail := 1, reqAt := some (0, 1), keep := 1, ans := some (none, []) }, 255, 0, [], by decide +kernel⟩,
   ⟨wRing 255 { state := .active }, 255, by decide +kernel⟩,
   ⟨wRing 255 { state := .active, tail := 3, reqAt := some (0, 3), keep := 3, ans := some (none, []) }, 255, 0, 3, [], by decide +kernel⟩,
   ⟨wRing 255 { state := .active, tail := 4, reqAt := some (0, 4), keep := 4, ans := some (some .noTarget, []) }, 255, 0, 4, .noTarget, [], by decide +kernel⟩⟩

theorem witness_DoorbellsAndHolds_HoldAndRelease :
    (∃ (s : State) (r : Nat) (slot : Nat) (i : Nat),
      r < 256 ∧ slot < 65536 ∧ carried s 0x29000 ∧ dispatches (ring s.mx r) = true ∧ slot < slots s.mx r ∧
        ownedIdx s.mx r slot = some i ∧ dispatchedIdx s.mx r i = false ∧ (ring s.mx r).hold = none) ∧
    (∃ (s : State) (r : Nat) (slot : Nat) (i : Nat),
      r < 256 ∧ slot < 65536 ∧ carried s 0x29000 ∧ dispatches (ring s.mx r) = true ∧ slot < slots s.mx r ∧
        ownedIdx s.mx r slot = some i ∧ dispatchedIdx s.mx r i = true) ∧
    (∃ (s : State) (r : Nat) (slot : Nat),
      r < 256 ∧ slot < 65536 ∧ carried s 0x29000 ∧
        (dispatches (ring s.mx r) = false ∨ slots s.mx r ≤ slot ∨ ownedIdx s.mx r slot = none)) ∧
    (∃ (s : State) (r : Nat),
      r < 256 ∧ carried s 0x29000) ∧
    (∃ (s : State) (r : Nat) (slot : Nat),
      256 ≤ r ∧ r < 512 ∧ slot < 65536 ∧ carried s 0x29000) ∧
    (∃ (s : State) (r : Nat),
      256 ≤ r ∧ r < 512 ∧ carried s 0x29000) :=
  ⟨⟨wRing 255 { state := .active, tail := 3, fetch := 3, cache := [1, 2] }, 255, 2, 2, by unfold carried; decide +kernel⟩,
   ⟨wRing 255 { state := .active, tail := 3, fetch := 3, cache := [1, 2] }, 255, 0, 0, by unfold carried; decide +kernel⟩,
   ⟨wRing 255 { state := .active, tail := 3, fetch := 3, cache := [1, 2] }, 255, 3, by unfold carried; decide +kernel⟩,
   ⟨wRing 255 { state := .active, hold := some 4 }, 255, by unfold carried; decide +kernel⟩,
   ⟨wSt wMx, 256, 3, by unfold carried; decide +kernel⟩,
   ⟨wSt wMx, 256, by unfold carried; decide +kernel⟩⟩

theorem witness_CompletionsAndNotices_Completions :
    (∃ (s : State) (r : Nat) (i : Nat) (e : Ent),
      r < 264 ∧ i < 131072 ∧ ent s.mx (eidOf r i) = some e ∧ e.stage = .final ∧ parked s.mx (ringPort s.mx r) ∧
        (ring s.mx r).cpt = i ∧ (ring s.mx r).orded = []) ∧
    (∃ (s : State) (r : Nat) (i : Nat) (e : Ent),
      r < 264 ∧ i < idxMod s.mx r ∧ i < 131072 ∧ ent s.mx (eidOf r i) = some e ∧ e.stage = .final ∧
        (ring s.mx r).cpt = i ∧ (ring s.mx r).orded = [] ∧ s.mx.gl.phase ≠ .warm ∧
        (let p := port s.mx (ringPort s.mx r)
      p.reqCr = 2 ∧ p.waiting = [] ∧ p.out = [] ∧ p.retired = [] ∧ p.drain = false ∧ p.down = false)) ∧
    (∃ (s : State) (r : Nat) (i : Nat) (e : Ent),
      r < 264 ∧ i < 131072 ∧ ent s.mx (eidOf r i) = some e ∧ e.stage = .final ∧
        (port s.mx (ringPort s.mx r)).down = true ∧ (ring s.mx r).orded = []) ∧
    (∃ (s : State) (r : Nat) (i : Nat) (e : Ent),
      r < 264 ∧ i < 131072 ∧ ent s.mx (eidOf r i) = some e ∧ e.stage = .written ∧ e.ordAns = some none ∧
        e.bodyBad = none ∧ eNotice e = false ∧ (ring s.mx r).fence = none ∧ (ring s.mx r).state = .active ∧
        ccnt s.mx r = 0 ∧ ctime s.mx r = 0) ∧
    (∃ (s : State) (r : Nat) (i : Nat) (e : Ent),
      r < 264 ∧ i < 131072 ∧ ent s.mx (eidOf r i) = some e ∧ e.stage = .written ∧ e.ordAns = some none ∧
        e.bodyBad = none ∧ eNotice e = false ∧ (ring s.mx r).fence = none ∧ (ring s.mx r).state = .active ∧
        heldCount s.mx r + 1 < ccnt s.mx r) ∧
    (∃ (s : State) (r : Nat) (i : Nat) (e : Ent),
      r < 264 ∧ i < 131072 ∧ ent s.mx (eidOf r i) = some e ∧ e.stage = .written ∧ e.ordAns = some none ∧
        e.bodyBad = none ∧ eNotice e = true ∧ (ring s.mx r).fence = none ∧ (ring s.mx r).state = .active ∧
        (ntc s.mx (grpOf r)).en = true ∧ ((ntc s.mx (grpOf r)).ovf = true ∨ ntcFull s.mx (grpOf r) = true) ∧
        ccnt s.mx r = 0 ∧ ctime s.mx r = 0) ∧
    (∃ (s : State) (r : Nat) (i : Nat) (e : Ent),
      r < 264 ∧ i < 131072 ∧ ent s.mx (eidOf r i) = some e ∧ e.stage = .written ∧ e.ordAns = some none ∧
        e.bodyBad = none ∧ eNotice e = true ∧ (ring s.mx r).fence = none ∧ (ntc s.mx (grpOf r)).en = true ∧
        (ntc s.mx (grpOf r)).ovf = false ∧ ntcFull s.mx (grpOf r) = false ∧ parked s.mx (ringPort s.mx r)) ∧
    (∃ (s : State) (r : Nat) (i : Nat) (e : Ent) (c : Cause),
      r < 264 ∧ i < 131072 ∧ ent s.mx (eidOf r i) = some e ∧ e.stage = .written ∧ e.ordAns = some (some c) ∧
        (ring s.mx r).fence = none ∧ (ring s.mx r).state = .active) :=
  ⟨⟨wEnt 263 131071 { state := .active, cpt := 131071, live := [131071] } { stage := .final, raw := 0x19 }, 263, 131071, { stage := .final, raw := 0x19 }, by unfold parked; decide +kernel⟩,
   ⟨wSt { (wEnt 255 3 { state := .active, cpt := 3, live := [3] } { stage := .final, raw := 0x19 }).mx with hp := [(3, { reqCr := 2 })] }, 255, 3, { stage := .final, raw := 0x19 }, by decide +kernel⟩,
   ⟨wSt { (wEnt 255 3 { state := .active, cpt := 3, live := [3] } { stage := .final, raw := 0x19 }).mx with hp := [(3, { down := true })] }, 255, 3, { stage := .final, raw := 0x19 }, by decide +kernel⟩,
   ⟨wEnt 255 0 { state := .active, live := [0], orded := [0] } { stage := .written, ordAns := some none }, 255, 0, { stage := .written, ordAns := some none }, by decide +kernel⟩,
   ⟨wSt { (wEnt 255 0 { state := .active, live := [0], orded := [0] } { stage := .written, ordAns := some none }).mx with regs := [(icSrcOff 255, 0x05001000)] }, 255, 0, { stage := .written, ordAns := some none }, by decide +kernel⟩,
   ⟨wSt { (wEnt 255 0 { state := .active, live := [0], orded := [0] } { stage := .written, raw := 0x119, ordAns := some none }).mx with
      qe := { rings := [(255, { state := .active, live := [0], orded := [0] })], ntcs := [(31, { en := true, ovf := true })] } }, 255, 0, { stage := .written, raw := 0x119, ordAns := some none }, by decide +kernel⟩,
   ⟨wSt { (wEnt 255 0 { state := .active, live := [0], orded := [0] } { stage := .written, raw := 0x119, ordAns := some none }).mx with
      qe := { rings := [(255, { state := .active, live := [0], orded := [0] })], ntcs := [(31, { en := true })] } }, 255, 0, { stage := .written, raw := 0x119, ordAns := some none }, by unfold parked; decide +kernel⟩,
   ⟨wEnt 255 0 { state := .active, live := [0], orded := [0] } { stage := .written, ordAns := some (some .outOfService) }, 255, 0, { stage := .written, ordAns := some (some .outOfService) }, .outOfService, by decide +kernel⟩⟩

theorem witness_CompletionsAndNotices_NoticeAnswered :
    (∃ (s : State) (r : Nat) (i : Nat) (e : Ent),
      r < 264 ∧ i < 131072 ∧ ent s.mx (eidOf r i) = some e ∧ e.stage = .noticed ∧ e.ntcAns = some none ∧
        (ring s.mx r).fence = none ∧ (ring s.mx r).state = .active ∧ ccnt s.mx r = 0 ∧ ctime s.mx r = 0) ∧
    (∃ (s : State) (r : Nat) (i : Nat) (e : Ent) (c : Cause),
      r < 264 ∧ i < 131072 ∧ ent s.mx (eidOf r i) = some e ∧ e.stage = .noticed ∧ e.ntcAns = some (some c) ∧
        (ring s.mx r).fence = none ∧ (ring s.mx r).state = .active ∧ bit (ring s.mx r).err 31 = false) :=
  ⟨⟨wEnt 255 0 { state := .active, live := [0], orded := [0] } { stage := .noticed, ntcAns := some none }, 255, 0, { stage := .noticed, ntcAns := some none }, by decide +kernel⟩,
   ⟨wEnt 255 0 { state := .active, live := [0], orded := [0] } { stage := .noticed, ntcAns := some (some .timeout) }, 255, 0, { stage := .noticed, ntcAns := some (some .timeout) }, .timeout, by decide +kernel⟩⟩

theorem witness_NoticeGroups :
    (∃ (s : State) (a : Agent) (g : Nat) (v : Word),
      g < 33 ∧ writes a (decide (g = 32)) s (qeNtcOff g 8) ∧ (ntc s.mx g).en = false ∧ bit v 31 = true) ∧
    (∃ (s : State) (a : Agent) (g : Nat) (v : Word),
      g < 33 ∧ writes a (decide (g = 32)) s (qeNtcOff g 0xC) ∧ fld v 16 0 < ntcMod s.mx g ∧
        ntcSub s.mx g (fld v 16 0) (ntc s.mx g).head ≤ ntcSub s.mx g (ntc s.mx g).tail (ntc s.mx g).head) ∧
    (∃ (s : State) (a : Agent) (g : Nat) (v : Word),
      g < 33 ∧ writes a (decide (g = 32)) s (qeNtcOff g 0xC) ∧
        ntcSub s.mx g (ntc s.mx g).tail (ntc s.mx g).head < ntcSub s.mx g (fld v 16 0) (ntc s.mx g).head) ∧
    (∃ (s : State) (a : Agent) (g : Nat) (v : Word),
      g < 33 ∧ writes a (decide (g = 32)) s (qeNtcOff g 8) ∧ bit v 31 = false ∧ (ntc s.mx g).en = true) ∧
    (∃ (s : State) (a : Agent) (g : Nat) (v : Word),
      g < 33 ∧ writes a (decide (g = 32)) s (qeNtcOff g 8) ∧ bit v 31 = true ∧ (ntc s.mx g).en = true) :=
  ⟨⟨wSt wMx, .dome, 32, 0x80000010, by unfold writes carried; decide +kernel⟩,
   ⟨wSt { wMx with qe := { ntcs := [(31, { en := true, tail := 5, head := 2 })] } }, .host, 31, 5, by unfold writes carried; decide +kernel⟩,
   ⟨wSt { wMx with qe := { ntcs := [(31, { en := true, tail := 5, head := 2 })] } }, .host, 31, 6, by unfold writes carried; decide +kernel⟩,
   ⟨wSt { wMx with qe := { ntcs := [(31, { en := true, tail := 5, head := 2 })] } }, .host, 31, 5, by unfold writes carried; decide +kernel⟩,
   ⟨wSt { wMx with qe := { ntcs := [(31, { en := true, tail := 5, head := 2 })] } }, .host, 31, 0x80000007, by unfold writes carried; decide +kernel⟩⟩

theorem witness_EntryChecks :
    (∃ (s : State) (c : Instr) (r : Nat) (op : Nat) (i : Nat) (st : Nat) (d : Nat) (e : Ent),
      opcodeOf c = some (r, op) ∧ atTurn s.mx r i e ∧ eOpc e = op ∧ entryFault s.mx r e = some (st, d)) ∧
    (∃ (s : State) (r : Nat) (i : Nat) (e : Ent),
      atTurn s.mx r i e ∧ isOpcode (eOpc e) = false ∧ eFlag e 7 = false) ∧
    (∃ (s : State) (c : Instr) (r : Nat) (op : Nat) (i : Nat) (e : Ent),
      opcodeOf c = some (r, op) ∧ atTurn s.mx r i e ∧ eOpc e ≠ op) :=
  ⟨⟨wTurn 255 [(0, 1)], .read 255, 255, 1, 0, 0x1000, 0x0106, { raw := wRaw [(0, 1)] }, by unfold atTurn; decide +kernel⟩,
   ⟨wTurn 255 [(0, 7)], 255, 0, { raw := wRaw [(0, 7)] }, by unfold atTurn; decide +kernel⟩,
   ⟨wTurn 255 [(0, 7)], .read 255, 255, 1, 0, { raw := wRaw [(0, 7)] }, by unfold atTurn; decide +kernel⟩⟩

theorem witness_OpcodesAskForLines :
    ∃ (s : State) (c : Instr) (r : Nat) (op : Nat) (i : Nat) (e : Ent),
      opcodeOf c = some (r, op) ∧ atTurn s.mx r i e ∧ eOpc e = op ∧
        (c = .read r ∨ c = .program r ∨ c = .copy r ∨ c = .readRaw r ∨ c = .programRaw r ∨ c = .status r ∨
      c = .featureGet r ∨ c = .stripeOpen r ∨ c = .scan r ∨ c = .call r) ∧ entryFault s.mx r e = none ∧
        resBytes s.mx e ≠ 0 :=
  ⟨wTurn 255 wReadB, .read 255, 255, 1, 0, { raw := wRaw wReadB }, by unfold atTurn; decide +kernel⟩

theorem witness_OpcodesGoOn_OpcodesGoToTheirDie :
    ∃ (s : State) (c : Instr) (r : Nat) (op : Nat) (i : Nat) (e : Ent),
      opcodeOf c = some (r, op) ∧ atTurn s.mx r i e ∧ eOpc e = op ∧
        (c = .erase r ∨ c = .featureSet r ∨ c = .resetDie r ∨ (c = .call r ∧ eArg0 e / 2 ^ 30 = 0)) ∧
        entryFault s.mx r e = none :=
  ⟨wTurn 255 wEraseB, .erase 255, 255, 3, 0, { raw := wRaw wEraseB }, by unfold atTurn; decide +kernel⟩

theorem witness_StripeOpcodes :
    (∃ (s : State) (r : Nat) (i : Nat) (e : Ent),
      atTurn s.mx r i e ∧ eOpc e = 0x11 ∧ entryFault s.mx r e = none ∧ (stripe s.mx (eStripe e)).state = 1 ∧
        resBytes s.mx e ≠ 0) ∧
    (∃ (s : State) (r : Nat) (i : Nat) (e : Ent),
      atTurn s.mx r i e ∧ eOpc e = 0x11 ∧ entryFault s.mx r e = none ∧ (stripe s.mx (eStripe e)).state ≠ 1) ∧
    (∃ (s : State) (r : Nat) (i : Nat) (e : Ent),
      atTurn s.mx r i e ∧ eOpc e = 0x12 ∧ entryFault s.mx r e = none ∧ mapOn s.mx = true ∧
        portEngOff s.mx (ringPort s.mx r) = false ∧ i < 131072) ∧
    (∃ (s : State) (r : Nat) (i : Nat) (e : Ent),
      atTurn s.mx r i e ∧ eOpc e = 0x12 ∧ entryFault s.mx r e = none ∧ mapOn s.mx = false) ∧
    (∃ (s : State) (ee : Nat) (eid : Nat) (a : Nat) (e : Ent) (x : Xfer) (l : List Byte),
      ee < 64 ∧ (engine s.mx ee).cur = some x ∧ x.owner = .stMap eid ∧ x.pieces = [] ∧ x.parts = [] ∧
        x.stop = none ∧ x.lines = [(a, l)] ∧ ent s.mx eid = some e ∧ eOpc e = 0x12 ∧
        (walkOf s.mx eid).at_ = .first ∧ (mapEnt (leAt l 0 8)).valid = true ∧ (stripe s.mx (eStripe e)).state = 0) ∧
    (∃ (s : State) (ee : Nat) (eid : Nat) (a : Nat) (e : Ent) (x : Xfer) (l : List Byte),
      ee < 64 ∧ (engine s.mx ee).cur = some x ∧ x.owner = .stMap eid ∧ x.pieces = [] ∧ x.parts = [] ∧
        x.stop = none ∧ x.lines = [(a, l)] ∧ ent s.mx eid = some e ∧ eOpc e = 0x12 ∧ e.stripe = none ∧
        (walkOf s.mx eid).at_ = .first ∧ (walkOf s.mx eid).held = false ∧ (mapEnt (leAt l 0 8)).valid = true ∧
        (stripe s.mx (eStripe e)).state ≠ 0) ∧
    (∃ (s : State) (eid : Nat) (e : Ent) (q : RReq) (ls : List Nat),
      nextGrant s.mx = some q ∧ q.owner = .entry eid ∧ grantable s.mx q.n ls = true ∧ ent s.mx eid = some e ∧
        e.stage = .waitRes ∧ eOpc e = 0x12 ∧ rbCount e ≠ 0 ∧ (stripe s.mx (eStripe e)).state = 0) :=
  ⟨⟨wTurn 255 [(0, 0x11), (0x24, 3)] { wMx with st := { stripes := [(3, { state := 1, planes := 1, profile := 1, npar := 1 })] } }, 255, 0, { raw := wRaw [(0, 0x11), (0x24, 3)] }, by unfold atTurn; decide +kernel⟩,
   ⟨wTurn 255 [(0, 0x11), (0x24, 3)], 255, 0, { raw := wRaw [(0, 0x11), (0x24, 3)] }, by unfold atTurn; decide +kernel⟩,
   ⟨wTurn 255 wRebuildB { wMx with regs := [(stOff 0x18, 0x80000000)] }, 255, 0, { raw := wRaw wRebuildB }, by unfold atTurn; decide +kernel⟩,
   ⟨wTurn 255 wRebuildB, 255, 0, { raw := wRaw wRebuildB }, by unfold atTurn; decide +kernel⟩,
   ⟨wSt { wMx with dx := { eng := [(63, { cur := some wMapX })] }, ents := [(eidOf 255 0, some wRbE)], st := { walk := [(eidOf 255 0, { row := 5 })] } }, 63, eidOf 255 0, 8, wRbE, wMapX, [0x15, 0, 0, 0, 0, 0, 0, 0], by decide +kernel⟩,
   ⟨wSt { wMx with dx := { eng := [(63, { cur := some wMapX })] }, ents := [(eidOf 255 0, some wRbE)], st := { walk := [(eidOf 255 0, { row := 5 })], stripes := [(0, { state := 1 })] } }, 63, eidOf 255 0, 8, wRbE, wMapX, [0x15, 0, 0, 0, 0, 0, 0, 0], by decide +kernel⟩,
   ⟨wSt { wMx with ents := [(7, some { wRbE with stage := .waitRes, rbProf := 1 })], st := { walk := [(7, { row := 5, npar := 1 })] }, sb := { wait := [{ owner := .entry 7, cls := 3, n := 1 }] } }, 7, { wRbE with stage := .waitRes, rbProf := 1 }, { owner := .entry 7, cls := 3, n := 1 }, [5], by decide +kernel⟩⟩

theorem witness_OpcodesGoOn_NopFenceFill :
    (∃ (s : State) (r : Nat) (i : Nat) (e : Ent),
      atTurn s.mx r i e ∧ eOpc e = 0x19 ∧ entryFault s.mx r e = none) ∧
    (∃ (s : State) (r : Nat) (i : Nat) (e : Ent),
      atTurn s.mx r i e ∧ i < 131072 ∧ eOpc e = 0x1A ∧ entryFault s.mx r e = none) ∧
    (∃ (s : State) (r : Nat) (i : Nat) (e : Ent),
      atTurn s.mx r i e ∧ i < 131072 ∧ eOpc e = 0x28 ∧ entryFault s.mx r e = none ∧
        portEngOff s.mx (ringPort s.mx r) = false) ∧
    (∃ (s : State) (r : Nat) (i : Nat) (e : Ent),
      atTurn s.mx r i e ∧ i < 131072 ∧ eOpc e = 0x28 ∧ entryFault s.mx r e = none ∧
        portEngOff s.mx (ringPort s.mx r) = true ∧ e.stripe = none ∧ e.admitted = false) :=
  ⟨⟨wTurn 263 [(0, 0x19)], 263, 0, { raw := wRaw [(0, 0x19)] }, by unfold atTurn; decide +kernel⟩,
   ⟨wTurn 0 [(0, 0x1A)], 0, 0, { raw := wRaw [(0, 0x1A)] }, by unfold atTurn; decide +kernel⟩,
   ⟨wTurn 255 [(0, 0x28), (0x10, 0x1000), (0x20, 128)], 255, 0, { raw := wRaw [(0, 0x28), (0x10, 0x1000), (0x20, 128)] }, by unfold atTurn; decide +kernel⟩,
   ⟨wTurn 255 [(0, 0x28), (0x10, 0x1000), (0x20, 128)] { wMx with regs := (List.range 16).map (fun i => (dxEngOff i, 1)) ++ [(qeRingOff 255 8, 0x00FF0004)] }, 255, 0, { raw := wRaw [(0, 0x28), (0x10, 0x1000), (0x20, 128)] }, by unfold atTurn; decide +kernel⟩⟩

theorem witness_LinesAndTransfers_LinesGranted :
    (∃ (s : State) (eid : Nat) (e : Ent) (q : RReq) (ls : List Nat),
      nextGrant s.mx = some q ∧ q.owner = .entry eid ∧ grantable s.mx q.n ls = true ∧ ent s.mx eid = some e ∧
        e.stage = .waitRes ∧ (eOpc e = 1 ∨ eOpc e = 5 ∨ eOpc e = 8 ∨ eOpc e = 0x0A ∨ eOpc e = 0x20 ∨ (eOpc e = 4 ∧
        eStriped e = false) ∨
      (eOpc e = 0x18 ∧ (eArg0 e).testBit 30 = false))) ∧
    (∃ (s : State) (eid : Nat) (e : Ent) (q : RReq) (ls : List Nat) (ps : List Part),
      nextGrant s.mx = some q ∧ q.owner = .entry eid ∧ grantable s.mx q.n ls = true ∧ ent s.mx eid = some e ∧
        e.stage = .waitRes ∧ (eOpc e = 2 ∧ eStriped e = false ∧ eMptr e ≠ 0 ∧ ps = pageParts e (fun _ => true) ∨
      eOpc e = 6 ∧ ps = rawPart e (dataSide e) ∨ eOpc e = 0x10 ∧ ps = rawPart e (.flat (eDptr e)) ∨
      eOpc e = 0x18 ∧ (eArg0 e).testBit 30 = true ∧ ps = rawPart e (.flat (eDptr e))) ∧
        portEngOff s.mx (ringPort s.mx (eidRing eid)) = false) ∧
    (∃ (s : State) (c : Nat) (ls : List Nat),
      (∀ q, nextGrant s.mx = some q → q.cls ≠ c ∨ grantable s.mx q.n ls = false)) ∧
    (∃ (_m : Mx) (_o : ROwner) (c : Nat) (_n : Nat) (k : Nat),
      c < 5 ∧ k < 5) ∧
    (∃ (m : Mx) (o : ROwner) (k : Nat),
      k < 5 ∧ m.sb.resv.any (fun r => r.owner == o) = true) :=
  ⟨⟨wSt { wMx with ents := [(7, some { raw := 8, stage := .waitRes })], sb := { wait := [{ owner := .entry 7, cls := 4, n := 1 }] } }, 7, { raw := 8, stage := .waitRes }, { owner := .entry 7, cls := 4, n := 1 }, [5], by decide +kernel⟩,
   ⟨wSt { wMx with ents := [(7, some { raw := wRaw [(0, 6), (0x10, 4096), (0x20, 128)], stage := .waitRes })], sb := { wait := [{ owner := .entry 7, cls := 1, n := 1 }] } }, 7, { raw := wRaw [(0, 6), (0x10, 4096), (0x20, 128)], stage := .waitRes }, { owner := .entry 7, cls := 1, n := 1 }, [5], [{ side := .flat 4096, runs := [{ off := 0, len := 128 }] }], by decide +kernel⟩,
   ⟨wSt wMx, 4, [5], fun q h => by
      rw [show nextGrant (wSt wMx).mx = none from by decide +kernel] at h
      cases h⟩,
   ⟨{ sb := { wait := [{ owner := .entry 7, cls := 4, n := 1 }], failed := [4] } }, .entry 9, 4, 128, 4, by decide +kernel⟩,
   ⟨{ sb := { resv := [{ owner := .entry 9, cls := 1, lines := [5] }], wait := [{ owner := .entry 7, cls := 4, n := 1 }], failed := [4] } }, .entry 9, 4, by decide +kernel⟩⟩

theorem witness_LinesAndTransfers_FillWritesItsLines :
    ∃ (s : State) (ee : Nat) (eid : Nat) (e : Ent) (x : Xfer),
      ee < 64 ∧ (engine s.mx ee).cur = none ∧ engOff s.mx ee = false ∧ s.mx.gl.phase ≠ .warm ∧
        nextXfer s.mx (ee / 16) = some x ∧ x.owner = .fill eid ∧ x.toHost = false ∧ x.parts = [] ∧
        ent s.mx eid = some e :=
  ⟨wSt { wMx with dx := { queue := [wFillX] }, ents := [(eidOf 255 0, some wFillE)] }, 63, eidOf 255 0, wFillE, wFillX, by decide +kernel⟩

theorem witness_LinesAndTransfers_EngineWork :
    (∃ (s : State) (ee : Nat) (eid : Nat) (a : Nat) (n : Nat) (x : Xfer),
      ee < 64 ∧ (engine s.mx ee).cur = none ∧ engOff s.mx ee = false ∧ s.mx.gl.phase ≠ .warm ∧
        nextXfer s.mx (ee / 16) = some x ∧ x.owner = .entryIn eid ∧ x.toHost = false ∧ x.stop = none ∧
        x.walk = {} ∧ x.pieces = [] ∧ x.parts = [{ side := .flat a, runs := [{ off := 0, len := n }] }] ∧ 0 < n ∧
        n ≤ 4096 - a % 4096 ∧ parked s.mx x.port) ∧
    (∃ (s : State) (ee : Nat) (eid : Nat) (a : Nat) (n : Nat) (e : Ent) (w : Word) (x : Xfer),
      ee < 64 ∧ (engine s.mx ee).cur = none ∧ engOff s.mx ee = false ∧ s.mx.gl.phase ≠ .warm ∧
        nextXfer s.mx (ee / 16) = some x ∧ x.owner = .fill eid ∧ x.toHost = true ∧ x.pat = some w ∧ x.stop = none ∧
        x.walk = {} ∧ x.pieces = [] ∧ x.parts = [{ side := .flat a, runs := [{ off := 0, len := n }] }] ∧ 0 < n ∧
        n ≤ 4096 - a % 4096 ∧ parked s.mx x.port ∧ ent s.mx eid = some e) ∧
    (∃ (s : State) (ee : Nat),
      ((engine s.mx ee).cur ≠ none ∨ engOff s.mx ee = true ∨ s.mx.gl.phase = .warm ∨
      nextXfer s.mx (ee / 16) = none)) ∧
    (∃ (s : State) (ee : Nat) (eid : Nat) (e : Ent) (x : Xfer),
      ee < 64 ∧ (engine s.mx ee).cur = some x ∧ x.owner = .entryIn eid ∧ x.toHost = false ∧ x.pieces = [] ∧
        x.parts = [] ∧ x.stop = none ∧ x.bad = [] ∧ ent s.mx eid = some e ∧
        (eOpc e = 6 ∨ eOpc e = 0x18 ∨ eOpc e = 2 ∧ e.stripe.isSome = true)) ∧
    (∃ (s : State) (ee : Nat) (eid : Nat) (e : Ent) (x : Xfer),
      ee < 64 ∧ (engine s.mx ee).cur = some x ∧ x.owner = .fill eid ∧ x.pieces = [] ∧ x.parts = [] ∧
        x.stop = none ∧ x.bad = [] ∧ ent s.mx eid = some e ∧ eOpc e = 0x28 ∧ e.stripe = none) ∧
    (∃ (s : State) (ee : Nat) (eid : Nat) (e : Ent) (x : Xfer),
      ee < 64 ∧ (engine s.mx ee).cur = some x ∧ x.owner = .entryOut eid ∧ x.pieces = [] ∧ x.parts = [] ∧
        x.stop = none ∧ x.bad = [] ∧ ent s.mx eid = some e ∧ eOpc e = 1 ∧ e.stripe = none) ∧
    (∃ (s : State) (ee : Nat) (eid : Nat) (e : Ent) (x : Xfer) (st : Nat) (dt : Nat),
      ee < 64 ∧ (engine s.mx ee).cur = some x ∧ x.owner = .entryIn eid ∧ x.toHost = false ∧ x.pieces = [] ∧
        x.stop = some ⟨st, dt⟩ ∧ st ≠ 0x0200 ∧ ent s.mx eid = some e ∧ eOpc e = 6 ∧ e.stripe = none) ∧
    (∃ (s : State) (ee : Nat),
      ((engine s.mx ee).cur = none ∨ (∃ x, (engine s.mx ee).cur = some x ∧ xferEnded x = false))) ∧
    (∃ (s : State) (ee : Nat),
      ee < 64 ∧ carried s (dxEngOff ee) ∧ (engine s.mx ee).cur = none ∧ s.mx.dx.queue = []) ∧
    (∃ (s : State) (ee : Nat) (eid : Nat) (e : Ent) (x : Xfer),
      ee < 64 ∧ carried s (dxEngOff ee) ∧ s.mx.dx.queue.all (fun y => y.port != ee / 16) = true ∧
        (engine s.mx ee).cur = some x ∧ xEid x.owner = eid ∧ ent s.mx eid = some e ∧ e.stripe = none ∧
        eOpc e ≠ 0x11 ∧ eOpc e ≠ 0x12) :=
  ⟨⟨wSt { wMx with dx := { queue := [wInX] }, ents := [(eidOf 255 0, some wInE)] }, 63, eidOf 255 0, 0x1FFC, 4, wInX, by unfold parked; decide +kernel⟩,
   ⟨wSt { wMx with dx := { queue := [{ wFillX with toHost := true, parts := wInX.parts }] }, ents := [(eidOf 255 0, some wFillE)] }, 63, eidOf 255 0, 0x1FFC, 4, wFillE, 7, { wFillX with toHost := true, parts := wInX.parts }, by unfold parked; decide +kernel⟩,
   ⟨wSt { wMx with dx := { queue := [wInX] }, gl := { wMx.gl with phase := .warm } }, 63, by decide +kernel⟩,
   ⟨wSt { wMx with dx := { eng := [(63, { cur := some { wInX with parts := [], opc := 6 } })] }, ents := [(eidOf 255 0, some { raw := 6, stage := .xferIn })] }, 63, eidOf 255 0, { raw := 6, stage := .xferIn }, { wInX with parts := [], opc := 6 }, by decide +kernel⟩,
   ⟨wSt { wMx with dx := { eng := [(63, { cur := some wFillX })] }, ents := [(eidOf 255 0, some wFillE)] }, 63, eidOf 255 0, wFillE, wFillX, by decide +kernel⟩,
   ⟨wSt { wMx with dx := { eng := [(63, { cur := some { wInX with owner := .entryOut (eidOf 255 0), toHost := true, parts := [], opc := 1 } })] }, ents := [(eidOf 255 0, some { raw := wRaw wReadB, stage := .xferOut, cws := [.good 3], dieOut := some (0x2400, 0) })] }, 63, eidOf 255 0, { raw := wRaw wReadB, stage := .xferOut, cws := [.good 3], dieOut := some (0x2400, 0) }, { wInX with owner := .entryOut (eidOf 255 0), toHost := true, parts := [], opc := 1 }, by decide +kernel⟩,
   ⟨wSt { wMx with dx := { eng := [(63, { cur := some { wInX with stop := some ⟨0x1200, 0x15⟩, opc := 6 } })] }, ents := [(eidOf 255 0, some { raw := 6, stage := .xferIn })] }, 63, eidOf 255 0, { raw := 6, stage := .xferIn }, { wInX with stop := some ⟨0x1200, 0x15⟩, opc := 6 }, 0x1200, 0x15, by decide +kernel⟩,
   ⟨wSt { wMx with dx := { eng := [(63, { cur := some wInX })] } }, 63, .inr ⟨wInX, by decide +kernel⟩⟩,
   ⟨wSt { wMx with dx := { eng := [(63, { resid := 5 })] } }, 63, by unfold carried; decide +kernel⟩,
   ⟨wSt { wMx with dx := { eng := [(63, { cur := some wFillX })] }, ents := [(eidOf 255 0, some wFillE)] }, 63, eidOf 255 0, wFillE, wFillX, by unfold carried; decide +kernel⟩⟩

theorem witness_DieWork_EntriesTakePlaces :
    (∃ (s : State) (r : Nat) (i : Nat) (e : Ent),
      ent s.mx (eidOf r i) = some e ∧ e.stage = .toPlace ∧ e.dst = false ∧ eOpc e ≠ 0x11 ∧
        (die s.mx (eDie e)).state = 0 ∧ (die s.mx (eDie e)).absent = false ∧ geomFault s.mx (eDie e) e = none ∧
        lockOut (die s.mx (eDie e)) (eidRing (eidOf r i)) = false ∧ (die s.mx (eDie e)).spec = none ∧
        (die s.mx (eDie e)).queue.length < 8) ∧
    (∃ (s : State) (r : Nat) (i : Nat) (e : Ent),
      ent s.mx (eidOf r i) = some e ∧ e.stage = .toPlace ∧ e.dst = false ∧ eOpc e ≠ 0x11 ∧
        (die s.mx (eDie e)).state = 0 ∧ (die s.mx (eDie e)).absent = false ∧ geomFault s.mx (eDie e) e = none ∧
        (8 ≤ (die s.mx (eDie e)).queue.length ∨ lockOut (die s.mx (eDie e)) (eidRing (eidOf r i)) = true)) ∧
    (∃ (s : State) (r : Nat) (i : Nat) (e : Ent),
      ent s.mx (eidOf r i) = some e ∧ e.stage = .toPlace ∧ eOpc e = 3 ∧ e.dst = false ∧ e.stripe = none ∧
        e.admitted = false ∧ (die s.mx (eDie e)).state = 2) ∧
    (∃ (s : State) (r : Nat) (i : Nat) (f : Nat) (e : Ent),
      ent s.mx (eidOf r i) = some e ∧ e.stage = .toPlace ∧
        (eOpc e = 1 ∨ eOpc e = 2 ∨ eOpc e = 5 ∨ eOpc e = 6 ∨ eOpc e = 0x20) ∧ e.dst = false ∧ e.stripe = none ∧
        (die s.mx (eDie e)).state = 0 ∧ geomFault s.mx (eDie e) e = some f) ∧
    (∃ (s : State) (r : Nat) (i : Nat) (e : Ent) (a : Ahead),
      r < 264 ∧ i < 131072 ∧ ent s.mx (eidOf r i) = some e ∧ e.stage = .toPlace ∧ e.dst = false ∧
        (die s.mx (eDie e)).state = 0 ∧ (die s.mx (eDie e)).absent = false ∧ geomFault s.mx (eDie e) e = none ∧
        lockOut (die s.mx (eDie e)) r = false ∧ (die s.mx (eDie e)).spec = some a ∧
        mayAdopt e (die s.mx (eDie e)) = true ∧ (die s.mx (eDie e)).cur = some .spec ∧
        (die s.mx (eDie e)).aside = none ∧ (die s.mx (eDie e)).queue.length < 8) ∧
    (∃ (s : State) (r : Nat) (i : Nat),
      (ent s.mx (eidOf r i) = none ∨
      (∃ e, ent s.mx (eidOf r i) = some e ∧ e.stage ≠ .toPlace))) :=
  ⟨⟨wDie {} [(eidOf 255 0, some wErase)], 255, 0, wErase, by decide +kernel⟩,
   ⟨wDie { lock := .held 3 } [(eidOf 255 0, some wErase)], 255, 0, wErase, by decide +kernel⟩,
   ⟨wDie { state := 2 } [(eidOf 255 0, some wErase)], 255, 0, wErase, by decide +kernel⟩,
   ⟨wDie {} [(eidOf 255 0, some wRawFar)], 255, 0, 0x0220, wRawFar, by decide +kernel⟩,
   ⟨wSt { (wDie { cur := some .spec, frame := { active := true, ahead := true }, spec := some wAhead } [(eidOf 255 0, some wReadE), (specEid wD, some {})]).mx with regs := [(chOff 127 0x17C, 0x50000000)] }, 255, 0, wReadE, wAhead, by decide +kernel⟩,
   ⟨wDie {} [(eidOf 255 0, some { wErase with stage := .placed })], 255, 0, .inr ⟨{ wErase with stage := .placed }, by decide +kernel, by decide⟩⟩⟩

theorem witness_DieWork_WorkItemStarts :
    (∃ (s : State) (c : Nat) (k : Nat) (i : Item),
      c < 128 ∧ k < 16 ∧ chEnabled s.mx c = true ∧ (die s.mx (dieOf c k)).cur = none ∧
        mayStart s.mx (dieOf c k) = true ∧ nextItem s.mx (dieOf c k) = some i ∧
        (i = .grpInit ∨ threadReady s.mx (dieCh (dieOf c k)) = true) ∧
        (isWrite i = false ∨ (die s.mx (dieOf c k)).state ≠ 2) ∧
        (∀ e, itemEnt s.mx (dieOf c k) i = some e → startRefused s.mx (dieGrp (dieOf c k)) e = false) ∧
        itemAddr s.mx (dieOf c k) i ≠ 0xFFFF) ∧
    (∃ (s : State) (c : Nat) (k : Nat) (eid : Nat) (e : Ent),
      c < 128 ∧ k < 16 ∧ chEnabled s.mx c = true ∧ (die s.mx (dieOf c k)).cur = none ∧
        mayStart s.mx (dieOf c k) = true ∧ nextItem s.mx (dieOf c k) = some (.entry eid) ∧
        threadReady s.mx (dieCh (dieOf c k)) = true ∧ ent s.mx eid = some e ∧ (eOpc e = 9 ∨ eOpc e = 0x18) ∧
        startRefused s.mx (dieGrp (dieOf c k)) e = true ∧ e.stripe = none) ∧
    (∃ (s : State) (c : Nat) (k : Nat),
      c < 128 ∧ k < 16 ∧ ((die s.mx (dieOf c k)).cur ≠ none ∨ mayStart s.mx (dieOf c k) = false ∨
      chEnabled s.mx c = false ∨ nextItem s.mx (dieOf c k) = none)) :=
  ⟨⟨wDieImg { ahead := [.restart 1] }, 127, 15, .restart 1, by
      refine ⟨by decide, by decide, by decide +kernel, by decide +kernel, by decide +kernel, by decide +kernel, by decide +kernel, by decide +kernel, ?_, by decide +kernel⟩
      intro e h; exact absurd h (by simp [itemEnt, itemEid])⟩,
   ⟨wDieImg { queue := [.entry 7] } [(7, some { raw := wRaw [(0, 0x18), (4, 2047)], stage := .placed, arr := true })], 127, 15, 7, { raw := wRaw [(0, 0x18), (4, 2047)], stage := .placed, arr := true }, by decide +kernel⟩,
   ⟨wDieImg { cur := some .recover, ahead := [.restart 1] }, 127, 15, by decide +kernel⟩⟩

theorem witness_DieWork_DieStates :
    (∃ (s : State) (d : Nat),
      d < 2048 ∧ carried s (dstOff d) ∧ (die s.mx d).absent = false ∧ (die s.mx d).state = 0 ∧
        (die s.mx d).spec = none ∧ (∀ i ∈ (die s.mx d).ahead, isRead i = false)) ∧
    (∃ (s : State) (d : Nat),
      d < 2048 ∧ carried s (dstOff d) ∧ (die s.mx d).absent = false ∧ (die s.mx d).state ≠ 2 ∧
        (die s.mx d).queue = [] ∧ (die s.mx d).wait = [] ∧ (die s.mx d).ahead = []) ∧
    (∃ (s : State) (d : Nat),
      d < 2048 ∧ carried s (dstOff d) ∧ (die s.mx d).absent = false ∧ (die s.mx d).state = 2) ∧
    (∃ (s : State) (d : Nat) (k : Nat) (c : Instr),
      d < 2048 ∧ carried s (dstOff d) ∧ (c = .markSuspect d ∧ k = 1 ∧
        ((die s.mx d).absent = true ∨ (die s.mx d).state ≠ 0) ∨
      c = .markDead d ∧ k = 2 ∧ ((die s.mx d).absent = true ∨ (die s.mx d).state = 2) ∨
      c = .clearDead d ∧ k = 3 ∧ ((die s.mx d).absent = true ∨ (die s.mx d).state ≠ 2))) ∧
    (∃ (s : State) (d : Nat) (a : Option Byte) (b : Option Byte),
      d < 2048 ∧ (die s.mx d).state = 1 ∧ (die s.mx d).cur = none ∧ (die s.mx d).held = none ∧
        (die s.mx d).ahead.head? = some .recover ∧ mayStart s.mx d = true ∧ threadReady s.mx (dieCh d) = true ∧
        busFor s.mx d = true ∧ chEnabled s.mx (dieCh d) = true ∧ recoverFits s.mx d = true ∧
        (showsReady a || (!(die s.mx d).recAgain && showsReady b)) = true ∧ (phy s.mx (dieGrp d)).mode ≠ 4) ∧
    (∃ (s : State) (d : Nat) (a : Option Byte) (b : Option Byte),
      d < 2048 ∧ (die s.mx d).state = 1 ∧ (die s.mx d).cur = none ∧ (die s.mx d).held = none ∧
        (die s.mx d).ahead.head? = some .recover ∧ mayStart s.mx d = true ∧ threadReady s.mx (dieCh d) = true ∧
        busFor s.mx d = true ∧ chEnabled s.mx (dieCh d) = true ∧ recoverFits s.mx d = true ∧
        (showsReady a || (!(die s.mx d).recAgain && showsReady b)) = true ∧ (phy s.mx (dieGrp d)).mode = 4) ∧
    (∃ (s : State) (d : Nat) (a : Option Byte) (b : Option Byte),
      d < 2048 ∧ (die s.mx d).state = 1 ∧ (die s.mx d).cur = none ∧ (die s.mx d).held = none ∧
        (die s.mx d).ahead = [.recover] ∧ (die s.mx d).queue = [] ∧ (die s.mx d).wait = [] ∧
        mayStart s.mx d = true ∧ threadReady s.mx (dieCh d) = true ∧ busFor s.mx d = true ∧
        chEnabled s.mx (dieCh d) = true ∧ recoverFits s.mx d = true ∧
        (showsReady a || (!(die s.mx d).recAgain && showsReady b)) = false) ∧
    (∃ (s : State) (d : Nat) (_a : Option Byte) (_b : Option Byte),
      ((die s.mx d).state ≠ 1 ∨ (die s.mx d).cur ≠ none ∨
      (die s.mx d).ahead.head? ≠ some .recover ∨ threadReady s.mx (dieCh d) = false ∨ busFor s.mx d = false ∨
      chEnabled s.mx (dieCh d) = false ∨ recoverFits s.mx d = false)) :=
  ⟨⟨wDie {}, wD, by unfold carried; decide +kernel⟩,
   ⟨wDie { state := 1, cur := some .recover, frame := { active := true } }, wD, by unfold carried; decide +kernel⟩,
   ⟨wDie { state := 2 }, wD, by unfold carried; decide +kernel⟩,
   ⟨wDie { absent := true }, wD, 2, .markDead wD, by unfold carried; decide +kernel⟩,
   ⟨wDieImg { state := 1, ahead := [.recover] }, wD, none, some 0x40, by decide +kernel⟩,
   ⟨wSt { (wDieImg { state := 1, mode := 4, ahead := [.recover] }).mx with ph := { grp := [(31, { mode := 4 })] } }, wD, some 0x40, none, by decide +kernel⟩,
   ⟨wDieImg { state := 1, ahead := [.recover] }, wD, none, some 0, by decide +kernel⟩,
   ⟨wDieImg { ahead := [.recover] }, wD, some 0x40, none, by decide +kernel⟩⟩

theorem witness_ReadinessAndGrants_ReadinessJudged :
    (∃ (s : State) (c : Nat) (k : Nat) (b : Busy),
      c < 128 ∧ k < 16 ∧ (die s.mx (dieOf c k)).busy = some b ∧ (die s.mx (dieOf c k)).pfErase = false ∧
        polling s.mx (dieOf c k) b = true ∧ b.next ≤ s.mx.md.time ∧ (die s.mx (dieOf c k)).aside = none ∧
        ((die s.mx (dieOf c k)).cur = some .suspend → (die s.mx (dieOf c k)).frame.waited = true)) ∧
    (∃ (_s : State) (c : Nat),
      c < 128) ∧
    (∃ (s : State) (c : Nat) (k : Nat) (b : Busy),
      c < 128 ∧ k < 16 ∧ (die s.mx (dieOf c k)).busy = some b ∧ (die s.mx (dieOf c k)).pfErase = false ∧
        polling s.mx (dieOf c k) b = false ∧ pastLimit s.mx (dieOf c k) = true ∧ (chan s.mx c).freeze = false ∧
        (die s.mx (dieOf c k)).aside = none ∧ (die s.mx (dieOf c k)).cur ≠ some .suspend) ∧
    (∃ (s : State) (c : Nat) (k : Nat),
      c < 128 ∧ k < 16 ∧ ((die s.mx (dieOf c k)).busy = none ∨ (die s.mx (dieOf c k)).pfErase = true ∨
      ((die s.mx (dieOf c k)).cur = some .suspend ∧ (die s.mx (dieOf c k)).frame.waited = false) ∨
      (∃ b, (die s.mx (dieOf c k)).busy = some b ∧ polling s.mx (dieOf c k) b = false ∧ (chan s.mx c).freeze = true) ∨
      (∃ b, (die s.mx (dieOf c k)).busy = some b ∧ polling s.mx (dieOf c k) b = true ∧ s.mx.md.time < b.next))) :=
  ⟨⟨wDie { busy := some { op := .program, poll := true } }, 127, 15, { op := .program, poll := true }, by decide +kernel⟩,
   ⟨wSt wMx, 127, by decide +kernel⟩,
   ⟨wSt { (wDie { busy := some { op := .erase } }).mx with md := { time := 1000000000000 } }, 127, 15, { op := .erase }, by decide +kernel⟩,
   ⟨wDie { busy := some { op := .erase }, pfErase := true }, 127, 15, by decide +kernel⟩⟩

theorem witness_ReadinessAndGrants_HighestContextGranted :
    (∃ (s : State) (c : Nat),
      c < 128 ∧ chEnabled s.mx c = true ∧ (chan s.mx c).tenure = false ∧ (chan s.mx c).freeze = false ∧
        (chan s.mx c).held = false ∧ (chan s.mx c).pend ≠ [] ∧ (∀ q ∈ (chan s.mx c).pend, q.ctx < 16 ∧
        (die s.mx (dieOf c q.ctx)).frame.readmit = false ∧
      (die s.mx (dieOf c q.ctx)).frame.launchAt = none ∧ (die s.mx (dieOf c q.ctx)).frame.regain = false)) ∧
    (∃ (s : State) (c : Nat) (q : BusReq),
      c < 128 ∧ chEnabled s.mx c = true ∧ (chan s.mx c).tenure = false ∧ (chan s.mx c).freeze = false ∧
        (chan s.mx c).held = false ∧ (chan s.mx c).pend = [q] ∧ q.ctx < 16 ∧
        (die s.mx (dieOf c q.ctx)).frame.readmit = false ∧
        (die s.mx (dieOf c q.ctx)).frame.launchAt.isSome = true ∧ (die s.mx (dieOf c q.ctx)).frame.regain = false) ∧
    (∃ (s : State) (c : Nat),
      ((chan s.mx c).tenure = true ∨ (chan s.mx c).freeze = true ∨ (chan s.mx c).held = true ∨
      chEnabled s.mx c = false ∨ (chan s.mx c).pend = [])) :=
  ⟨⟨wChan { pend := [{ ctx := 15, since := 3 }, { ctx := 0, since := 4 }] }, 127, by decide +kernel⟩,
   ⟨wChan { pend := [{ ctx := 15, since := 3 }] } { frame := { launchAt := some 501000 } }, 127, { ctx := 15, since := 3 }, by decide +kernel⟩,
   ⟨wChan { freeze := true, pend := [{ ctx := 15, since := 3 }] }, 127, by decide +kernel⟩⟩

theorem witness_ChannelControls :
    (∃ (s : State) (c : Nat) (k : Nat) (n : Nat),
      c < 128 ∧ k < 16 ∧ (die s.mx (dieOf c k)).frame.launchAt = some n ∧ n ≤ launchTime s.mx + 1000 ∧
        (chan s.mx c).tenure = true ∧ (chan s.mx c).owner ≠ some k ∧ (∀ q ∈ (chan s.mx c).pend, q.ctx ≠ k)) ∧
    (∃ (s : State) (c : Nat) (k : Nat) (n : Nat),
      c < 128 ∧ k < 16 ∧ (die s.mx (dieOf c k)).frame.launchAt = some n ∧
        (die s.mx (dieOf c k)).frame.regain = false ∧ n ≤ launchTime s.mx + 1000 ∧ (chan s.mx c).tenure = false ∧
        (chan s.mx c).owner = some k ∧ (chan s.mx c).freeze = false ∧ (chan s.mx c).held = false) ∧
    (∃ (s : State) (c : Nat) (_on : Bool),
      c < 128 ∧ carried s (chOff c 8)) ∧
    (∃ (s : State) (c : Nat) (k : Nat) (q : BusReq),
      c < 128 ∧ k < 16 ∧ (chan s.mx c).pend = [q] ∧ q.ctx = k ∧ q.starved = false ∧
        fld (reg s.mx (chOff c 0x24)) 15 0 ≠ 0 ∧ q.since + 1000 * fld (reg s.mx (chOff c 0x24)) 15 0 < s.mx.md.time) ∧
    (∃ (s : State) (c : Nat),
      c < 128 ∧ carried s (chOff c 0x28)) :=
  ⟨⟨wChan { tenure := true, owner := some 3 } { frame := { launchAt := some 501000 } }, 127, 15, 501000, by decide +kernel⟩,
   ⟨wChan { owner := some 15 } { frame := { launchAt := some 501000 } }, 127, 15, 501000, by decide +kernel⟩,
   ⟨wSt wMx, 127, true, by unfold carried; decide +kernel⟩,
   ⟨wSt { wMx with ch := [(127, { pend := [{ ctx := 15, since := 3 }] })], md := { time := 10000000000 } }, 127, 15, { ctx := 15, since := 3 }, by decide +kernel⟩,
   ⟨wChan { wait := 9, waitCtx := 3 }, 127, by unfold carried; decide +kernel⟩⟩

theorem witness_ChannelControls_SuspensionAndHold :
    (∃ (s : State) (c : Nat) (k : Nat) (eid : Nat) (b : Busy),
      c < 128 ∧ k < 16 ∧ (die s.mx (dieOf c k)).cur = some (.entry eid) ∧ (die s.mx (dieOf c k)).busy = some b ∧
        suspWanted s.mx (dieOf c k) = true ∧ (die s.mx (dieOf c k)).frame.waiting = true ∧
        groupOpen s.mx (dieGrp (dieOf c k)) = true) ∧
    (∃ (s : State) (c : Nat) (k : Nat),
      c < 128 ∧ k < 16 ∧ resumeWanted s.mx (dieOf c k) = true ∧ (die s.mx (dieOf c k)).cur = none ∧
        mayStart s.mx (dieOf c k) = true) ∧
    (∃ (s : State) (c : Nat) (k : Nat) (n : Nat) (a : Ahead),
      c < 128 ∧ k < 16 ∧ (die s.mx (dieOf c k)).spec = some a ∧ (die s.mx (dieOf c k)).cur = some .spec ∧
        a.cancelled = false ∧ a.out = false ∧ (die s.mx (dieOf c k)).queue = [] ∧ a.at_ = some n ∧
        n + 1000 * specHold s.mx (dieCh (dieOf c k)) ≤ s.mx.md.time) ∧
    (∃ (s : State) (c : Nat) (k : Nat),
      suspWanted s.mx (dieOf c k) = false) ∧
    (∃ (s : State) (c : Nat) (k : Nat),
      resumeWanted s.mx (dieOf c k) = false) ∧
    (∃ (s : State) (c : Nat) (k : Nat) (a : Ahead),
      (die s.mx (dieOf c k)).spec = some a ∧ a.at_ = none) :=
  ⟨⟨wDieImg { cur := some (.entry 7), busy := some { op := .program }, frame := { waiting := true, active := true }, offers := (true, true), queue := [.entry 7, .entry 8] } [(7, some wProg), (8, some { raw := wRaw [(0, 1), (4, 2047), (6, 1)], stage := .placed })], 127, 15, 7, { op := .program }, by decide +kernel⟩,
   ⟨wDieImg { held := some (.entry 7, {}) } [(7, some wProg)], 127, 15, by decide +kernel⟩,
   ⟨wSt { (wDie { spec := some { wAhead with at_ := some 1000 }, cur := some .spec, frame := { active := true } }).mx with md := { time := 100000000 } }, 127, 15, 1000, { wAhead with at_ := some 1000 }, by decide +kernel⟩,
   ⟨wDieImg { cur := some (.entry 7), queue := [.entry 7] } [(7, some wProg)], 127, 15, by decide +kernel⟩,
   ⟨wDieImg {}, 127, 15, by decide +kernel⟩,
   ⟨wDie { spec := some wAhead, cur := some .spec }, 127, 15, wAhead, by decide +kernel⟩⟩

theorem witness_LocksTakenAndBroken :
    (∃ (s : State) (a : Agent) (c : Nat) (k : Nat) (r : Nat),
      c < 128 ∧ k < 16 ∧ r < (if a = .host then 256 else 264) ∧ (a = .dome ∨ carried s (chOff c 0x2C)) ∧
        (die s.mx (dieOf c k)).lock = .none ∧ (die s.mx (dieOf c k)).queue = [] ∧
        (∀ i ∈ (die s.mx (dieOf c k)).ahead, isRead i = false)) ∧
    (∃ (s : State) (a : Agent) (c : Nat) (k : Nat) (r : Nat) (eid : Nat),
      c < 128 ∧ k < 16 ∧ r < (if a = .host then 256 else 264) ∧ (a = .dome ∨ carried s (chOff c 0x2C)) ∧
        (die s.mx (dieOf c k)).lock = .none ∧ (die s.mx (dieOf c k)).queue = [.entry eid] ∧
        (∀ i ∈ (die s.mx (dieOf c k)).ahead, isRead i = false) ∧ eid < 2 ^ 30 ∧ eidRing eid ≠ r) ∧
    (∃ (s : State) (c : Nat) (k : Nat) (r : Nat),
      c < 128 ∧ k < 16 ∧ (die s.mx (dieOf c k)).lock = .held r ∧
        (die s.mx (dieOf c k)).lockAt + 100000 * fld (reg s.mx (chOff c 0x1C)) 15 0 ≤ s.mx.md.time ∧
        (die s.mx (dieOf c k)).queue = [] ∧ (die s.mx (dieOf c k)).wait = []) ∧
    (∃ (s : State) (a : Agent) (c : Nat) (k : Nat) (r : Nat),
      c < 128 ∧ k < 16 ∧ r < 512 ∧ (a = .dome ∨ carried s (chOff c 0x2C)) ∧ (die s.mx (dieOf c k)).lock ≠ .none) ∧
    (∃ (s : State) (c : Nat) (k : Nat) (r : Nat) (eid : Nat) (e : Ent),
      c < 128 ∧ k < 16 ∧ (die s.mx (dieOf c k)).lock = .held r ∧
        (die s.mx (dieOf c k)).lockAt + 100000 * fld (reg s.mx (chOff c 0x1C)) 15 0 ≤ s.mx.md.time ∧
        (die s.mx (dieOf c k)).queue = [.entry eid] ∧ (die s.mx (dieOf c k)).wait = [] ∧
        (die s.mx (dieOf c k)).cur = none ∧ (die s.mx (dieOf c k)).aside = none ∧ eid < 2 ^ 30 ∧ eidRing eid = r ∧
        ent s.mx eid = some e ∧ eOpc e = 3 ∧ eDie e = dieOf c k ∧ e.stripe = none ∧ e.admitted = false) ∧
    (∃ (s : State) (c : Nat) (k : Nat) (r : Nat),
      (die s.mx (dieOf c k)).lock = .held r ∧ c < 128 ∧ k < 16 ∧
        s.mx.md.time < (die s.mx (dieOf c k)).lockAt + 100000 * fld (reg s.mx (chOff c 0x1C)) 15 0) :=
  ⟨⟨wDie { ahead := [.recover], broken := some 3 }, .dome, 127, 15, 263, by unfold carried; decide +kernel⟩,
   ⟨wDie { queue := [.entry 7], broken := some 3 }, .host, 127, 15, 255, 7, by unfold carried; decide +kernel⟩,
   ⟨wSt { (wDie { lock := .held 255 }).mx with md := { time := 100000000000 } }, 127, 15, 255, by decide +kernel⟩,
   ⟨wDie { lock := .pending 7 }, .host, 127, 15, 7, by unfold carried; decide +kernel⟩,
   ⟨wSt { (wDie { lock := .held 255, queue := [.entry (eidOf 255 0)] } [(eidOf 255 0, some { wErase with stage := .placed, arr := true })]).mx with md := { time := 100000000000 } }, 127, 15, 255, eidOf 255 0, { wErase with stage := .placed, arr := true }, by decide +kernel⟩,
   ⟨wDie { lock := .held 255 }, 127, 15, 255, by decide +kernel⟩⟩

theorem witness_LockReleased :
    (∃ (s : State) (a : Agent) (c : Nat) (k : Nat) (r : Nat),
      c < 128 ∧ k < 16 ∧ r < 512 ∧ (a = .dome ∨ carried s (chOff c 0x2C)) ∧ (a = .dome ∨ r < 256) ∧
        ((die s.mx (dieOf c k)).lock = .held r ∨ (die s.mx (dieOf c k)).lock = .pending r) ∧
        (die s.mx (dieOf c k)).spec = none ∧ (die s.mx (dieOf c k)).queue.length ≤ 8 ∧
        (die s.mx (dieOf c k)).wait.Nodup) ∧
    (∃ (s : State) (a : Agent) (c : Nat) (k : Nat) (r : Nat) (o : Nat),
      c < 128 ∧ k < 16 ∧ r < 512 ∧ (a = .dome ∨ carried s (chOff c 0x2C)) ∧
        ((die s.mx (dieOf c k)).lock = .held o ∨ (die s.mx (dieOf c k)).lock = .pending o) ∧ o ≠ r) ∧
    (∃ (s : State) (c : Nat) (k : Nat) (r : Nat),
      c < 128 ∧ k < 16 ∧ 255 < r ∧ r < 512 ∧ carried s (chOff c 0x2C)) ∧
    (∃ (s : State) (a : Agent) (c : Nat) (k : Nat) (r : Nat),
      c < 128 ∧ k < 16 ∧ r < 512 ∧ (a = .dome ∨ carried s (chOff c 0x2C)) ∧ (a = .dome ∨ r < 256) ∧
        (die s.mx (dieOf c k)).lock = .none ∧ (die s.mx (dieOf c k)).broken = some r) ∧
    (∃ (s : State) (a : Agent) (c : Nat) (k : Nat) (r : Nat),
      c < 128 ∧ k < 16 ∧ r < 512 ∧ (a = .dome ∨ carried s (chOff c 0x2C)) ∧ (die s.mx (dieOf c k)).lock = .none ∧
        (die s.mx (dieOf c k)).broken ≠ some r) :=
  ⟨⟨wDie { lock := .pending 255 }, .host, 127, 15, 255, by unfold carried; decide +kernel⟩,
   ⟨wDie { lock := .held 263 }, .host, 127, 15, 262, 263, by unfold carried; decide +kernel⟩,
   ⟨wDie { lock := .held 263 }, 127, 15, 256, by unfold carried; decide +kernel⟩,
   ⟨wDie { broken := some 255 }, .host, 127, 15, 255, by unfold carried; decide +kernel⟩,
   ⟨wDie {}, .host, 127, 15, 511, by unfold carried; decide +kernel⟩⟩

theorem witness_ChannelControls_ChannelReset :
    (∃ (s : State) (c : Nat),
      c < 128 ∧ carried s (chOff c 4) ∧ (cluster s.mx (c / 4)).halted = false) ∧
    (∃ (s : State) (c : Nat),
      c < 128 ∧ carried s (chOff c 4) ∧ (cluster s.mx (c / 4)).halted = false ∧
        (∀ k, k < 16 → die s.mx (dieOf c k) = {})) ∧
    (∃ (s : State) (c : Nat),
      c < 128 ∧ carried s (chOff c 4) ∧ (cluster s.mx (c / 4)).halted = true) :=
  ⟨⟨wSt wMx, 127, by unfold carried; decide +kernel⟩,
   ⟨wSt wMx, 127, ⟨by decide, ⟨rfl, by decide +kernel⟩, by decide +kernel, fun _ _ => rfl⟩⟩,
   ⟨wSt { wMx with mc := { cl := [(31, { halted := true })] } }, 127, by unfold carried; decide +kernel⟩⟩

theorem witness_NextAddressAndResults_NextAddress :
    (∃ (s : State) (c : Nat) (k : Nat) (nxt : Nat) (i : Instr),
      c < 128 ∧ k < 16 ∧ runsWord s.mx (dieOf c k) nxt ∧ (i = .seq c k ∧ nxt = 0 ∨ i = .jmp c k ∧
        nxt = 1 ∨ i = .br c k ∧ nxt = 2 ∨ i = .disp c k ∧ nxt = 6)) ∧
    (∃ (s : State) (c : Nat) (k : Nat) (nxt : Nat) (i : Instr),
      c < 128 ∧ k < 16 ∧ runsForm s.mx (dieOf c k) nxt ∧ (i = .seq c k ∧ nxt = 0 ∨ i = .jmp c k ∧
        nxt = 1 ∨ i = .br c k ∧ nxt = 2 ∨ i = .microCall c k ∧ nxt = 3 ∨
      i = .ret c k ∧ nxt = 4 ∨ i = .wait c k ∧ nxt = 5 ∨ i = .disp c k ∧ nxt = 6 ∨ i = .exit c k ∧ nxt = 7) ∧
        mwCyc (wordOf s.mx (dieOf c k)) ≠ 0 ∧ mwGate (wordOf s.mx (dieOf c k)) ≠ 4 ∧
        (mwCyc (wordOf s.mx (dieOf c k)) = 3 ∨ mwCyc (wordOf s.mx (dieOf c k)) = 4 →
      cycCount (afterAlu s.mx (dieOf c k)) (wordOf s.mx (dieOf c k)) ≠ 0)) ∧
    (∃ (s : State) (c : Nat) (k : Nat) (i : Instr),
      hasTurn s.mx (dieOf c k) = false ∧ (die s.mx (dieOf c k)).frame.asks = false ∧
        (i = .seq c k ∨ i = .jmp c k ∨ i = .br c k ∨ i = .microCall c k ∨ i = .wait c k ∨ i = .disp c k ∨ i = .exit c k)) :=
  ⟨⟨wAt (wWord [(124, 6)]), 127, 15, 6, .disp 127 15, by unfold runsWord runsForm; decide +kernel⟩,
   ⟨wBus (wAt (wWord [(99, 1)])).mx, 127, 15, 0, .seq 127 15, by unfold runsForm; decide +kernel⟩,
   ⟨wAt (wWord []) { regain := true }, 127, 15, .seq 127 15, by decide +kernel⟩⟩

theorem witness_CallAndReturn :
    (∃ (s : State) (c : Nat) (k : Nat),
      c < 128 ∧ k < 16 ∧ runsWord s.mx (dieOf c k) 3 ∧ wordCond s.mx (dieOf c k) = true ∧
        (die s.mx (dieOf c k)).frame.stack.length < 8) ∧
    (∃ (s : State) (c : Nat) (k : Nat),
      c < 128 ∧ k < 16 ∧ runsWord s.mx (dieOf c k) 3 ∧ wordCond s.mx (dieOf c k) = false) ∧
    (∃ (s : State) (c : Nat) (k : Nat) (a : Nat) (l : List Nat),
      c < 128 ∧ k < 16 ∧ runsWord s.mx (dieOf c k) 4 ∧ (die s.mx (dieOf c k)).frame.stack = a :: l ∧
        (die s.mx (dieOf c k)).frame.cut = none) ∧
    (∃ (s : State) (c : Nat) (k : Nat),
      c < 128 ∧ k < 16 ∧ runsWord s.mx (dieOf c k) 3 ∧ wordCond s.mx (dieOf c k) = true ∧
        8 ≤ (die s.mx (dieOf c k)).frame.stack.length) ∧
    (∃ (s : State) (c : Nat) (k : Nat),
      c < 128 ∧ k < 16 ∧ runsWord s.mx (dieOf c k) 4 ∧ (die s.mx (dieOf c k)).frame.stack = [] ∧
        (die s.mx (dieOf c k)).frame.cut = none) ∧
    (∃ (s : State) (c : Nat) (k : Nat) (l : Nat) (r : List Nat),
      c < 128 ∧ k < 16 ∧ runsWord s.mx (dieOf c k) 4 ∧
        (die s.mx (dieOf c k)).frame.stack = (die s.mx (dieOf c k)).frame.pc :: r ∧
        (die s.mx (dieOf c k)).frame.cut = some (l, r.length) ∧ (die s.mx (dieOf c k)).frame.regain = false) :=
  ⟨⟨wAt (wWord [(124, 3)]) { stack := [1, 2, 3, 4, 5, 6, 7] }, 127, 15, by unfold runsWord runsForm; decide +kernel⟩,
   ⟨wAt (wWord [(124, 3), (104, 1)]), 127, 15, by unfold runsWord runsForm; decide +kernel⟩,
   ⟨wAt (wWord [(124, 4)]) { stack := [8191] }, 127, 15, 8191, [], by unfold runsWord runsForm; decide +kernel⟩,
   ⟨wAt (wWord [(124, 3)]) { stack := [1, 2, 3, 4, 5, 6, 7, 8] }, 127, 15, by unfold runsWord runsForm; decide +kernel⟩,
   ⟨wAt (wWord [(124, 4)]), 127, 15, by unfold runsWord runsForm; decide +kernel⟩,
   ⟨wAt (wWord [(124, 4)]) { stack := [0, 9], cut := some (77, 1) }, 127, 15, 77, [9], by unfold runsWord runsForm; decide +kernel⟩⟩

theorem witness_BadWordsStopTheCluster :
    (∃ (s : State) (c : Nat) (k : Nat) (i : Instr) (n : _),
      c < 128 ∧ k < 16 ∧ hasTurn s.mx (dieOf c k) = true ∧ (die s.mx (dieOf c k)).frame.waiting = false ∧
        (i = .seq c k ∨ i = .jmp c k ∨ i = .br c k ∨ i = .microCall c k ∨ i = .wait c k ∨ i = .disp c k ∨ i = .exit c k) ∧ fetchFault s.mx (dieOf c k) = some n) ∧
    (∃ (s : State) (c : Nat) (k : Nat) (n : Nat),
      c < 128 ∧ k < 16 ∧ hasTurn s.mx (dieOf c k) = true ∧ (die s.mx (dieOf c k)).frame.waiting = false ∧
        fetchFault s.mx (dieOf c k) = some n) :=
  ⟨⟨wAt 1, 127, 15, .exit 127 15, 2, by decide +kernel⟩,
   ⟨wAt 1, 127, 15, 2, by decide +kernel⟩⟩

theorem witness_MachineCheckAndReload_MachineCheckHalts :
    (∃ (m : Mx) (d : Nat) (n : Nat),
      d < 2048 ∧ n < 8 ∧ (die m d).frame.pc < 8192 ∧ (∀ x, dieGrp x = dieGrp d → (die m x).queue = [] ∧
        (die m x).wait = [] ∧ (die m x).held = none ∧
      (die m x).lock = .none)) ∧
    (∃ (m : Mx) (d : Nat) (n : Nat),
      d < 2048 ∧ n < 8 ∧ (die m d).frame.pc < 8192 ∧ (∀ x, dieGrp x = dieGrp d → (die m x).queue = [] ∧
        (die m x).wait = [] ∧ (die m x).held = none ∧
      (die m x).lock = .none)) ∧
    (∃ (m : Mx) (d : Nat) (n : Nat),
      d < 2048 ∧ n < 8 ∧ (die m d).frame.pc < 8192 ∧ (∀ x, dieGrp x = dieGrp d → (die m x).queue = [] ∧
        (die m x).wait = [] ∧ (die m x).held = none ∧
      (die m x).lock = .none) ∧ bit (cluster m (dieGrp d)).mchk 31 = false) ∧
    (∃ (m : Mx) (d : Nat) (n : Nat),
      d < 2048 ∧ n < 8 ∧ (die m d).frame.pc < 8192 ∧ (∀ x, dieGrp x = dieGrp d → (die m x).queue = [] ∧
        (die m x).wait = [] ∧ (die m x).held = none ∧
      (die m x).lock = .none) ∧ bit (cluster m (dieGrp d)).mchk 31 = true) ∧
    (∃ (m : Mx) (d : Nat) (n : Nat),
      d < 2048 ∧ n < 8 ∧ (die m d).frame.pc < 8192 ∧ (∀ x, dieGrp x = dieGrp d → (die m x).queue = [] ∧
        (die m x).wait = [] ∧ (die m x).held = none ∧
      (die m x).lock = .none)) ∧
    (∃ (m : Mx) (d : Nat) (n : Nat) (x : _),
      d < 2048 ∧ n < 8 ∧ (die m d).frame.pc < 8192 ∧ (∀ x, dieGrp x = dieGrp d → (die m x).queue = [] ∧
        (die m x).wait = [] ∧ (die m x).held = none ∧
      (die m x).lock = .none) ∧ dieGrp x = dieGrp d) ∧
    (∃ (m : Mx) (d : Nat) (n : Nat) (x : _),
      d < 2048 ∧ n < 8 ∧ (die m d).frame.pc < 8192 ∧ (∀ x, dieGrp x = dieGrp d → (die m x).queue = [] ∧
        (die m x).wait = [] ∧ (die m x).held = none ∧
      (die m x).lock = .none) ∧ dieGrp x = dieGrp d) ∧
    (∃ (m : Mx) (d : Nat) (n : Nat) (x : _),
      d < 2048 ∧ n < 8 ∧ (die m d).frame.pc < 8192 ∧ (∀ x, dieGrp x = dieGrp d → (die m x).queue = [] ∧
        (die m x).wait = [] ∧ (die m x).held = none ∧
      (die m x).lock = .none) ∧ dieGrp x = dieGrp d ∧ (die m x).state ≠ 2) ∧
    (∃ (m : Mx) (d : Nat) (n : Nat) (c : _),
      d < 2048 ∧ n < 8 ∧ (die m d).frame.pc < 8192 ∧ (∀ x, dieGrp x = dieGrp d → (die m x).queue = [] ∧
        (die m x).wait = [] ∧ (die m x).held = none ∧
      (die m x).lock = .none) ∧ c / 4 = dieGrp d) :=
  ⟨⟨wMx, 2047, 7, ⟨by decide, by decide, by decide, fun _ _ => ⟨rfl, rfl, rfl, rfl⟩⟩⟩,
   ⟨wMx, 2047, 7, ⟨by decide, by decide, by decide, fun _ _ => ⟨rfl, rfl, rfl, rfl⟩⟩⟩,
   ⟨wMx, 2047, 7, ⟨by decide, by decide, by decide, fun _ _ => ⟨rfl, rfl, rfl, rfl⟩, by decide⟩⟩,
   ⟨{ wMx with mc := { cl := [(31, { mchk := 0x80000000 })] } }, 2047, 7, ⟨by decide, by decide, by decide, fun _ _ => ⟨rfl, rfl, rfl, rfl⟩, by decide⟩⟩,
   ⟨wMx, 2047, 7, ⟨by decide, by decide, by decide, fun _ _ => ⟨rfl, rfl, rfl, rfl⟩⟩⟩,
   ⟨wMx, 2047, 7, 1984, ⟨by decide, by decide, by decide, fun _ _ => ⟨rfl, rfl, rfl, rfl⟩, by decide⟩⟩,
   ⟨wMx, 2047, 7, 1984, ⟨by decide, by decide, by decide, fun _ _ => ⟨rfl, rfl, rfl, rfl⟩, by decide⟩⟩,
   ⟨wMx, 2047, 7, 1984, ⟨by decide, by decide, by decide, fun _ _ => ⟨rfl, rfl, rfl, rfl⟩, by decide, by decide⟩⟩,
   ⟨wMx, 2047, 7, 124, ⟨by decide, by decide, by decide, fun _ _ => ⟨rfl, rfl, rfl, rfl⟩, by decide⟩⟩⟩

theorem witness_WaitsAndExit_Waits :
    (∃ (s : State) (c : Nat) (k : Nat),
      c < 128 ∧ k < 16 ∧ runsWord s.mx (dieOf c k) 5 ∧ mwCond (wordOf s.mx (dieOf c k)) ≠ 7 ∧
        ((die s.mx (dieOf c k)).frame.ahead = false ∨ (die s.mx (dieOf c k)).aside = none ∨ wordCond s.mx (dieOf c k) = true)) ∧
    (∃ (s : State) (c : Nat) (k : Nat),
      c < 128 ∧ k < 16 ∧ runsWord s.mx (dieOf c k) 5 ∧ mwCond (wordOf s.mx (dieOf c k)) = 7 ∧
        ((die s.mx (dieOf c k)).frame.ahead = false ∨ (die s.mx (dieOf c k)).aside = none ∨ wordCond s.mx (dieOf c k) = true)) ∧
    (∃ (s : State) (c : Nat) (k : Nat) (i : Item) (j : Item) (f : Frame),
      c < 128 ∧ k < 16 ∧ runsWord s.mx (dieOf c k) 5 ∧ mwCond (wordOf s.mx (dieOf c k)) ≠ 4 ∧
        mwCond (wordOf s.mx (dieOf c k)) ≠ 5 ∧ mwCond (wordOf s.mx (dieOf c k)) ≠ 6 ∧
        mwCond (wordOf s.mx (dieOf c k)) ≠ 7 ∧ wordCond s.mx (dieOf c k) = false ∧
        (die s.mx (dieOf c k)).frame.ahead = true ∧ (die s.mx (dieOf c k)).aside = some (j, f) ∧
        (die s.mx (dieOf c k)).cur = some i ∧ holdsBus s.mx (dieOf c k) = true ∧ f.regain = false) ∧
    (∃ (s : State) (c : Nat) (k : Nat) (w : Microword),
      c < 128 ∧ k < 16 ∧ waitWord s.mx (dieOf c k) = some w ∧ hasTurn s.mx (dieOf c k) = true) ∧
    (∃ (s : State) (c : Nat) (k : Nat) (w : Microword),
      c < 128 ∧ k < 16 ∧ waitWord s.mx (dieOf c k) = some w ∧
        (condC s.mx (dieOf c k) (die s.mx (dieOf c k)).frame w = false ∨ hasTurn s.mx (dieOf c k) = false)) ∧
    (∃ (s : State) (c : Nat) (k : Nat) (w : Microword),
      c < 128 ∧ k < 16 ∧ waitWord s.mx (dieOf c k) = some w ∧ mwCond w ≠ 4 ∧ mwCond w ≠ 5 ∧
        (die s.mx (dieOf c k)).pfErase = false ∧
        (die s.mx (dieOf c k)).frame.waitAt + waitLimit s.mx (dieOf c k) w ≤ s.mx.md.time) ∧
    (∃ (s : State) (c : Nat) (k : Nat) (w : Microword),
      c < 128 ∧ k < 16 ∧ waitWord s.mx (dieOf c k) = some w ∧ (mwCond w = 4 ∨ mwCond w = 5 ∨
      s.mx.md.time < (die s.mx (dieOf c k)).frame.waitAt + waitLimit s.mx (dieOf c k) w)) :=
  ⟨⟨wAt (wWord [(124, 5)]), 127, 15, by unfold runsWord runsForm; decide +kernel⟩,
   ⟨wBus (wAt (wWord [(124, 5), (104, 7)]) { due := true }).mx, 127, 15, by unfold runsWord runsForm; decide +kernel⟩,
   ⟨wBus (wAt (wWord [(124, 5), (104, 16)]) { ahead := true } { cur := some .spec, aside := some (.entry 7, { active := true, pc := 5 }) }).mx, 127, 15, .spec, .entry 7, { active := true, pc := 5 }, by unfold runsWord runsForm; decide +kernel⟩,
   ⟨wAt (wWord [(124, 5)]) { waiting := true }, 127, 15, wWord [(124, 5)], by decide +kernel⟩,
   ⟨wAt (wWord [(124, 5), (103, 1)]) { waiting := true }, 127, 15, wWord [(124, 5), (103, 1)], by decide +kernel⟩,
   ⟨wSt { (wAt (wWord [(124, 5), (103, 1), (64, 1)]) { waiting := true }).mx with md := { time := 100 } }, 127, 15, wWord [(124, 5), (103, 1), (64, 1)], by decide +kernel⟩,
   ⟨wAt (wWord [(124, 5), (104, 5)]) { waiting := true }, 127, 15, wWord [(124, 5), (104, 5)], by decide +kernel⟩⟩

theorem witness_WaitsAndExit_ExitEndsTheItem :
    (∃ (s : State) (c : Nat) (k : Nat) (n : Nat),
      c < 128 ∧ k < 16 ∧ runsWord s.mx (dieOf c k) 7 ∧ mwXcode (wordOf s.mx (dieOf c k)) = 0 ∧
        (die s.mx (dieOf c k)).cur = some (.restart n) ∧ (die s.mx (dieOf c k)).aside = none) ∧
    (∃ (s : State) (c : Nat) (k : Nat) (eid : Nat) (xc : Nat) (e : Ent),
      c < 128 ∧ k < 16 ∧ runsWord s.mx (dieOf c k) 7 ∧ mwXcode (wordOf s.mx (dieOf c k)) = xc ∧
        (die s.mx (dieOf c k)).cur = some (.entry eid) ∧ (die s.mx (dieOf c k)).aside = none ∧
        (die s.mx (dieOf c k)).queue = [.entry eid] ∧ (die s.mx (dieOf c k)).wait = [] ∧
        (die s.mx (dieOf c k)).lock = .none ∧ ent s.mx eid = some e ∧ e.cut = none ∧ e.stripe = none ∧
        (eOpc e = 3 ∧ (xc = 0 ∨ xc = 0x23) ∨ eOpc e = 2 ∧ (xc = 0 ∨ xc = 0x22))) ∧
    (∃ (s : State) (c : Nat) (k : Nat) (eid : Nat) (e : Ent),
      c < 128 ∧ k < 16 ∧ runsWord s.mx (dieOf c k) 7 ∧ mwXcode (wordOf s.mx (dieOf c k)) = 0x24 ∧
        (die s.mx (dieOf c k)).cur = some (.entry eid) ∧ (die s.mx (dieOf c k)).aside = none ∧
        (die s.mx (dieOf c k)).queue = [.entry eid] ∧ (die s.mx (dieOf c k)).wait = [] ∧
        (die s.mx (dieOf c k)).lock = .none ∧ (die s.mx (dieOf c k)).state = 0 ∧
        (die s.mx (dieOf c k)).spec = none ∧ (die s.mx (dieOf c k)).ahead = [] ∧ ent s.mx eid = some e ∧
        e.cut = none ∧ e.stripe = none ∧ eOpc e = 3) :=
  ⟨⟨wAt (wWord [(124, 7)]) {} { cur := some (.restart 3) }, 127, 15, 3, by unfold runsWord runsForm; decide +kernel⟩,
   ⟨wAt (wWord [(124, 7), (23, 0x23)]) { status := 0xE1 } { cur := some (.entry 7), queue := [.entry 7] } [(7, some wEr)], 127, 15, 7, 0x23, wEr, by unfold runsWord runsForm; decide +kernel⟩,
   ⟨wAt (wWord [(124, 7), (23, 0x24), (88, 1)]) {} { cur := some (.entry 7), queue := [.entry 7] } [(7, some wEr)], 127, 15, 7, wEr, by unfold runsWord runsForm; decide +kernel⟩⟩

theorem witness_NextAddressAndResults_StatusCycle :
    (∃ (s : State) (c : Nat) (k : Nat) (_inp : CycIn) (y : Cyc),
      c < 128 ∧ k < 16 ∧ inCycle s.mx (dieOf c k) 5 y ∧
        (∀ i, (die s.mx (dieOf c k)).cur = some i → itemEntries i = [])) ∧
    (∃ (s : State) (c : Nat) (k : Nat) (n : Nat) (_inp : CycIn) (y : Cyc),
      c < 128 ∧ k < 16 ∧ (n = 1 ∨ n = 2) ∧ inCycle s.mx (dieOf c k) n y) ∧
    (∃ (s : State) (c : Nat) (k : Nat) (n : Nat) (_inp : CycIn) (y : Cyc),
      c < 128 ∧ k < 16 ∧ (n = 8 ∨ n = 9) ∧ inCycle s.mx (dieOf c k) n y) ∧
    (∃ (s : State) (c : Nat) (k : Nat) (inp : CycIn) (y : Cyc),
      c < 128 ∧ k < 16 ∧ inCycle s.mx (dieOf c k) 7 y ∧ mwCnt (wordOf s.mx (dieOf c k)) = 4 ∧ inp.data.length = 4) ∧
    (∃ (s : State) (c : Nat) (k : Nat) (eid : Nat) (e : Ent) (inp : CycIn) (y : Cyc),
      c < 128 ∧ k < 16 ∧ inCycle s.mx (dieOf c k) 4 y ∧ inp.dqs = true ∧ inp.eyes = [] ∧ inp.data.length = y.left ∧
        (chan s.mx c).bytes + y.left < burstMax s.mx c ∧ (die s.mx (dieOf c k)).cur = some (.entry eid) ∧
        eid < 2 ^ 30 ∧ ent s.mx eid = some e ∧ eOpc e = 5 ∧ e.cws = [] ∧ (die s.mx (dieOf c k)).wait = [] ∧
        (die s.mx (dieOf c k)).lock = .none) ∧
    (∃ (s : State) (c : Nat) (k : Nat) (_inp : CycIn),
      (die s.mx (dieOf c k)).frame.cyc = none ∧ (die s.mx (dieOf c k)).frame.cut = none) ∧
    (∃ (s : State) (c : Nat) (k : Nat) (eid : Nat) (e : Ent) (_inp : CycIn) (y : Cyc),
      c < 128 ∧ k < 16 ∧ inCycle s.mx (dieOf c k) 5 y ∧ (die s.mx (dieOf c k)).cur = some (.entry eid) ∧
        (die s.mx (dieOf c k)).wait = [] ∧ ent s.mx eid = some e ∧ (eOpc e = 2 ∨ eOpc e = 3) ∧
        (die s.mx (dieOf c k)).lock = .none) :=
  ⟨⟨wBus (wAt (wWord [(99, 5)]) { cyc := some {} }).mx, 127, 15, { data := [0x60, 0x60] }, {}, by unfold inCycle; decide +kernel⟩,
   ⟨wBus (wAt (wWord [(99, 2)]) { cyc := some {} }).mx, 127, 15, 2, {}, {}, by unfold inCycle; decide +kernel⟩,
   ⟨wBus (wAt (wWord [(99, 8)]) { cyc := some {} }).mx, 127, 15, 8, {}, {}, by unfold inCycle; decide +kernel⟩,
   ⟨wBus (wAt (wWord [(99, 7), (72, 4)]) { cyc := some {} }).mx, 127, 15, { data := [1, 2, 3, 4] }, {}, by unfold inCycle; decide +kernel⟩,
   ⟨wBus { (wAt (wWord [(99, 4)]) { cyc := some { left := 2 }, sptr := 1 } { cur := some (.entry 7), queue := [.entry 7] } [(7, some { raw := wRaw [(0, 5), (0x20, 3)], stage := .placed })]).mx with sb := { resv := [{ owner := .entry 7, cls := 0, lines := [5] }] } }, 127, 15, 7, { raw := wRaw [(0, 5), (0x20, 3)], stage := .placed }, { data := [8, 9] }, { left := 2 }, by unfold inCycle; decide +kernel⟩,
   ⟨wAt (wWord []), 127, 15, {}, by decide +kernel⟩,
   ⟨wBus (wAt (wWord [(99, 5)]) { cyc := some {}, found := true } { cur := some (.entry 7), queue := [.entry 7] } [(7, some wEr)]).mx, 127, 15, 7, wEr, { data := [0x60, 0x60] }, {}, by unfold inCycle; decide +kernel⟩⟩

theorem witness_NextAddressAndResults_AluResults :
    ∃ (_d : Word) (_a : Word) (imm : Nat) (_f : AluFlags),
      imm < 65536 :=
  ⟨0xFFFFFFFF, 1, 65535, { z := false, n := false, c := false }, by decide +kernel⟩

theorem witness_MachineCheckAndReload_ControlStores :
    (∃ (s : State) (g : Nat) (i : Img),
      g < 32 ∧ (cluster s.mx g).halted = true ∧ domeRuns s.mx = true ∧ (cluster s.mx g).img = some i ∧
        (∀ c ∈ groupChans g, (chan s.mx c).resetDue = false) ∧ s.mx.mc.halts.head? = some g ∧
        (∀ x, (cluster s.mx x).load = false) ∧ s.mx.dm.updOwed = none) ∧
    (∃ (s : State) (g : Nat),
      s.mx.dm.updOwed = none ∧ ((cluster s.mx g).halted = false ∨ domeRuns s.mx = false ∨
      (∃ x, s.mx.mc.halts.head? = some x ∧ x ≠ g))) ∧
    (∃ (s : State) (g : Nat) (ups : List (Nat × Microword)),
      g < 32 ∧ fld (reg s.mx (mcOff g 0x18)) 15 0 ≠ 0 ∧ (∀ u ∈ ups, u.1 < 8192) ∧ (cluster s.mx g).poison = []) ∧
    (∃ (s : State) (g : Nat) (a : Nat) (i : Img),
      g < 32 ∧ a ∈ (cluster s.mx g).poison ∧ domeRuns s.mx = true ∧ (cluster s.mx g).img = some i) ∧
    (∃ (s : State) (g : Nat) (i : Img),
      g < 32 ∧ (cluster s.mx g).next = some i ∧ (cluster s.mx g).quiesce = true ∧ groupDone s.mx g = true ∧
        (cluster s.mx g).halted = false ∧ domeRuns s.mx = true ∧ s.mx.mc.halts = [] ∧ s.mx.mc.todo = [] ∧
        s.mx.dm.updOwed = none) ∧
    (∃ (s : State) (g : Nat) (i : Img),
      g < 32 ∧ (cluster s.mx g).next = some i ∧ (cluster s.mx g).quiesce = true ∧ groupDone s.mx g = true ∧
        (cluster s.mx g).halted = false ∧ domeRuns s.mx = true ∧ s.mx.mc.halts ≠ [] ∧ s.mx.dm.updOwed = none) ∧
    (∃ (s : State) (g : Nat),
      s.mx.dm.updOwed = none ∧ ((cluster s.mx g).next = none ∨ (cluster s.mx g).quiesce = false ∨
      groupDone s.mx g = false)) ∧
    (∃ (s : State),
      carried s 0x600004) :=
  ⟨⟨wSt { wMx with dm := { boot := 1 }, mc := { halts := [31, 2], cl := [(31, { halted := true, img := some wImg })] } }, 31, wImg, by
      refine ⟨by decide, by decide +kernel, by decide +kernel, by decide +kernel, by decide +kernel, by decide +kernel, fun x => ?_, rfl⟩
      by_cases h : x = 31
      · subst h; decide +kernel
      · simp [cluster, tabGet, wSt, Ne.symm h]⟩,
   ⟨wSt { wMx with mc := { halts := [2], cl := [(31, { halted := true })] } }, 31, ⟨rfl, .inr (.inr ⟨2, by decide +kernel⟩)⟩⟩,
   ⟨wSt wMx, 31, [(8191, 5)], by decide +kernel⟩,
   ⟨wSt { wMx with dm := { boot := 1 }, mc := { cl := [(31, { poison := [8191], img := some wImg })] } }, 31, 8191, wImg, by decide +kernel⟩,
   ⟨wSt { wMx with dm := { boot := 1 }, mc := { cl := [(31, { quiesce := true, img := some wImg, next := some { wImg with reinit := true } })] } }, 31, { wImg with reinit := true }, by decide +kernel⟩,
   ⟨wSt { wMx with dm := { boot := 1 }, mc := { halts := [2], cl := [(31, { quiesce := true, img := some wImg, next := some wImg })] } }, 31, wImg, by decide +kernel⟩,
   ⟨wSt { wMx with dm := { boot := 1 }, mc := { cl := [(31, { next := some wImg })] } }, 31, by decide +kernel⟩,
   ⟨wSt wMx, by unfold carried; decide +kernel⟩⟩

theorem witness_FervonAndThermal_FervonEntry :
    (∃ (s : State) (g : Nat) (r : FvRes),
      phyFree s.mx g ∧ (cluster s.mx g).halted = false ∧ (phy s.mx g).resetDies = [] ∧ (phy s.mx g).mode ≠ 4 ∧
        (phy s.mx g).fvfail = false ∧ fvAllowed s.mx g = true ∧ kindAddr s.mx g 15 ≠ 0xFFFF ∧
        (∀ d ∈ r.fails, d < 2048 ∧ d ∉ popDies s.mx g) ∧ (phy s.mx g).want = none ∧ (phy s.mx g).therm = 0 ∧
        heat s.mx g = 0 ∧ frateNow s.mx g = 0 ∧ fvRates s.mx g ≠ [] ∧ r.fv.ok = true ∧
        (r.fv.set = [] ∨ within8 isDeskew (setBytes (phy s.mx g) (setIdx 4 ((fvRates s.mx g).headD 0))) r.fv.set = true)) ∧
    (∃ (s : State) (g : Nat) (r : FvRes),
      phyFree s.mx g ∧ (cluster s.mx g).halted = false ∧ (phy s.mx g).resetDies = [] ∧ (phy s.mx g).mode ≠ 4 ∧
        (phy s.mx g).fvfail = false ∧ fvAllowed s.mx g = true ∧
        (kindAddr s.mx g 15 = 0xFFFF ∨ r.fv.ok = false ∨ ∃ d ∈ r.fails, d ∈ popDies s.mx g ∨ 2048 ≤ d)) ∧
    (∃ (s : State) (g : Nat) (r : FvRes),
      phyFree s.mx g ∧ (cluster s.mx g).halted = false ∧ (phy s.mx g).resetDies = [] ∧ (phy s.mx g).mode ≠ 4 ∧
        (phy s.mx g).fvfail = false ∧ fvAllowed s.mx g = true ∧ kindAddr s.mx g 15 ≠ 0xFFFF ∧
        (∀ d ∈ r.fails, d < 2048 ∧ d ∉ popDies s.mx g) ∧ (phy s.mx g).want = none ∧ fvRates s.mx g = [] ∧
        r.fv.ok = true ∧ (r.fv.set = [] ∨ within8 isDeskew (setBytes (phy s.mx g) 3) r.fv.set = true)) ∧
    (∃ (s : State) (g : Nat) (_r : FvRes),
      g < 32 ∧ (cluster s.mx g).halted = false ∧ (phy s.mx g).recal = [] ∧ (phy s.mx g).mode ≠ 4 ∧
        (phy s.mx g).fvfail = false ∧ fvAllowed s.mx g = true ∧ quiet s.mx g = false) ∧
    (∃ (s : State) (g : Nat) (d : Nat) (_r : FvRes),
      phyFree s.mx g ∧ (cluster s.mx g).halted = false ∧ (phy s.mx g).resetDies = [d] ∧ (die s.mx d).state = 1) ∧
    (∃ (s : State) (g : Nat) (_r : FvRes),
      ((cluster s.mx g).halted = true ∨ (phy s.mx g).recal ≠ [] ∨
      (phy s.mx g).resetDies = [] ∧ ((phy s.mx g).mode = 4 ∨ (phy s.mx g).fvfail = true ∨ fvAllowed s.mx g = false))) :=
  ⟨⟨wPhy { trained := 0xA, sets := [(1, wRun)] }, 31, { fails := [0], fv := { set := List.replicate 272 47 } }, by unfold phyFree; decide +kernel⟩,
   ⟨wPhy { trained := 0xA }, 31, { fv := { ok := false } }, by unfold phyFree; decide +kernel⟩,
   ⟨wPhy { trained := 0x8 }, 31, { fails := [0] }, by unfold phyFree; decide +kernel⟩,
   ⟨wSt { (wPhy { trained := 0xA }).mx with ch := [(126, { tenure := true, owner := some 3 }), (127, { owner := some 4 }), (125, { tenure := true, owner := some 7 })], die := [(dieOf 125 7, { frame := { launchAt := some 9 } })] ++ (List.range 16).map (fun i => (2032 + i, { cap := some (24, 1) })) }, 31, {}, by decide +kernel⟩,
   ⟨wSt { (wPhy { trained := 0xA, mode := 4, rate := 24, resetDies := [2040] }).mx with die := (List.range 16).map (fun i => (2032 + i, { cap := some (24, 1), state := if i = 8 then 1 else 0 })) }, 31, 2040, { std := { ok := false } }, by unfold phyFree; decide +kernel⟩,
   ⟨wPhy { trained := 0xA, fvfail := true }, 31, { fails := [] }, by decide +kernel⟩⟩

theorem witness_FervonAndThermal_ThermalSteps :
    (∃ (s : State) (g : Nat) (temp : Int),
      g < 32 ∧ s.mx.gl.pstate ≠ 3 ∧ temp ≤ 480) ∧
    (∃ (s : State) (g : Nat) (temp : Int),
      g < 32 ∧ s.mx.gl.pstate ≠ 3 ∧ 560 < temp ∧ (phy s.mx g).mode = 4 ∧ 18 < (phy s.mx g).rate ∧
        (phy s.mx g).want = none ∧ isTrained (phy s.mx g) 2 = true) ∧
    (∃ (s : State) (g : Nat) (s0 : Nat),
      g < 32 ∧ (phy s.mx g).mode = 4 ∧ (phy s.mx g).rate = 24 ∧ (phy s.mx g).want = none ∧ frateNow s.mx g = 0 ∧
        (phy s.mx g).cool120 = some s0 ∧ 32 ∈ fvRates s.mx g ∧ s0 + 100000000 ≤ s.mx.md.time ∧
        (phy s.mx g).reached + 100000000 ≤ s.mx.md.time) ∧
    (∃ (s : State) (g : Nat) (mode : Nat) (rate : Nat) (th : Nat),
      phyFree s.mx g ∧ (phy s.mx g).want = some (mode, rate, th) ∧ (phy s.mx g).hold = true ∧
        (phy s.mx g).resetDies = []) ∧
    (∃ (s : State) (g : Nat) (temp : Int),
      g < 32 ∧ s.mx.gl.pstate ≠ 3 ∧ 500 < temp ∧ temp ≤ 560 ∧ (phy s.mx g).mode = 4 ∧ (phy s.mx g).rate = 32 ∧
        (phy s.mx g).want = none ∧ frateNow s.mx g = 0 ∧ isTrained (phy s.mx g) 1 = true) ∧
    (∃ (s : State) (g : Nat) (temp : Int),
      g < 32 ∧ s.mx.gl.pstate ≠ 3 ∧ 560 < temp ∧ (phy s.mx g).want = some (4, 24, 1) ∧
        isTrained (phy s.mx g) 2 = true) ∧
    (∃ (s : State) (g : Nat) (s0 : Nat),
      g < 32 ∧ (phy s.mx g).mode = 4 ∧ (phy s.mx g).rate = 18 ∧ (phy s.mx g).want = none ∧
        (phy s.mx g).cool135 = some s0 ∧ s0 + 100000000 ≤ s.mx.md.time ∧
        (phy s.mx g).reached + 100000000 ≤ s.mx.md.time ∧ (frateNow s.mx g = 0 ∧
        24 ∈ fvRates s.mx g ∨ frateNow s.mx g = 1 ∨ frateNow s.mx g = 2)) ∧
    (∃ (s : State) (g : Nat),
      ((phy s.mx g).mode ≠ 4 ∨ (phy s.mx g).want ≠ none ∨
      (phy s.mx g).rate = 18 ∧ coolFor s.mx (phy s.mx g).cool135 (phy s.mx g).reached = false ∨
      (phy s.mx g).rate = 24 ∧ coolFor s.mx (phy s.mx g).cool120 (phy s.mx g).reached = false)) ∧
    (∃ (s : State) (g : Nat) (mode : Nat) (rate : Nat) (th : Nat),
      phyFree s.mx g ∧ (phy s.mx g).want = some (mode, rate, th) ∧ (phy s.mx g).hold = true ∧
        (phy s.mx g).waking = false) ∧
    (∃ (s : State) (g : Nat) (_r : PhyRes),
      ((phy s.mx g).want = none ∨ (phy s.mx g).hold = false ∨ quiet s.mx g = false ∨ (phy s.mx g).recal ≠ [])) ∧
    (∃ (s : State) (g : Nat) (mode : Nat) (rate : Nat) (th : Nat),
      phyFree s.mx g ∧ (phy s.mx g).want = some (mode, rate, th) ∧ (phy s.mx g).hold = true ∧
        (phy s.mx g).resetDies = [] ∧ (phy s.mx g).waking = true) :=
  ⟨⟨wPhy {}, 31, 480, by decide +kernel⟩,
   ⟨wPhy { mode := 4, rate := 32, trained := 0xF }, 31, 561, by decide +kernel⟩,
   ⟨wSt { (wPhy { mode := 4, rate := 24, trained := 0xF, cool120 := some 0 }).mx with die := [], regs := [(0x2C, 0), (phOff 31 0, 0x80284000)] }, 31, 0, by decide +kernel⟩,
   ⟨wPhy { want := some (4, 18, 2), hold := true, mode := 4, rate := 24, trained := 0xF }, 31, 4, 18, 2, by unfold phyFree; decide +kernel⟩,
   ⟨wPhy { mode := 4, rate := 32, trained := 0xF }, 31, 501, by decide +kernel⟩,
   ⟨wPhy { mode := 4, rate := 32, trained := 0xF, want := some (4, 24, 1), hold := true }, 31, 561, by decide +kernel⟩,
   ⟨wPhy { mode := 4, rate := 18, therm := 2, trained := 0xF, cool135 := some 5 }, 31, 5, by decide +kernel⟩,
   ⟨wPhy { mode := 4, rate := 18, therm := 2, trained := 0xF, cool135 := some 100000001 }, 31, by decide +kernel⟩,
   ⟨wPhy { want := some (4, 18, 2), hold := true, mode := 4, rate := 24, trained := 0xB }, 31, 4, 18, 2, by unfold phyFree; decide +kernel⟩,
   ⟨wPhy { want := some (4, 18, 2), hold := false, mode := 4, rate := 24 }, 31, {}, by decide +kernel⟩,
   ⟨wPhy { want := some (4, 24, 1), hold := true, mode := 4, rate := 24, trained := 0xF, waking := true }, 31, 4, 24, 1, by unfold phyFree; decide +kernel⟩⟩

theorem witness_TrimsAndPhyControls_TrimsAndRecalibration :
    (∃ (s : State) (g : Nat) (_centre : List Byte),
      g < 32 ∧ s.mx.gl.pstate ≠ 3 ∧ fld (track s.mx g) 15 0 ≠ 0 ∧ (phy s.mx g).hold = false ∧
        (phy s.mx g).recal = [] ∧ setBytes (phy s.mx g) (curSet (phy s.mx g)) ≠ []) ∧
    (∃ (s : State) (g : Nat) (pu : ZqRes) (pd : ZqRes),
      g < 32 ∧ s.mx.gl.pstate ≠ 3 ∧ fld (track s.mx g) 31 16 ≠ 0 ∧ 0 < pu.code ∧ pu.code < 63 ∧ 0 < pd.code ∧
        pd.code < 63 ∧ pu.ch < 4 ∧ pd.ch < 4 ∧ setBytes (phy s.mx g) (curSet (phy s.mx g)) ≠ []) ∧
    (∃ (s : State) (g : Nat) (pu : ZqRes) (pd : ZqRes),
      g < 32 ∧ s.mx.gl.pstate ≠ 3 ∧ fld (track s.mx g) 31 16 ≠ 0 ∧ pu.code < 64 ∧ pd.code < 64 ∧ pu.ch < 4 ∧
        pd.ch < 4 ∧ (pu.code = 0 ∨ pu.code = 63 ∨ pd.code = 0 ∨ pd.code = 63) ∧ quiet s.mx g = true) ∧
    (∃ (s : State) (g : Nat),
      g < 32 ∧ (phy s.mx g).recal ≠ [] ∧ (phy s.mx g).hold = false ∧ (phy s.mx g).retrain = none ∧
        (phy s.mx g).newRate = false ∧ (phy s.mx g).later = false) ∧
    (∃ (s : State) (g : Nat) (i : Nat) (_centre : List Byte) (bad : BitVec 4),
      g < 32 ∧ s.mx.gl.pstate ≠ 3 ∧ fld (track s.mx g) 15 0 ≠ 0 ∧ (phy s.mx g).hold = false ∧
        (phy s.mx g).recal = [] ∧ i < 4 ∧ bad.getLsbD i = true ∧ busFree s.mx (4 * g + i) = true) ∧
    (∃ (s : State) (g : Nat) (_centre : List Byte) (_bad : BitVec 4),
      (s.mx.gl.pstate = 3 ∨ fld (track s.mx g) 15 0 = 0 ∨ (phy s.mx g).hold = true ∨ (phy s.mx g).recal ≠ [])) ∧
    (∃ (s : State) (g : Nat) (_pu : ZqRes) (_pd : ZqRes),
      (s.mx.gl.pstate = 3 ∨ fld (track s.mx g) 31 16 = 0)) ∧
    (∃ (s : State) (g : Nat),
      g < 32 ∧ (phy s.mx g).recal ≠ [] ∧ (phy s.mx g).hold = false ∧ (phy s.mx g).retrain = none ∧
        (phy s.mx g).newRate = false ∧ (phy s.mx g).later = false ∧ (phy s.mx g).mode ≠ 4) ∧
    (∃ (s : State) (g : Nat),
      g < 32 ∧ (phy s.mx g).recal ≠ [] ∧ (phy s.mx g).retrain = none ∧ (phy s.mx g).hold = false ∧
        (phy s.mx g).newRate = false ∧ (phy s.mx g).want = none ∧ (phy s.mx g).mode = 4) ∧
    (∃ (s : State) (g : Nat) (_r : PhyRes),
      ((phy s.mx g).recal = [] ∨ (phy s.mx g).newRate = true ∧ quiet s.mx g = false)) ∧
    (∃ (s : State) (g : Nat) (mode : Nat) (rate : Nat) (th : Nat),
      g < 32 ∧ (phy s.mx g).recal ≠ [] ∧ (phy s.mx g).newRate = true ∧ quiet s.mx g = true ∧
        (phy s.mx g).want = some (mode, rate, th) ∧ (phy s.mx g).hold = true ∧ (phy s.mx g).retrain = none ∧
        (phy s.mx g).resetDies = [] ∧ (phy s.mx g).later = false) ∧
    (∃ (m : Mx) (g : Nat) (i : Nat),
      (phy m g).forceTaps = true ∧ (phy m g).mode = 4 ∧ (phy m g).stale = [] ∧ i < 4 ∧
        (setBytes (phy m g) (curSet (phy m g))).length = 272) :=
  ⟨⟨wPhy { sets := [(3, wRun)] }, 31, List.replicate 272 50, by decide +kernel⟩,
   ⟨wPhy { sets := [(3, wRun)] }, 31, { code := 1 }, { code := 62, ch := 3 }, by decide +kernel⟩,
   ⟨wSt { (wPhy { sets := [(3, wRun)] }).mx with ch := [(126, { owner := some 3 })] }, 31, { code := 63, ch := 2 }, { code := 62 }, by decide +kernel⟩,
   ⟨wPhy { recal := [0, 3], fresh := [1] }, 31, by decide +kernel⟩,
   ⟨wSt { (wPhy {}).mx with ch := [(127, { owner := some 3 })] }, 31, 3, [], 8, by decide +kernel⟩,
   ⟨wPhy { recal := [2] }, 31, [], 1, by decide +kernel⟩,
   ⟨wSt { (wPhy {}).mx with regs := [(phOff 31 0x10, 5)] }, 31, { code := 0 }, { code := 0 }, by decide +kernel⟩,
   ⟨wPhy { recal := [0, 3], fresh := [1] }, 31, by decide +kernel⟩,
   ⟨wPhy { recal := [1], mode := 4, rate := 32, trained := 0xF }, 31, by decide +kernel⟩,
   ⟨wPhy {}, 31, { ok := false }, by decide +kernel⟩,
   ⟨wPhy { recal := [1], newRate := true, want := some (4, 18, 2), hold := true, mode := 4, rate := 32, trained := 0xF }, 31, 4, 18, 2, by decide +kernel⟩,
   ⟨(wPhy { forceTaps := true, mode := 4, rate := 32, trained := 0xF, sets := [(0, wRun)] }).mx, 31, 3, by decide +kernel⟩⟩

theorem witness_TrimsAndPhyControls_PhyControls :
    (∃ (s : State) (g : Nat) (r : Nat),
      g < 32 ∧ r < 4 ∧ carried s (phOff g 0) ∧
        phCfgOk ((phCfg s.mx g &&& 0xF3FFFFFF) ||| word (2 ^ 26 * r)) = true ∧ (phy s.mx g).mode ≠ 4 ∧
        (phy s.mx g).hold = false ∧ (phy s.mx g).recal = []) ∧
    (∃ (s : State) (g : Nat) (r : Nat),
      g < 32 ∧ r < 4 ∧ carried s (phOff g 0) ∧
        phCfgOk ((phCfg s.mx g &&& 0xF3FFFFFF) ||| word (2 ^ 26 * r)) = true ∧ (phy s.mx g).mode = 4 ∧
        r ≠ frateOf s.mx g ∧ (phy s.mx g).hold = false ∧ (phy s.mx g).recal = []) ∧
    (∃ (s : State) (g : Nat) (v : Word),
      g < 32 ∧ carried s (phOff g 0xC) ∧ tapsOk v = true ∧ bit v 31 = true ∧ (phy s.mx g).hold = false ∧
        (phy s.mx g).recal = []) ∧
    (∃ (s : State) (g : Nat) (v : Word),
      g < 32 ∧ carried s (phOff g 0xC) ∧ tapsOk v = false ∧ bit (reg s.mx (phOff g 0xC)) 31 = (phy s.mx g).forceTaps) ∧
    (∃ (s : State) (g : Nat) (r : TrainRes) (a : List Byte) (b : List Byte),
      phyFree s.mx g ∧ carried s (phOff g 8) ∧ (phy s.mx g).hold = false ∧ (phy s.mx g).want = none ∧
        (phy s.mx g).resetDies = [] ∧ r.grp = g ∧ r.set < 4 ∧ takenPair r.runs = some (a, b) ∧
        eyeFails s.mx g (meanSet s.mx g r.set a b) = []) ∧
    (∃ (s : State) (g : Nat) (_rs : List TrainRes),
      g < 32 ∧ carried s (phOff g 8) ∧ ((phy s.mx g).hold = true ∨ (phy s.mx g).recal ≠ [])) ∧
    (∃ (s : State),
      ephWanted s.mx = true) ∧
    (∃ (s : State) (_okA : Told) (_okB : Told),
      ephWanted s.mx = false) ∧
    (∃ (s : State) (g : Nat) (r : Nat),
      g < 32 ∧ r < 4 ∧ carried s (phOff g 0) ∧
        phCfgOk ((phCfg s.mx g &&& 0xF3FFFFFF) ||| word (2 ^ 26 * r)) = true ∧ r ≠ frateOf s.mx g ∧
        ((phy s.mx g).hold = true ∨ (phy s.mx g).recal ≠ [])) ∧
    (∃ (s : State) (g : Nat) (v : Word),
      g < 32 ∧ carried s (phOff g 0xC) ∧ tapsOk v = true ∧ bit v 31 = false ∧ (phy s.mx g).forceTaps = true ∧
        (phy s.mx g).hold = false ∧ (phy s.mx g).recal = [] ∧ (phy s.mx g).want = none) ∧
    (∃ (s : State) (g : Nat) (v : Word),
      g < 32 ∧ carried s (phOff g 0xC) ∧ tapsOk v = true ∧ ((phy s.mx g).hold = true ∨ (phy s.mx g).recal ≠ []) ∧
        (bit v 31 ≠ (phy s.mx g).forceTaps ∨ bit v 31 ≠ bit (reg s.mx (phOff g 0xC)) 31)) :=
  ⟨⟨wPhy {}, 31, 3, by unfold carried; decide +kernel⟩,
   ⟨wPhy { mode := 4, rate := 24, trained := 0xF }, 31, 3, by unfold carried; decide +kernel⟩,
   ⟨wPhy {}, 31, 0x80001428, by unfold carried; decide +kernel⟩,
   ⟨wPhy {}, 31, 0x00001528, by unfold carried; decide +kernel⟩,
   ⟨wPhy {}, 31, { grp := 31, set := 3, runs := [wRun, wRun] }, wRun, wRun, by unfold carried phyFree; decide +kernel⟩,
   ⟨wPhy { hold := true }, 31, [], by unfold carried; decide +kernel⟩,
   ⟨wSt { wMx with regs := [(phEphOff 0, 0x80010000), (phEphOff 4, 0x1000), (0x220010, 0x1230)], ph := { due := true, ephA := { valid := true, seq := 5 } } }, by decide +kernel⟩,
   ⟨wSt wMx, .held, .held, by decide +kernel⟩,
   ⟨wPhy { mode := 4, rate := 24, trained := 0xF, recal := [3] }, 31, 3, by unfold carried; decide +kernel⟩,
   ⟨wPhy { forceTaps := true }, 31, 0x28, by unfold carried; decide +kernel⟩,
   ⟨wPhy { hold := true }, 31, 0x80000028, by unfold carried; decide +kernel⟩⟩

theorem witness_CodecRoundTrip :
    ∃ (prof : Nat) (_row : Nat) (_cw : Nat) (plain : List Byte),
      1 ≤ prof ∧ prof ≤ 5 ∧ plain.length = 4128 :=
  ⟨5, 0x7FFFF, 3, wZeros 4128, by decide +kernel⟩

theorem witness_CodecLanes_LanesTakeFrames :
    (∃ (s : State) (g : Nat) (l : Nat) (c : CwRef) (q : List CwRef) (e : Ent) (b : List Byte),
      g < 32 ∧ (codec s.mx g).eq = c :: q ∧ (codec s.mx g).faulted = none ∧ freeLane (codec s.mx g).el 8 = some l ∧
        ent s.mx c.eid = some e ∧ readsClean s.mx (resOwner c.eid) 12 (c.cw * frameLen (encProf s.mx e)) 4128 b) ∧
    (∃ (s : State) (g : Nat) (l : Nat) (c : CwRef) (q : List CwRef) (e : Ent) (b : List Byte),
      g < 32 ∧ (codec s.mx g).hq = c :: q ∧ (codec s.mx g).faulted = none ∧
        freeLane (codec s.mx g).hl 16 = some l ∧ ent s.mx c.eid = some e ∧
        readsClean s.mx (resOwner c.eid) 12 (frameOff e c.cw 0) (frameLen (eSrcProf e)) b ∧ isErased s.mx b = false) ∧
    (∃ (s : State) (g : Nat) (l : Nat) (c : CwRef) (q : List CwRef) (e : Ent) (b : List Byte),
      g < 32 ∧ (codec s.mx g).hq = c :: q ∧ (codec s.mx g).faulted = none ∧
        freeLane (codec s.mx g).hl 16 = some l ∧ ent s.mx c.eid = some e ∧
        readsClean s.mx (resOwner c.eid) 12 (frameOff e c.cw 0) (frameLen (eSrcProf e)) b ∧
        isErased s.mx b = true ∧ c.cw < e.cws.length ∧ 2 ≤ e.sent) ∧
    (∃ (s : State) (g : Nat) (l : Nat) (c : CwRef) (q : List CwRef) (e : Ent) (a : List Byte) (b : List Byte),
      g < 32 ∧ (codec s.mx g).sq = c :: q ∧ (codec s.mx g).faulted = none ∧ freeLane (codec s.mx g).sl 4 = some l ∧
        c.mode = 1 ∧ ent s.mx c.eid = some e ∧
        readsClean s.mx (resOwner c.eid) 12 (frameOff e c.cw 0) (frameLen (eSrcProf e)) a ∧
        readsClean s.mx (resOwner c.eid) 12 (frameOff e c.cw 1) (frameLen (eSrcProf e)) b) ∧
    (∃ (s : State) (g : Nat) (l : Nat) (c : CwRef) (q : List CwRef) (e : Ent) (a : List Byte) (b : List Byte) (d : List Byte),
      g < 32 ∧ (codec s.mx g).sq = c :: q ∧ (codec s.mx g).faulted = none ∧ freeLane (codec s.mx g).sl 4 = some l ∧
        c.mode = 2 ∧ ent s.mx c.eid = some e ∧
        readsClean s.mx (resOwner c.eid) 12 (frameOff e c.cw 0) (frameLen (eSrcProf e)) a ∧
        readsClean s.mx (resOwner c.eid) 12 (frameOff e c.cw 1) (frameLen (eSrcProf e)) b ∧
        readsClean s.mx (resOwner c.eid) 12 (frameOff e c.cw 2) (frameLen (eSrcProf e)) d) ∧
    (∃ (s : State) (g : Nat),
      ((codec s.mx g).eq = [] ∨ (codec s.mx g).faulted ≠ none ∨ freeLane (codec s.mx g).el 8 = none)) ∧
    (∃ (s : State) (g : Nat),
      ((codec s.mx g).hq = [] ∨ (codec s.mx g).faulted ≠ none ∨ freeLane (codec s.mx g).hl 16 = none)) ∧
    (∃ (s : State) (g : Nat),
      ((codec s.mx g).sq = [] ∨ (codec s.mx g).faulted ≠ none ∨ freeLane (codec s.mx g).sl 4 = none)) :=
  ⟨⟨wCx { eq := [wCw] }, 31, 0, wCw, [], wCwE, wZeros 4128, ⟨by decide, rfl, rfl, rfl, rfl, wReads _ _ _ _ _ _ (by decide +kernel) rfl rfl rfl (by decide +kernel)⟩⟩,
   ⟨wCx { hq := [wCw] }, 31, 0, wCw, [], wCwE, wZeros 4576, ⟨by decide, rfl, rfl, rfl, rfl, wReads _ _ _ _ _ _ (by decide +kernel) rfl rfl rfl (by decide +kernel), by decide +kernel⟩⟩,
   ⟨wCx { hq := [wCw] } wCwE 0, 31, 0, wCw, [], wCwE, [], by unfold readsClean; decide +kernel⟩,
   ⟨wCx { sq := [wCw] }, 31, 0, wCw, [], wCwE, wZeros 4576, wZeros 4576, ⟨by decide, rfl, rfl, rfl, rfl, rfl, wReads _ _ _ _ _ _ (by decide +kernel) rfl rfl rfl (by decide +kernel), wReads _ _ _ _ _ _ (by decide +kernel) rfl rfl rfl (by decide +kernel)⟩⟩,
   ⟨wCx { sq := [{ wCw with mode := 2 }] }, 31, 0, { wCw with mode := 2 }, [], wCwE, wZeros 4576, wZeros 4576, wZeros 4576, ⟨by decide, rfl, rfl, rfl, rfl, rfl, wReads _ _ _ _ _ _ (by decide +kernel) rfl rfl rfl (by decide +kernel), wReads _ _ _ _ _ _ (by decide +kernel) rfl rfl rfl (by decide +kernel), wReads _ _ _ _ _ _ (by decide +kernel) rfl rfl rfl (by decide +kernel)⟩⟩,
   ⟨wCx { eq := [wCw], faulted := some 1 }, 31, by decide +kernel⟩,
   ⟨wCx {}, 31, by decide +kernel⟩,
   ⟨wCx { sq := [wCw], faulted := some 1 }, 31, by decide +kernel⟩⟩

theorem witness_CodecLanes_LanesFinish :
    (∃ (s : State) (g : Nat) (l : Nat) (c : CwRef) (e : Ent),
      g < 32 ∧ l < 8 ∧ tabGet none (codec s.mx g).el l = some c ∧ ent s.mx c.eid = some e ∧ e.sent = 1 ∧
        isHostEid c.eid = true) ∧
    (∃ (s : State) (g : Nat) (l : Nat) (soft : Bool) (c : CwRef) (e : Ent),
      g < 32 ∧ laneRef (codec s.mx g) soft l = some c ∧ ent s.mx c.eid = some e ∧ 2 ≤ e.sent ∧
        c.cw < e.cws.length ∧ unsatisfied (parityRows (eSrcProf e)) (c.bytes.headD []) = 0) ∧
    (∃ (s : State) (g : Nat) (l : Nat) (c : CwRef) (e : Ent),
      g < 32 ∧ l < 8 ∧ tabGet none (codec s.mx g).el l = some c ∧ ent s.mx c.eid = some e ∧ 2 ≤ e.sent) ∧
    (∃ (s : State) (g : Nat) (l : Nat) (c : CwRef) (e : Ent),
      g < 32 ∧ l < 8 ∧ tabGet none (codec s.mx g).el l = some c ∧ ent s.mx c.eid = some e ∧ e.sent = 1 ∧
        isHostEid c.eid = false) ∧
    (∃ (s : State) (g : Nat) (l : Nat) (soft : Bool) (c : CwRef) (e : Ent),
      g < 32 ∧ laneRef (codec s.mx g) soft l = some c ∧ ent s.mx c.eid = some e ∧ 2 ≤ e.sent ∧ c.cw < e.cws.length) ∧
    (∃ (s : State) (g : Nat) (l : Nat),
      tabGet none (codec s.mx g).el l = none) ∧
    (∃ (s : State) (g : Nat) (l : Nat) (soft : Bool),
      laneRef (codec s.mx g) soft l = none) :=
  ⟨⟨wCx { el := [(7, some { wCw with bytes := [wZeros 4128] })] } { wCwE with sent := 1, stage := .encode }, 31, 7, { wCw with bytes := [wZeros 4128] }, { wCwE with sent := 1, stage := .encode }, ⟨by decide, by decide, rfl, rfl, rfl, by decide⟩⟩,
   ⟨wCx { hl := [(15, some { wCw with bytes := [wZeros 4576] })] }, 31, 15, false, { wCw with bytes := [wZeros 4576] }, wCwE, ⟨by decide, rfl, rfl, by decide, by decide, by decide +kernel⟩⟩,
   ⟨wCx { el := [(7, some { wCw with bytes := [wZeros 4128] })] }, 31, 7, { wCw with bytes := [wZeros 4128] }, wCwE, ⟨by decide, by decide, rfl, rfl, by decide⟩⟩,
   ⟨wSt { wMx with cx := { cl := [(31, { el := [(7, some { eid := sysEid 8, cw := 0, bytes := [wZeros 4128] })] })] }, ents := [(sysEid 8, some { wCwE with sent := 1, stage := .encode })], sb := { allWritten := true, resv := [{ owner := .sys 8, cls := 4, lines := List.range 40 }] } }, 31, 7, { eid := sysEid 8, cw := 0, bytes := [wZeros 4128] }, { wCwE with sent := 1, stage := .encode }, ⟨by decide, by decide, rfl, rfl, rfl, by decide⟩⟩,
   ⟨wCx { sl := [(3, some { wCw with bytes := [wZeros 4576, wZeros 4576] })] }, 31, 3, true, { wCw with bytes := [wZeros 4576, wZeros 4576] }, wCwE, ⟨by decide, rfl, rfl, by decide, by decide⟩⟩,
   ⟨wCx {}, 31, 0, by decide +kernel⟩,
   ⟨wCx {}, 31, 0, false, by decide +kernel⟩⟩

theorem witness_CodecFaults :
    (∃ (s : State) (g : Nat) (kind : Nat) (l : Nat) (p : Nat) (c : CwRef) (e : Ent),
      g < 32 ∧ kind < 3 ∧ l < 16 ∧ tabGet none (lanesOf (codec s.mx g) kind) l = some c ∧ ent s.mx c.eid = some e ∧
        c.at_ + laneLimit s.mx e kind < s.mx.md.time ∧ (codec s.mx g).faulted = none ∧
        bit (codec s.mx g).fault 31 = false ∧ servedBy s.mx g = g ∧ partner s.mx g = some p) ∧
    (∃ (s : State) (g : Nat) (k : Nat),
      g < 32 ∧ carried s (cxOff g 4) ∧ (codec s.mx g).faulted = some k ∧ k ≠ 5) ∧
    (∃ (s : State) (g : Nat),
      g < 32 ∧ carried s (cxOff g 4) ∧ ((codec s.mx g).faulted = none ∨ (codec s.mx g).faulted = some 5)) ∧
    (∃ (s : State) (g : Nat),
      g < 32 ∧ (codec s.mx g).test = true ∧
        (∀ i, i < 32 → servedBy s.mx i ≠ g → (codec s.mx (servedBy s.mx i)).faulted = none)) ∧
    (∃ (s : State) (g : Nat),
      g < 32 ∧ (codec s.mx g).test = true) ∧
    (∃ (s : State) (g : Nat) (kind : Nat) (l : Nat) (c : CwRef) (e : Ent),
      g < 32 ∧ kind < 3 ∧ l < 16 ∧ tabGet none (lanesOf (codec s.mx g) kind) l = some c ∧ ent s.mx c.eid = some e ∧
        c.at_ + laneLimit s.mx e kind < s.mx.md.time ∧ (codec s.mx g).faulted = none ∧ partner s.mx g = none) ∧
    (∃ (s : State) (g : Nat) (l : Nat) (c : CwRef),
      g < 32 ∧ l < 8 ∧ tabGet none (codec s.mx g).el l = some c ∧ (codec s.mx g).faulted = none) ∧
    (∃ (s : State) (g : Nat) (l : Nat) (soft : Bool),
      g < 32 ∧ laneRef (codec s.mx g) soft l ≠ none ∧ (codec s.mx g).faulted = none) ∧
    (∃ (s : State) (g : Nat) (kind : Nat) (l : Nat),
      (tabGet none (lanesOf (codec s.mx g) kind) l = none ∨
      (tabGet none (lanesOf (codec s.mx g) kind) l).any (fun c => (ent s.mx c.eid).any (fun e =>
      decide (s.mx.md.time ≤ c.at_ + laneLimit s.mx e kind))))) ∧
    (∃ (s : State) (g : Nat) (_pass : Bool),
      (codec s.mx g).test = false) :=
  ⟨⟨wCx { hl := [(15, some wCw)] }, 31, 0, 15, 0, wCw, wCwE, by decide +kernel⟩,
   ⟨wCx { faulted := some 4 }, 31, 4, by unfold carried; decide +kernel⟩,
   ⟨wCx { faulted := some 5 }, 31, by unfold carried; decide +kernel⟩,
   ⟨wCx { test := true }, 31, by decide +kernel⟩,
   ⟨wCx { test := true }, 31, by decide +kernel⟩,
   ⟨wSt { (wCx {}).mx with cx := { cl := [(31, { hl := [(15, some wCw)] })] ++ (List.range 31).map (fun i => (i, { faulted := some 1 })) } }, 31, 0, 15, wCw, wCwE, by decide +kernel⟩,
   ⟨wCx { el := [(7, some wCw)] }, 31, 7, wCw, by decide +kernel⟩,
   ⟨wCx { sl := [(3, some wCw)] }, 31, 3, true, by decide +kernel⟩,
   ⟨wCx { hl := [(15, some { wCw with at_ := 999999999 })] }, 31, 0, 15, by decide +kernel⟩,
   ⟨wCx {}, 31, true, by decide +kernel⟩⟩

theorem witness_SeeingLearnsAndSaves_LearningUpdate :
    (∃ (s : State) (r : Stat) (rs : List Stat) (l : Nat) (f : Nat) (g : Nat),
      s.mx.sg.recs = r :: rs ∧ bit (sgCfg s.mx) 30 = true ∧ r.result = 0 ∧ served s.mx r.die = true ∧
        r.levels = [l] ∧ r.fell = [f] ∧ r.rose = [g] ∧ 1 ≤ l ∧ l ≤ 16 ∧ r.die < 2048 ∧ r.bg < 16 ∧ g < f ∧
        sgDmin s.mx ≤ f - g ∧ r.used.getD (l - 1) 0 ≤ predict s.mx r.die r.bg r.bin l) ∧
    (∃ (s : State) (r : Stat) (rs : List Stat),
      s.mx.sg.recs = r :: rs ∧ bit (sgCfg s.mx) 30 = false) ∧
    (∃ (s : State) (r : Stat) (rs : List Stat),
      s.mx.sg.recs = r :: rs ∧ (r.result ≠ 0 ∨ served s.mx r.die = false)) ∧
    (∃ (s : State),
      s.mx.sg.recs = []) ∧
    (∃ (s : State) (r : Stat) (rs : List Stat) (l : Nat) (f : Nat) (g : Nat),
      s.mx.sg.recs = r :: rs ∧ bit (sgCfg s.mx) 30 = true ∧ r.result = 0 ∧ served s.mx r.die = true ∧
        r.levels = [l] ∧ r.fell = [f] ∧ r.rose = [g] ∧ 1 ≤ l ∧ l ≤ 16 ∧ r.die < 2048 ∧ r.bg < 16 ∧ f < g ∧
        sgDmin s.mx ≤ g - f ∧ predict s.mx r.die r.bg r.bin l ≤ r.used.getD (l - 1) 0) ∧
    (∃ (s : State) (r : Stat) (rs : List Stat) (l : Nat) (f : Nat) (g : Nat),
      s.mx.sg.recs = r :: rs ∧ bit (sgCfg s.mx) 30 = true ∧ r.result = 0 ∧ served s.mx r.die = true ∧
        r.levels = [l] ∧ r.fell = [f] ∧ r.rose = [g] ∧ r.die < 2048 ∧ r.bg < 16 ∧
        ((f : Int) - g).natAbs < sgDmin s.mx) :=
  ⟨⟨wSt { wMx with sg := { recs := [wStat], table := wTable } }, wStat, [], 1, 32, 0, by decide +kernel⟩,
   ⟨wSt { wMx with sg := { recs := [wStat] }, regs := [(sgOff 0, 0x80000000)] }, wStat, [], by decide +kernel⟩,
   ⟨wSt { wMx with sg := { recs := [wStat] } }, wStat, [], by decide +kernel⟩,
   ⟨wSt wMx, by decide +kernel⟩,
   ⟨wSt { wMx with sg := { recs := [{ wStat with fell := [0], rose := [32] }], table := wTable } }, { wStat with fell := [0], rose := [32] }, [], 1, 0, 32, by decide +kernel⟩,
   ⟨wSt { wMx with sg := { recs := [{ wStat with fell := [1] }], table := wTable } }, { wStat with fell := [1] }, [], 1, 1, 0, by decide +kernel⟩⟩

theorem witness_SeeingLearnsAndSaves_SeeingTable :
    (∃ (s : State) (_v : Word),
      carried s (sgOff 0x3C) ∧ (sgAddr s.mx < 0x100000 ∨ 0x180000 ≤ sgAddr s.mx ∧ sgAddr s.mx < 0x18FC00)) ∧
    (∃ (s : State) (_v : Word),
      carried s (sgOff 0x3C) ∧ 0x18FC00 ≤ sgAddr s.mx) ∧
    (∃ (s : State),
      carried s (sgOff 0x3C)) ∧
    (∃ (s : State) (_v : Word),
      carried s (sgOff 0x3C) ∧ 0x100000 ≤ sgAddr s.mx ∧ sgAddr s.mx < 0x180000) ∧
    (∃ (s : State),
      carried s (sgOff 4)) ∧
    (∃ (s : State),
      carried s (sgOff 4)) :=
  ⟨⟨wSgAddr 0x8018FBFC, 0x12345678, by unfold carried; decide +kernel⟩,
   ⟨wSgAddr 0x8018FC00, 0x12345678, by unfold carried; decide +kernel⟩,
   ⟨wSgAddr 0x801FFFFC, by unfold carried; decide +kernel⟩,
   ⟨wSt { (wSgAddr 0x8017FFF0).mx with regs := [(sgOff 0x38, 0x8017FFF0), (sgOff 0x20, 5)], sg := { table := [(0x17FFFC, 1)] } }, 6, by unfold carried; decide +kernel⟩,
   ⟨wSt wMx, by unfold carried; decide +kernel⟩,
   ⟨wSt wMx, by unfold carried; decide +kernel⟩⟩

theorem witness_SeeingLearnsAndSaves_SeeingSave :
    (∃ (s : State) (c : Instr),
      bit (saveLoc s.mx) 31 = true ∧ s.mx.sg.saving = none ∧ nextSave s.mx < 2 ^ 64 ∧ s.mx.md.time < 2 ^ 64 ∧
        s.mx.dm.dose < 2 ^ 64 ∧ (c = .save ∧ carried s (sgOff 4) ∨
      c = .savePeriod ∧ savePer s.mx ≠ 0 ∧ s.mx.sg.savedAt + 3600000000000 * savePer s.mx ≤ s.mx.md.time)) ∧
    (∃ (m : Mx) (w : SysW) (q : Nat) (x : Nat),
      sysW m 9 = some w ∧ m.sg.saving = some q ∧ w.ended = some (0, x) ∧ w.later = true) ∧
    (∃ (m : Mx) (w : SysW) (q : Nat) (x : Nat),
      sysW m 9 = some w ∧ m.sg.saving = some q ∧ w.ended = some (0, x) ∧ w.later = false) ∧
    (∃ (_m : Mx) (a : _),
      a < 0x18FFFC) ∧
    (∃ (s : State) (w : SysW) (x : Nat),
      sysW s.mx 9 = some w ∧ w.ended = some (0, x)) ∧
    (∃ (s : State) (w : SysW) (st : Nat) (x : Nat),
      sysW s.mx 9 = some w ∧ w.ended = some (st, x) ∧ st ≠ 0) ∧
    (∃ (s : State) (_a : Told) (_b : Told),
      (sysW s.mx 9).bind (·.ended) = none) ∧
    (∃ (s : State),
      carried s (sgOff 4) ∧ (bit (saveLoc s.mx) 31 = false ∨ s.mx.sg.saving ≠ none)) ∧
    (∃ (s : State),
      (bit (saveLoc s.mx) 31 = false ∨ s.mx.sg.saving ≠ none ∨ savePer s.mx = 0 ∨
      s.mx.md.time < s.mx.sg.savedAt + 3600000000000 * savePer s.mx)) :=
  ⟨⟨wSt { wMx with regs := [(sgOff 0x40, 0x80010000), (sgOff 0x44, 0x1000), (chOff 0 0x140, 0x190), (chOff 0 0x144, 0x190)], sg := { copyA := { valid := true, seq := 5 } }, md := { time := 86400000000000 } }, .savePeriod, by unfold carried; decide +kernel⟩,
   ⟨{ wMx with sg := { saving := some 6 }, wr := [(9, { die := 0, later := true, ended := some (0, 0) })] }, { die := 0, later := true, ended := some (0, 0) }, 6, 0, by decide +kernel⟩,
   ⟨{ wMx with regs := [(sgOff 0x40, 0x80010000)], sg := { saving := some 6 }, wr := [(9, { die := 0, ended := some (0, 0) })] }, { die := 0, ended := some (0, 0) }, 6, 0, by decide +kernel⟩,
   ⟨{ wMx with sg := { table := [(0, 1), (0x18C803, 5), (0x18FC00, 7), (0x18FFFF, 9)] } }, 0x18C803, by decide +kernel⟩,
   ⟨wSt { wMx with sg := { saving := some 6 }, wr := [(9, { die := 0, later := true, ended := some (0, 0) })] }, { die := 0, later := true, ended := some (0, 0) }, 0, by decide +kernel⟩,
   ⟨wSt { wMx with sg := { saving := some 6, copyA := { valid := true, seq := 5 } }, wr := [(9, { die := 0, ended := some (0x2100, 0xE1) })] }, { die := 0, ended := some (0x2100, 0xE1) }, 0x2100, 0xE1, by decide +kernel⟩,
   ⟨wSt { wMx with sg := { saving := some 6 }, wr := [(9, { die := 0 })] }, .held, .held, by decide +kernel⟩,
   ⟨wSt { wMx with sg := { saving := some 6 } }, by unfold carried; decide +kernel⟩,
   ⟨wSt { wMx with regs := [(sgOff 0x40, 0x80010000)], md := { time := 86399999999999 } }, by decide +kernel⟩⟩

theorem witness_StripeSolveRecovers :
    (∃ (_m : Mx) (j : Job) (slot : Nat) (f : Nat → List Byte),
      (∀ p, (f p).length = 4128) ∧ j.inOpen = none ∧ (∀ p ∈ j.parts, jobGot j p slot = some (f p)) ∧
        jobGot j 62 slot = some (xorAll f (j.pos :: j.parts))) ∧
    (∃ (_m : Mx) (j : Job) (slot : Nat) (y : Nat) (f : Nat → List Byte),
      (∀ p, (f p).length = 4128) ∧ j.inOpen = none ∧ j.pos < 62 ∧ (∀ p ∈ j.parts, p < 62) ∧ j.parts.Nodup ∧
        j.pos ∉ j.parts ∧ y ∈ j.parts ∧ jobGot j y slot = none ∧
        (∀ p ∈ j.parts, p ≠ y → jobGot j p slot = some (f p)) ∧ (y, slot) ∈ j.erased ∧
        jobGot j 62 slot = some (xorAll f (j.pos :: j.parts)) ∧
        jobGot j 63 slot = some (xorAll (fun p => gfScale (gfPow p) (f p)) (j.pos :: j.parts))) :=
  ⟨⟨{}, wJob1, 15, wData, ⟨fun _ => List.length_replicate, rfl, List.forall_mem_singleton.mpr rfl, rfl⟩⟩,
   ⟨{}, wJob2, 15, 61, wData, ⟨fun _ => List.length_replicate, rfl, by decide, by decide, by decide, by decide, by decide, rfl,
      fun p hp hy => by rcases List.mem_cons.mp hp with rfl | h; rfl; exact absurd (List.mem_singleton.mp h) hy, by decide, rfl, rfl⟩⟩⟩

theorem witness_StripeWork :
    (∃ (s : State) (r : Nat) (i : Nat) (sn : Nat) (pos : Nat) (e : Ent),
      r < 264 ∧ i < 131072 ∧ ent s.mx (eidOf r i) = some e ∧ e.stage = .pass ∧ e.stripe = some (sn, pos) ∧
        pos < 62 ∧ (∀ x ∈ s.mx.ents, ∀ f, x.2 = some f → eOpc f ≠ 0x11) ∧ (readPlain (eidOf r i) e s.mx).2.1 = false) ∧
    (∃ (s : State) (r : Nat) (i : Nat) (sn : Nat) (pos : Nat) (e : Ent) (b : List Byte),
      r < 264 ∧ i < 131072 ∧ ent s.mx (eidOf r i) = some e ∧ e.stage = .pass ∧ e.stripe = some (sn, pos) ∧
        pos < 62 ∧ (∀ x ∈ s.mx.ents, ∀ f, x.2 = some f → eOpc f ≠ 0x11) ∧ eNcw e = 1 ∧ eRawMeta e = true ∧
        readsClean s.mx (.entry (eidOf r i)) 10 0 4128 b ∧ b.length = 4128 ∧ (sn, pos, eSlot e 0) ∉ s.mx.st.taken ∧
        (stripe s.mx sn).npar = 2) ∧
    (∃ (s : State) (r : Nat) (i : Nat) (slot : Nat) (cw : Nat) (e : Ent) (j : Job) (d : List Byte),
      r < 264 ∧ i < 131072 ∧ ent s.mx (eidOf r i) = some e ∧ job s.mx (eidOf r i) = some j ∧ eOpc e ≠ 0x12 ∧
        j.slots = [(slot, cw)] ∧ erasures j slot ≤ j.npar ∧ solve s.mx j slot = some d ∧
        (eRawMeta e = true ∨ crc32c (d.take 4096) = leAt d 4120 4) ∧ cw < e.cws.length ∧ e.sent ≠ 0) ∧
    (∃ (s : State) (r : Nat) (i : Nat) (slot : Nat) (cw : Nat) (e : Ent) (j : Job),
      r < 264 ∧ i < 131072 ∧ ent s.mx (eidOf r i) = some e ∧ job s.mx (eidOf r i) = some j ∧ eOpc e ≠ 0x12 ∧
        j.slots = [(slot, cw)] ∧ j.npar < erasures j slot ∧ cw < e.cws.length ∧ e.sent ≠ 0) ∧
    (∃ (s : State) (r : Nat) (i : Nat) (slot : Nat) (cw : Nat) (e : Ent) (j : Job) (d : List Byte),
      r < 264 ∧ i < 131072 ∧ ent s.mx (eidOf r i) = some e ∧ job s.mx (eidOf r i) = some j ∧ eOpc e ≠ 0x12 ∧
        j.slots = [(slot, cw)] ∧ erasures j slot ≤ j.npar ∧ solve s.mx j slot = some d ∧ eRawMeta e = false ∧
        crc32c (d.take 4096) ≠ leAt d 4120 4 ∧ cw < e.cws.length ∧ e.sent ≠ 0) ∧
    (∃ (s : State) (r : Nat) (i : Nat) (slot : Nat) (cw : Nat) (e : Ent) (j : Job),
      ent s.mx (eidOf r i) = some e ∧ job s.mx (eidOf r i) = some j ∧ eOpc e ≠ 0x12 ∧ j.slots = [(slot, cw)] ∧
        erasures j slot ≤ j.npar ∧ solve s.mx j slot = none) ∧
    (∃ (s : State) (r : Nat) (i : Nat) (e : Ent),
      ent s.mx (eidOf r i) = some e ∧ eOpc e = 0x12 ∧ e.stage = .stripeWork ∧
        (walkOf s.mx (eidOf r i)).at_ = .idle ∧ (walkOf s.mx (eidOf r i)).held = true ∧
        portEngOff s.mx (ringPort s.mx (eidRing (eidOf r i))) = false) ∧
    (∃ (s : State) (r : Nat) (i : Nat),
      ((walkOf s.mx (eidOf r i)).at_ ≠ .idle ∨ (walkOf s.mx (eidOf r i)).held = false)) ∧
    (∃ (s : State) (c : Instr),
      jen s.mx = true ∧ s.mx.st.ckpt = none ∧ (c = .chkpt ∧ carried s (stOff 4) ∨
      c = .checkpointPeriod ∧ s.mx.st.changed = true ∧ jper s.mx ≠ 0 ∧
      s.mx.st.ckptAt + 1000000 * jper s.mx ≤ s.mx.md.time)) ∧
    (∃ (s : State) (k : Ckpt) (w : SysW) (jd : Nat) (x : Nat),
      jd < 8 ∧ s.mx.st.ckpt = some k ∧ k.todo = [jd] ∧ k.failed = false ∧ k.final = false ∧ k.skipped = false ∧
        sysW s.mx jd = some w ∧ w.ended = some (0, x) ∧ w.ops = []) ∧
    (∃ (s : State) (k : Ckpt) (w : SysW) (jd : Nat) (st : Nat) (x : Nat),
      jd < 8 ∧ s.mx.st.ckpt = some k ∧ k.todo = [jd] ∧ k.final = false ∧ sysW s.mx jd = some w ∧
        w.ended = some (st, x) ∧ st ≠ 0) ∧
    (∃ (s : State) (jd : Nat),
      (sysW s.mx jd).bind (·.ended) = none) ∧
    (∃ (s : State),
      (s.mx.st.changed = false ∨ jper s.mx = 0 ∨ s.mx.md.time < s.mx.st.ckptAt + 1000000 * jper s.mx ∨
      jen s.mx = false ∨ s.mx.st.ckpt ≠ none)) ∧
    (∃ (s : State),
      carried s (stOff 4) ∧ (jen s.mx = false ∨ s.mx.st.ckpt ≠ none)) :=
  ⟨⟨wPass, 255, 0, 127, 61, wPassE, ⟨by decide, by decide, by decide +kernel, rfl, rfl, by decide, wPassOnly, wPassClean⟩⟩,
   ⟨wPass, 255, 0, 127, 61, wPassE, wZeros 4128, ⟨by decide, by decide, by decide +kernel, rfl, rfl, by decide, wPassOnly, by decide +kernel, by decide +kernel, wReads _ _ _ _ _ _ (by decide +kernel) rfl rfl rfl (by decide +kernel), List.length_replicate, by decide +kernel, by decide +kernel⟩⟩,
   ⟨wJobSt { wCwE with raw := wRaw [(0, 1), (1, 0x10), (6, 1), (0xE, 1), (0x27, 1), (0x34, 0x4000)], sent := 1 } wJob1, 255, 0, 15, 0, { wCwE with raw := wRaw [(0, 1), (1, 0x10), (6, 1), (0xE, 1), (0x27, 1), (0x34, 0x4000)], sent := 1 }, wJob1, xorBytes (xorAll wData [0, 61]) (wData 61), ⟨by decide, by decide, rfl, rfl, by decide +kernel, rfl, by decide, rfl, Or.inl (by decide +kernel), by decide, by decide⟩⟩,
   ⟨wJobSt { wCwE with sent := 1 } { wJob2 with npar := 1 }, 255, 0, 15, 0, { wCwE with sent := 1 }, { wJob2 with npar := 1 }, ⟨by decide, by decide, rfl, rfl, by decide +kernel, rfl, by decide, by decide, by decide⟩⟩,
   ⟨wJobSt { wCwE with raw := wRaw [(0, 1), (6, 1), (0xE, 1), (0x27, 1)], sent := 1 } wJob3, 255, 0, 15, 0, { wCwE with raw := wRaw [(0, 1), (6, 1), (0xE, 1), (0x27, 1)], sent := 1 }, wJob3, [0x33], by decide +kernel⟩,
   ⟨wJobSt { wCwE with sent := 1 } { wJob2 with npar := 2, got := [] }, 255, 0, 15, 0, { wCwE with sent := 1 }, { wJob2 with npar := 2, got := [] }, by decide +kernel⟩,
   ⟨wSt { wMx with ents := [(eidOf 255 0, some wReb)], st := { walk := [(eidOf 255 0, { at_ := .idle, held := true, row := 7 })], stripes := [(127, { state := 1, row := 7, table := [0x8800] })] } }, 255, 0, wReb, by decide +kernel⟩,
   ⟨wSt { wMx with ents := [(eidOf 255 0, some wReb)], st := { walk := [(eidOf 255 0, { at_ := .slots, held := true, row := 7 })] } }, 255, 0, by decide +kernel⟩,
   ⟨wSt { wMx with regs := [(stOff 0, 0x80000064)], st := { changed := true, plates := [(0, {})], jerase := [0] }, md := { time := 100000000 } }, .checkpointPeriod, by unfold carried; decide +kernel⟩,
   ⟨wSt { wMx with st := { ckpt := some { seq := 5, todo := [7], todoB := [6, 7] } }, wr := [(7, { die := 0, ended := some (0, 0) })] }, { seq := 5, todo := [7], todoB := [6, 7] }, { die := 0, ended := some (0, 0) }, 7, 0, by decide +kernel⟩,
   ⟨wSt { wMx with st := { ckpt := some { seq := 5, todo := [7], todoB := [6] } }, wr := [(7, { die := 0, ended := some (0x2100, 0) })] }, { seq := 5, todo := [7], todoB := [6] }, { die := 0, ended := some (0x2100, 0) }, 7, 0x2100, 0, by decide +kernel⟩,
   ⟨wSt { wMx with wr := [(7, { die := 0 })] }, 7, by decide +kernel⟩,
   ⟨wSt { wMx with st := { changed := true } }, by decide +kernel⟩,
   ⟨wSt wMx, by unfold carried; decide +kernel⟩⟩

theorem witness_MeridianNeverDecreases :
    ∃ (s : State) (t : State),
      s.pending.head? ≠ some .vaonRise ∧ step s = .next t :=
  ⟨wSt { md := { hold := true } }, wSt { md := { hold := true } }, ⟨by decide, rfl⟩⟩

theorem witness_MeridianDiscipline :
    (∃ (s : State),
      carried s (mdOff 0x10) ∧ s.mx.md.hold = false ∧ s.mx.md.freq = 0 ∧ s.mx.md.slew = 0 ∧ s.mx.md.slewLeft = 0 ∧
        s.mx.md.frac < 2 ^ 32 ∧ s.mx.tr.holds = [] ∧ s.mx.tr.reqs = []) ∧
    (∃ (s : State),
      carried s (mdOff 0x10)) ∧
    (∃ (s : State),
      s.mx.md.hold = false ∧ s.mx.md.armed = false ∧ s.mx.md.loadDue = false ∧ s.mx.md.time / 1000 ≤ s.mx.tr.slot ∧
        bit (syncCfg s.mx) 31 = true ∧ (syncError s.mx).natAbs ≤ 10 * fld (syncCfg s.mx) 11 0) ∧
    (∃ (s : State),
      s.mx.md.hold = false ∧ s.mx.md.armed = false ∧ s.mx.md.loadDue = false ∧ s.mx.md.time / 1000 ≤ s.mx.tr.slot ∧
        bit (syncCfg s.mx) 31 = true ∧ bit (syncCfg s.mx) 29 = false ∧
        10 * fld (syncCfg s.mx) 11 0 < (syncError s.mx).natAbs) ∧
    (∃ (s : State) (a : Nat) (b : Nat),
      ((s.mx.md.hold = false) ∧ (s.mx.md.armed = false) ∧ (s.mx.md.loadDue = false) ∧ (s.mx.tr.holds = []) ∧
        (s.mx.tr.reqs = []) ∧ (bit (syncCfg s.mx) 31 = true) ∧ (bit (syncCfg s.mx) 29 = true) ∧
        (10 * fld (syncCfg s.mx) 11 0 < (syncError s.mx).natAbs) ∧ (s.mx.md.behind = [a, b]) ∧
        let d := ((-(syncError s.mx)) % (syncPeriod s.mx : Int)).toNat;
      (2 * d ≤ syncPeriod s.mx) ∧ (agree [a, b, d] = true))) ∧
    (∃ (s : State),
      s.mx.md.lock = true) ∧
    (∃ (s : State),
      bit (syncCfg s.mx) 30 = true ∧ s.mx.md.hold = false ∧
        ((s.mx.md.time : Int) - (reg s.mx (mdOff 0x20)).toNat) % (syncPeriod s.mx : Int) < 10) ∧
    (∃ (s : State),
      (bit (syncCfg s.mx) 30 = false ∨ s.mx.md.hold = true ∨
      10 ≤ ((s.mx.md.time : Int) - (reg s.mx (mdOff 0x20)).toNat) % (syncPeriod s.mx : Int))) ∧
    (∃ (s : State),
      carried s (mdOff 0x10) ∧ s.mx.md.hold = true) ∧
    (∃ (s : State),
      s.mx.md.hold = false ∧ s.mx.md.armed = (!s.mx.md.loadDue) ∧ bit (syncCfg s.mx) 31 = false ∧
        s.mx.tr.holds = [] ∧ s.mx.tr.reqs = []) ∧
    (∃ (s : State),
      (s.mx.md.hold = true ∨ s.mx.md.armed = false ∧ s.mx.md.loadDue = false ∧ bit (syncCfg s.mx) 31 = false ∧
      s.mx.md.time / 1000 ≤ s.mx.tr.slot)) ∧
    (∃ (s : State),
      s.mx.md.lock = false) :=
  ⟨⟨wSt { wMx with regs := [(mdOff 8, 10)] }, by unfold carried; decide +kernel⟩,
   ⟨wSt wMx, by unfold carried; decide +kernel⟩,
   ⟨wSt { wMx with regs := [(mdOff 0x18, 0xA0644064)], md := { time := 30, good := 3 } }, by decide +kernel⟩,
   ⟨wSt { wMx with regs := [(mdOff 0x18, 0x80644064)], md := { time := 5000, lock := true }, tr := { slot := 5 } }, by decide +kernel⟩,
   ⟨wSt { wMx with regs := [(mdOff 0x18, 0xA0644064)], md := { time := 999995000, behind := [5000, 5050] } }, 5000, 5050, by decide +kernel⟩,
   ⟨wSt { wMx with md := { lock := true } }, by decide +kernel⟩,
   ⟨wSt { wMx with regs := [(mdOff 0x18, 0x40000000), (mdOff 0x1C, 1000), (mdOff 0x20, 3)], md := { time := 1000012 } }, by decide +kernel⟩,
   ⟨wSt { wMx with regs := [(mdOff 0x18, 0x40000000)], md := { hold := true } }, by decide +kernel⟩,
   ⟨wSt { wMx with md := { hold := true } }, by unfold carried; decide +kernel⟩,
   ⟨wSt { wMx with regs := [(mdOff 8, 10)], md := { armed := true, time := 11 } }, by decide +kernel⟩,
   ⟨wSt wMx, by decide +kernel⟩,
   ⟨wSt { wMx with md := { good := 3 } }, by decide +kernel⟩⟩

theorem witness_SlotsAndTimedLaunches_SlotBoundary :
    (∃ (s : State) (q : TrReq),
      s.mx.md.hold = false ∧ steady s.mx ∧ s.mx.tr.holds = [] ∧ s.mx.tr.reqs = [q] ∧ q.launch = none ∧
        q.bad = none ∧ q.once = false ∧ q.made ≤ s.mx.md.time / 1000 + 1 ∧ mayAdmit s.mx q = true ∧ q.rail < 16 ∧
        (die s.mx q.die).cur = none) ∧
    (∃ (s : State),
      s.mx.md.hold = true ∧ s.mx.tr.holds = [] ∧ s.mx.tr.reqs = []) ∧
    (∃ (s : State),
      (s.mx.md.hold = true ∨ steady s.mx) ∧ s.mx.tr.reqs = []) :=
  ⟨⟨wSt { wMx with tr := { reqs := [wReq] } }, wReq, by unfold steady; decide +kernel⟩,
   ⟨wSt { wMx with md := { hold := true } }, by decide +kernel⟩,
   ⟨wSt { wMx with tr := { holds := [{ die := 0, rail := 15, segs := [(3, 100)], anchor := some 0 }, { die := 1, rail := 15, segs := [(1, 100)], anchor := some 0 }] } }, by unfold steady; decide +kernel⟩⟩

theorem witness_SlotsAndTimedLaunches_TimedLaunchAndTables :
    (∃ (s : State) (c : Nat) (k : Nat) (at_ : Nat),
      c < 128 ∧ k < 16 ∧ (die s.mx (dieOf c k)).frame.launchAt = some at_ ∧ holdsBus s.mx (dieOf c k) = true ∧
        (chan s.mx c).held = false ∧ (cluster s.mx (dieGrp (dieOf c k))).halted = false ∧ s.mx.md.hold = false ∧
        steady s.mx ∧ mwCyc (wordOf s.mx (dieOf c k)) = 1 ∧ s.mx.md.time ≤ at_ ∧
        (at_ + 9) / 1000 = s.mx.md.time / 1000 ∧ holdInstant s.mx (dieOf c k) = some (at_, at_) ∧
        (chan s.mx c).since + 40 ≤ at_) ∧
    (∃ (s : State) (c : Nat) (k : Nat) (at_ : Nat) (l : Nat),
      ((c < 128) ∧ (k < 16) ∧ ((die s.mx (dieOf c k)).frame.launchAt = some at_) ∧
        (holdsBus s.mx (dieOf c k) = true) ∧ ((chan s.mx c).held = false) ∧
        ((cluster s.mx (dieGrp (dieOf c k))).halted = false) ∧ (mwCyc (wordOf s.mx (dieOf c k)) = 1) ∧
        (holdInstant s.mx (dieOf c k) = some (at_, l)) ∧
        let now := if s.mx.md.hold then 1000 * s.mx.tr.slot else s.mx.md.time;
      (at_ ≤ now) ∧ ((s.mx.md.hold = true ∨ at_ ≠ l ∨ at_ < (chan s.mx c).since + 40 ∨ at_ + 20 < now)))) ∧
    (∃ (s : State) (c : Nat) (k : Nat),
      (die s.mx (dieOf c k)).frame.launchAt = none) ∧
    (∃ (s : State) (c : Nat) (k : Nat) (at_ : Nat),
      (((die s.mx (dieOf c k)).frame.launchAt = some at_) ∧
        let now := if s.mx.md.hold then 1000 * s.mx.tr.slot else s.mx.md.time;
      ((now + 1000 < at_ ∨
      at_ ≤ now ∧ (holdsBus s.mx (dieOf c k) = false ∨ (chan s.mx (dieCh (dieOf c k))).held = true ∨
      (cluster s.mx (dieGrp (dieOf c k))).halted = true))))) ∧
    (∃ (s : State),
      carried s (trOff 8)) ∧
    (∃ (s : State) (_v : Word),
      carried s (trOff 0x14)) ∧
    (∃ (s : State),
      carried s (trOff 0x14)) :=
  ⟨⟨wTimed 1000 1989 1989, 127, 15, 1989, by unfold steady; decide +kernel⟩,
   ⟨wTimed 1999 1978 1500, 127, 15, 1978, 1500, by decide +kernel⟩,
   ⟨wSt wMx, 127, 15, by decide +kernel⟩,
   ⟨wSt { (wTimed 1000 1989 1989).mx with md := { time := 988 } }, 127, 15, 1989, by decide +kernel⟩,
   ⟨wSt wMx, by unfold carried; decide +kernel⟩,
   ⟨wSt { wMx with regs := [(trOff 0x10, 0x800003FF)] }, 0x12345678, by unfold carried; decide +kernel⟩,
   ⟨wSt { wMx with regs := [(trOff 0x10, 0x800003FF)] }, by unfold carried; decide +kernel⟩⟩

theorem witness_CheckCodeCorrects :
    (∃ (_d : Byte) (i : Nat),
      i < 8) ∧
    (∃ (_d : Byte) (i : Nat),
      i < 5) ∧
    (∃ (_d : Byte) (i : Nat) (j : Nat),
      i < 13 ∧ j < 13 ∧ i ≠ j) :=
  ⟨⟨0xFF, 7, by decide +kernel⟩,
   ⟨0xFF, 4, by decide +kernel⟩,
   ⟨0xFF, 0, 12, by decide +kernel⟩⟩

theorem witness_StageBufferUpkeep :
    (∃ (s : State),
      leakPer s.mx ≠ 0) ∧
    (∃ (s : State),
      carried s (sbOff 4)) ∧
    (∃ (s : State),
      carried s (sbOff 4)) ∧
    (∃ (s : State),
      carried s (sbOff 4)) ∧
    (∃ (s : State),
      carried s (sbOff 4) ∧ s.mx.sb.scrub = false ∧ s.mx.gl.phase ≠ .bist) ∧
    (∃ (s : State),
      s.mx.gl.phase ≠ .bist ∧ (scrubPeriod s.mx ≠ 0 ∨ s.mx.sb.scrub = true) ∧ scrubLines s.mx = []) ∧
    (∃ (s : State),
      ((s.mx.gl.phase ≠ .bist) ∧ (scrubPeriod s.mx ≠ 0) ∧
        let start := if s.mx.sb.scrub then s.mx.sb.scrubAt else s.mx.sb.scrubAt + 1000000 * scrubPeriod s.mx;
      (start + 2000000 * scrubPeriod s.mx ≤ s.mx.md.time))) ∧
    (∃ (s : State) (b : Nat) (l : Nat),
      b < 64 ∧ l < 8192 ∧ carried s (sbOff 0x34) ∧ tabGet 0 s.mx.sb.spareUse b < 32) ∧
    (∃ (s : State) (b : Nat) (l : Nat),
      b < 64 ∧ l < 8192 ∧ carried s (sbOff 0x34) ∧ 32 ≤ tabGet 0 s.mx.sb.spareUse b) ∧
    (∃ (s : State),
      leakPer s.mx = 0) ∧
    (∃ (s : State),
      (scrubPeriod s.mx = 0 ∧ s.mx.sb.scrub = false ∨ s.mx.gl.phase = .bist)) ∧
    (∃ (s : State),
      carried s (sbOff 4) ∧ (s.mx.sb.scrub = true ∨ s.mx.gl.phase = .bist)) ∧
    (∃ (s : State),
      (s.mx.gl.phase = .bist ∨ scrubPeriod s.mx = 0 ∨
      s.mx.md.time < (if s.mx.sb.scrub then s.mx.sb.scrubAt else s.mx.sb.scrubAt + 1000000 * scrubPeriod s.mx) +
      2000000 * scrubPeriod s.mx)) ∧
    (∃ (s : State) (l : Nat),
      s.mx.gl.phase ≠ .bist ∧ (scrubPeriod s.mx ≠ 0 ∨ s.mx.sb.scrub = true) ∧ scrubLines s.mx = [l] ∧
        (∀ i, i < 128 → (checkByte (stored s.mx (128 * l + i)).1 (stored s.mx (128 * l + i)).2).2 ≠ .uncorrectable)) ∧
    (∃ (cycle : Nat) (l : List (Nat × Nat)),
      cycle % 256 ≠ 255 ∧ l ≠ []) ∧
    (∃ (cycle : Nat) (p : Nat) (n : Nat) (l : List (Nat × Nat)),
      cycle % 256 = 255 ∧ (p, n) ∈ l ∧ p ≤ 5) :=
  ⟨⟨wSt { wMx with sb := { count := 32, alarm := true } }, by decide +kernel⟩,
   ⟨wSt { wMx with sb := { count := 32, alarm := true } }, by unfold carried; decide +kernel⟩,
   ⟨wSt wMx, by unfold carried; decide +kernel⟩,
   ⟨wSt wMx, by unfold carried; decide +kernel⟩,
   ⟨wSt wMx, by unfold carried; decide +kernel⟩,
   ⟨wSt { wMx with sb := { scrub := true, passes := 0xFFF, trk := [(0, { line := 3, hit := true })] } }, by decide +kernel⟩,
   ⟨wSt { wMx with sb := { scrub := false, scrubPos := 7 }, md := { time := 10000000000 } }, by decide +kernel⟩,
   ⟨wSt { wMx with sb := { spareUse := [(63, 31)], allWritten := true, data := [(128 * lineAt 63 8191 + 127, 1)], trk := [(0, { line := lineAt 63 8191 })] } }, 63, 8191, by unfold carried; decide +kernel⟩,
   ⟨wSt { wMx with sb := { spareUse := [(63, 32)] } }, 63, 8191, by unfold carried; decide +kernel⟩,
   ⟨wSt { wMx with regs := [(sbOff 8, 0)] }, by decide +kernel⟩,
   ⟨wSt { wMx with regs := [(sbOff 0x20, 0)] }, by decide +kernel⟩,
   ⟨wSt { wMx with sb := { scrub := true } }, by unfold carried; decide +kernel⟩,
   ⟨wSt { wMx with sb := { scrub := true }, gl := { wMx.gl with phase := .bist }, md := { time := 10000000000 } }, by decide +kernel⟩,
   ⟨wSt { wMx with sb := { scrub := true, allWritten := true, data := [(384, 1)] } }, 3, by decide +kernel⟩,
   ⟨0, [(3, 7), (15, 1), (15, 2)], by decide +kernel⟩,
   ⟨511, 4, 7, [(6, 1), (4, 7), (5, 2)], by decide +kernel⟩⟩

theorem witness_StageBufferUpkeep_ApertureAccess :
    (∃ (s : State) (a : Nat) (_v : Word),
      a < 0x800000 ∧ a % 4 = 0 ∧ carried s (0x800000 + a) ∧ apCheck s.mx = false) ∧
    (∃ (s : State) (a : Nat) (_v : Word),
      a < 0x800000 ∧ a % 4 = 0 ∧ carried s (0x800000 + a) ∧ apCheck s.mx = true) ∧
    (∃ (s : State) (a : Nat),
      a < 0x800000 ∧ a % 4 = 0 ∧ carried s (0x800000 + a) ∧ apCheck s.mx = false ∧
        isWritten s.mx (apByte s.mx a / 128) = true ∧
        (∀ i, i < 4 → (checkByte (stored s.mx (apByte s.mx a + i)).1 (stored s.mx (apByte s.mx a + i)).2).2 = .clean)) ∧
    (∃ (s : State) (a : Nat),
      a < 0x800000 ∧ a % 4 = 0 ∧ carried s (0x800000 + a) ∧ apCheck s.mx = false ∧
        isWritten s.mx (apByte s.mx a / 128) = false) ∧
    (∃ (s : State) (a : Nat),
      a < 0x800000 ∧ a % 4 = 0 ∧ carried s (0x800000 + a) ∧ apCheck s.mx = true) ∧
    (∃ (s : State) (a : Nat),
      a < 0x800000 ∧ a % 4 = 0 ∧ carried s (0x800000 + a) ∧ apCheck s.mx = false ∧
        isWritten s.mx (apByte s.mx a / 128) = true ∧
        (∀ i, i < 4 → (checkByte (stored s.mx (apByte s.mx a + i)).1 (stored s.mx (apByte s.mx a + i)).2).2 ≠ .uncorrectable)) :=
  ⟨⟨wAp 7 false, 0x7FFFFC, 0x12345678, by unfold carried; decide +kernel⟩,
   ⟨wAp 0x80000007 false, 0x7FFFFC, 0x12345678, by unfold carried; decide +kernel⟩,
   ⟨wAp 7 true, 0x7FFFFC, by unfold carried; decide +kernel⟩,
   ⟨wAp 7 false, 0x7FFFFC, by unfold carried; decide +kernel⟩,
   ⟨wAp 0x80000007 true, 0x7FFFFC, by unfold carried; decide +kernel⟩,
   ⟨wSt { (wAp 0 true).mx with sb := { allWritten := true, data := [(1, 1)] } }, 0, by unfold carried; decide +kernel⟩⟩

theorem witness_EnablesAndTargets_EnableAndPendingWords :
    (∃ (s : State) (ww : Nat) (_v : Word),
      ww < 11 ∧ carried s (0x10600 + 4 * ww)) ∧
    (∃ (s : State) (ww : Nat) (_v : Word),
      ww < 11 ∧ carried s (0x10640 + 4 * ww)) ∧
    (∃ (s : State) (ww : Nat) (_v : Word),
      ww < 11 ∧ carried s (0x10680 + 4 * ww)) ∧
    (∃ (s : State) (ww : Nat) (_v : Word),
      ww < 11 ∧ carried s (0x106C0 + 4 * ww)) ∧
    (∃ (s : State) (x : Nat),
      x < 256 ∧ x ∈ s.mx.ic.timer ∧ ctime s.mx x ≠ 0) ∧
    (∃ (s : State) (x : Nat),
      x ∉ s.mx.ic.timer) ∧
    (∃ (_s : State) (ww : Nat) (v : Word) (c : Instr),
      11 ≤ ww ∧ (c = .enSet ww v ∨ c = .enClr ww v ∨ c = .pSet ww v ∨ c = .pClr ww v)) :=
  ⟨⟨wIc { en := [255] }, 8, 0xFFFFFFFF, by unfold carried; decide +kernel⟩,
   ⟨wSt { (wIc { en := [256, 264, 327], tgt := [(31, { req := true, msgOut := true, msgOwed := true })] }).mx with hp := [(0, { waiting := [writeReq .write 0 [] (.message 31)] })] }, 8, 0xFFFFFFFF, by unfold carried; decide +kernel⟩,
   ⟨wIc { en := [255] }, 8, 0xFFFFFFFF, by unfold carried; decide +kernel⟩,
   ⟨wIc { pend := [256, 264, 300] }, 8, 0xFFFFFFFF, by unfold carried; decide +kernel⟩,
   ⟨wIc { timer := [255], held := [(255, 3)] }, 255, by decide +kernel⟩,
   ⟨wIc {}, 255, by decide +kernel⟩,
   ⟨wIc {}, 11, 1, .pClr 11 1, by decide +kernel⟩⟩

theorem witness_ClaimTakesTheHighest :
    (∃ (s : State) (tt : Nat) (x : Nat),
      tt < 32 ∧ carried s (icTgtOff tt 4) ∧ (target s.mx tt).frozen = false ∧ claimTaken s.mx tt x) ∧
    (∃ (s : State) (tt : Nat),
      tt < 32 ∧ carried s (icTgtOff tt 4) ∧ (∀ y ∈ s.mx.ic.pend, claimable s.mx tt y = false)) ∧
    (∃ (s : State) (tt : Nat),
      tt < 32 ∧ carried s (icTgtOff tt 4) ∧ (target s.mx tt).frozen = true ∧ 270 ∈ s.mx.ic.pend ∧
        routed s.mx tt 270 = true) :=
  ⟨⟨wIc { pend := [5, 7], en := [5, 7] }, 31, 7, by unfold claimTaken carried; decide +kernel⟩,
   ⟨wIc { pend := [5, 7] }, 31, by unfold carried; decide +kernel⟩,
   ⟨wIc { pend := [270], en := [270], tgt := [(31, { frozen := true, stkf := true })] }, 31, by unfold carried; decide +kernel⟩⟩

theorem witness_EoiPopsOrFaults :
    (∃ (s : State) (tt : Nat) (x : Nat) (p : Nat) (l : List (Nat × Nat)),
      tt < 32 ∧ x < 512 ∧ carried s (icTgtOff tt 8) ∧ (target s.mx tt).frozen = false ∧
        (target s.mx tt).stack = (x, p) :: l) ∧
    (∃ (s : State) (tt : Nat) (x : Nat),
      tt < 32 ∧ x < 512 ∧ carried s (icTgtOff tt 8) ∧ (target s.mx tt).frozen = false ∧
        (target s.mx tt).stack.head?.map (·.1) ≠ some x) ∧
    (∃ (s : State) (tt : Nat) (x : Nat),
      tt < 32 ∧ x < 512 ∧ carried s (icTgtOff tt 8) ∧ (target s.mx tt).frozen = true) :=
  ⟨⟨wIc { tgt := [(31, { stack := [(7, 3), (5, 2)] })] }, 31, 7, 3, [(5, 2)], by unfold carried; decide +kernel⟩,
   ⟨wIc { tgt := [(31, { stack := [(7, 3), (5, 2)] })] }, 31, 5, by unfold carried; decide +kernel⟩,
   ⟨wIc { tgt := [(31, { stack := [(7, 3)], frozen := true })] }, 31, 7, by unfold carried; decide +kernel⟩⟩

theorem witness_StacksRise :
    (∃ (s : State) (t : State),
      stacksRise s.mx ∧ step s = .next t) ∧
    (∃ (l : _),
      stackRises l) :=
  ⟨⟨wSt { md := { hold := true } }, wSt { md := { hold := true } }, ⟨fun _ => trivial, rfl⟩⟩,
   ⟨[(7, 3), (5, 2)], ⟨by decide, by decide, (by decide : 2 < 16)⟩⟩⟩

theorem witness_EnablesAndTargets_TargetControls :
    (∃ (s : State) (tt : Nat),
      tt < 32 ∧ carried s (icTgtOff tt 0xC)) ∧
    (∃ (s : State) (tt : Nat) (v : Word),
      tt < 32 ∧ carried s (icTgtOff tt 0) ∧ (bit v 31 = compat s.mx tt ∨ (target s.mx tt).stack = [])) ∧
    (∃ (s : State) (tt : Nat) (v : Word),
      tt < 32 ∧ carried s (icTgtOff tt 0) ∧ bit v 31 ≠ compat s.mx tt ∧ (target s.mx tt).stack ≠ []) ∧
    (∃ (s : State) (tt : Nat),
      tt < 32 ∧ (target s.mx tt).msgAns = some none ∧ (target s.mx tt).msgOwed = false) ∧
    (∃ (s : State) (tt : Nat) (c : Cause),
      tt < 32 ∧ (target s.mx tt).msgAns = some (some c) ∧ (port s.mx (fld (tcfg s.mx tt) 29 28)).down = false) ∧
    (∃ (s : State) (tt : Nat),
      tt < 32 ∧ (target s.mx tt).msgAns = some none ∧ (target s.mx tt).msgOwed = true ∧
        (port s.mx (fld (tcfg s.mx tt) 29 28)).down = false) ∧
    (∃ (s : State) (tt : Nat),
      (target s.mx tt).msgAns = none) :=
  ⟨⟨wIc { tgt := [(31, { stack := [(7, 3)], frozen := true })] }, 31, by unfold carried; decide +kernel⟩,
   ⟨wSt { (wIc { tgt := [(31, { stack := [(7, 3)], req := true, msgOut := true, msgOwed := true })] }).mx with hp := [(0, { waiting := [writeReq .write 0 [] (.message 31)] })], regs := [(icTgtOff 31 0, 0xC0000000)] }, 31, 0x80000000, by unfold carried; decide +kernel⟩,
   ⟨wIc { tgt := [(31, { stack := [(7, 3)] })] }, 31, 0x40000000, by unfold carried; decide +kernel⟩,
   ⟨wIc { tgt := [(31, { msgOut := true, msgAns := some none })] }, 31, by decide +kernel⟩,
   ⟨wIc { tgt := [(31, { msgOut := true, msgAns := some (some .timeout) })] }, 31, .timeout, by decide +kernel⟩,
   ⟨wIc { tgt := [(31, { msgOut := true, msgOwed := true, msgAns := some none })] }, 31, by decide +kernel⟩,
   ⟨wIc {}, 31, by decide +kernel⟩⟩

theorem witness_MailboxCommands_MailboxCommandsArrive :
    (∃ (s : State),
      ((carried s (doOff 0x80)) ∧ (s.mx.dm.cmds = []) ∧
        let c : MbCmd := { words := (List.range 16).map (fun j => reg s.mx (doOff (4 * j))) };
      (knownCmd (mbCmd c) = true) ∧ ((s.mx.dm.restarting = false ∨ mbCmd c ≠ 0x21)))) ∧
    (∃ (s : State),
      ((carried s (doOff 0x80)) ∧ (s.mx.dm.cmds = []) ∧
        let c : MbCmd := { words := (List.range 16).map (fun j => reg s.mx (doOff (4 * j))) };
      (knownCmd (mbCmd c) = false) ∧ (domeRuns s.mx = true))) ∧
    (∃ (s : State),
      ((carried s (doOff 0x80)) ∧ (s.mx.dm.cmds = []) ∧
        let c : MbCmd := { words := (List.range 16).map (fun j => reg s.mx (doOff (4 * j))) };
      (s.mx.dm.restarting = true) ∧ (mbCmd c = 0x21))) ∧
    (∃ (s : State),
      carried s (doOff 0x80) ∧ mbBusy s.mx = true) ∧
    (∃ (s : State) (ws : List Word),
      ws.length = 16 ∧ bit (reg s.mx (doOff 0xB8)) 31 = true ∧ s.mx.dm.cmds = [] ∧
        (s.mx.dm.restarting = false ∨ mbCmd { i3c := true, words := ws } ≠ 0x21) ∧
        knownCmd (mbCmd { i3c := true, words := ws }) = true ∧ i3cDenied s.mx { i3c := true, words := ws } = false) ∧
    (∃ (s : State) (ws : List Word),
      ws.length = 16 ∧ bit (reg s.mx (doOff 0xB8)) 31 = true ∧ s.mx.dm.cmds = [] ∧
        (s.mx.dm.restarting = false ∨ mbCmd { i3c := true, words := ws } ≠ 0x21) ∧
        knownCmd (mbCmd { i3c := true, words := ws }) = true ∧ i3cDenied s.mx { i3c := true, words := ws } = true ∧
        domeRuns s.mx = true) ∧
    (∃ (s : State),
      bit (reg s.mx (doOff 0xB8)) 31 = true) ∧
    (∃ (s : State) (c0 : MbCmd) (l : List MbCmd),
      carried s (doOff 0x80) ∧ s.mx.dm.cmds = c0 :: l ∧ mbBusy s.mx = false ∧ knownCmd (mbCmd c0) = true ∧
        i3cDenied s.mx c0 = false ∧ (s.mx.dm.restarting = false ∨ (reg s.mx (doOff 0)).toNat % 65536 ≠ 0x21)) ∧
    (∃ (s : State) (x : I3cMsg),
      (bit (reg s.mx (doOff 0xB8)) 31 = false ∨
      (∃ ws, x = .priv ws) ∧ s.mx.dm.cmds.any (·.i3c) = true)) ∧
    (∃ (s : State) (_a : Nat),
      bit (reg s.mx (doOff 0xB8)) 31 = true) ∧
    (∃ (s : State),
      bit (reg s.mx (doOff 0xB8)) 31 = true) ∧
    (∃ (s : State),
      bit (reg s.mx (doOff 0xB8)) 31 = false) :=
  ⟨⟨wSt { wMx with regs := [(doOff 0, 0x00120001)], dm := { restarting := true } }, by unfold carried; decide +kernel⟩,
   ⟨wSt { wMx with regs := [(doOff 0, 0x0012FFFF)], dm := { boot := 1 } }, by unfold carried; decide +kernel⟩,
   ⟨wSt { wMx with regs := [(doOff 0, 0x00120021)], dm := { restarting := true } }, by unfold carried; decide +kernel⟩,
   ⟨wDm [1] {}, by unfold carried; decide +kernel⟩,
   ⟨wSt { wMx with regs := [(doOff 0xB8, 0x80000000)], dm := { boot := 1 } }, [1] ++ List.replicate 15 0, by decide +kernel⟩,
   ⟨wSt { wMx with regs := [(doOff 0xB8, 0x80000000)], dm := { boot := 1 } }, [0x30] ++ List.replicate 15 0, by decide +kernel⟩,
   ⟨wSt { wMx with regs := [(doOff 0xB8, 0x80000000)], dm := { boot := 1, ibi := true } }, by decide +kernel⟩,
   ⟨wSt { wMx with regs := [(doOff 0, 0x20)], dm := { boot := 1, cmds := [{ i3c := true, words := [1] }] } }, { i3c := true, words := [1] }, [], by unfold carried; decide +kernel⟩,
   ⟨wSt { wMx with dm := { boot := 1 } }, .priv [1], Or.inl (by decide +kernel)⟩,
   ⟨wSt { wMx with regs := [(doOff 0xB8, 0x80000000)], dm := { boot := 1 } }, 0x88, by decide +kernel⟩,
   ⟨wSt { wMx with regs := [(doOff 0xB8, 0x80000000)], dm := { boot := 1, i3cAddr := some 8 } }, by decide +kernel⟩,
   ⟨wSt { wMx with dm := { boot := 1, ibi := true } }, by decide +kernel⟩⟩

theorem witness_MailboxCommands_MailboxCommandsAnswer :
    (∃ (s : State) (c : MbCmd),
      mbReady s.mx c ∧ mbCmd c = 0x01) ∧
    (∃ (s : State) (c : MbCmd),
      mbReady s.mx c ∧ mbCmd c = 0x10 ∧ isSensor (mbWord c 1 % 128) = true) ∧
    (∃ (s : State) (c : MbCmd),
      mbReady s.mx c ∧ mbCmd c = 0x20) ∧
    (∃ (s : State) (c : MbCmd),
      mbReady s.mx c ∧ mbCmd c = 0x21) ∧
    (∃ (s : State) (c : MbCmd),
      mbReady s.mx c ∧ mbCmd c = 0x32 ∧ s.mx.dm.fuseok = true) ∧
    (∃ (s : State) (c : MbCmd),
      mbReady s.mx c ∧ mbCmd c = 0x32 ∧ s.mx.dm.fuseok = false) ∧
    (∃ (s : State) (c : MbCmd),
      mbReady s.mx c ∧ mbCmd c = 0x40 ∧ s.mx.dm.acc = none) ∧
    (∃ (s : State) (c : MbCmd),
      mbReady s.mx c ∧ mbCmd c = 0x10 ∧ isSensor (mbWord c 1 % 128) = false) ∧
    (∃ (s : State) (c : MbCmd) (_b : Told) (a : OwnAcc) (f : Option Cause),
      mbReady s.mx c ∧ mbCmd c = 0x40 ∧ s.mx.dm.acc = some a ∧ a.ended = some f) ∧
    (∃ (s : State) (c : MbCmd) (_b : Told) (a : OwnAcc),
      mbReady s.mx c ∧ mbCmd c = 0x40 ∧ s.mx.dm.acc = some a ∧ a.ended = none) ∧
    (∃ (s : State) (c : MbCmd) (i : Instr),
      s.mx.dm.cmds = [c] ∧ i3cDenied s.mx c = true ∧ domeRuns s.mx = true ∧ s.mx.dm.fuse = none ∧
        s.mx.dm.updOwed = none ∧ s.mx.dm.upd = none ∧ s.mx.dm.acc = none ∧ (mbCmd c = 0x10 ∧
        i = .sensor ∨ mbCmd c = 0x21 ∧ i = .doseAdd ∨ mbCmd c = 0x32 ∧ i = .rbkCommit)) ∧
    (∃ (s : State) (c : MbCmd) (i : Instr),
      s.mx.dm.cmds = [c] ∧ c.i3c = true ∧ domeRuns s.mx = true ∧ s.mx.dm.fuse = none ∧ s.mx.dm.updOwed = none ∧
        (mbCmd c = 0x01 ∧ i = .ident ∨ mbCmd c = 0x20 ∧ i = .doseGet)) ∧
    (∃ (s : State) (n : Nat) (i : Instr) (f : Told) (b : RestartEnv) (u : UpdEnv),
      (n = 0x01 ∧ i = .ident ∨ n = 0x10 ∧ i = .sensor ∨ n = 0x20 ∧ i = .doseGet ∨ n = 0x21 ∧ i = .doseAdd ∨
      n = 0x30 ∧ i = .update u ∨ n = 0x31 ∧ i = .restart b ∨ n = 0x32 ∧ i = .rbkCommit ∨ n = 0x40 ∧
        i = .catalog f) ∧
        (s.mx.dm.cmds.head?.map mbCmd ≠ some n ∨ domeRuns s.mx = false ∨ s.mx.dm.fuse ≠ none ∨ s.mx.dm.updOwed ≠ none)) :=
  ⟨⟨wDm [1] {}, wMb [1], by unfold mbReady; decide +kernel⟩,
   ⟨wDm [0x10, 0x8000001F] { sensors := [(31, { cur := 5, least := 3, most := 9 })] }, wMb [0x10, 0x8000001F], by unfold mbReady; decide +kernel⟩,
   ⟨wDm [0x20] {}, wMb [0x20], by unfold mbReady; decide +kernel⟩,
   ⟨wDm [0x21, 1, 0xFFFFFFFF] { doseF := 0xFFFFFFFF }, wMb [0x21, 1, 0xFFFFFFFF], by unfold mbReady; decide +kernel⟩,
   ⟨wDm [0x32] { fuseok := true, fuses := 1, pkg := some (List.replicate 12 0 ++ [3]) }, wMb [0x32], by unfold mbReady; decide +kernel⟩,
   ⟨wDm [0x32] {}, wMb [0x32], by unfold mbReady; decide +kernel⟩,
   ⟨wSt { (wDm [0x40, 0xFC0, 0, 96] { pkg := some (List.replicate 28 0 ++ [0, 0, 0, 0, 96] ++ List.replicate 200 7) }).mx with hp := [(0, { reqCr := 2, wrCr := 2 })] }, wMb [0x40, 0xFC0, 0, 96], by unfold mbReady; decide +kernel⟩,
   ⟨wDm [0x10, 48] {}, wMb [0x10, 48], by unfold mbReady; decide +kernel⟩,
   ⟨wDm [0x40] { acc := some { port := 0, no := 3, ended := some (some .noTarget) } }, wMb [0x40], .held, { port := 0, no := 3, ended := some (some .noTarget) }, some .noTarget, by unfold mbReady; decide +kernel⟩,
   ⟨wDm [0x40] { acc := some { port := 0, no := 3 } }, wMb [0x40], .held, { port := 0, no := 3 }, by unfold mbReady; decide +kernel⟩,
   ⟨wSt { wMx with dm := { boot := 1, cmds := [{ i3c := true, words := [0x21] }] } }, { i3c := true, words := [0x21] }, .doseAdd, by decide +kernel⟩,
   ⟨wSt { wMx with dm := { boot := 1, cmds := [{ i3c := true, words := [0x20] }] } }, { i3c := true, words := [0x20] }, .doseGet, by decide +kernel⟩,
   ⟨wDm [0x20] {}, 0x21, .doseAdd, .held, {}, {}, ⟨by decide, Or.inl (by decide +kernel)⟩⟩⟩

theorem witness_UpdateFusesAndDose_UpdateAndRestart :
    (∃ (s : State) (c : MbCmd) (_e : UpdEnv),
      mbReady s.mx c ∧ mbCmd c = 0x30 ∧ s.mx.dm.upd = none ∧ s.mx.dm.fuseok = true ∧ slotsNamed s.mx = true ∧
        mbWord c 3 ≤ 1048576 ∧ resvOf s.mx .dome = none) ∧
    (∃ (s : State) (c : MbCmd) (_e : UpdEnv),
      mbReady s.mx c ∧ mbCmd c = 0x30 ∧ s.mx.dm.upd = some .asked ∧ (resvOf s.mx .dome).isSome = true ∧
        0 < mbWord c 3) ∧
    (∃ (s : State) (c : MbCmd) (_e : UpdEnv) (a : OwnAcc) (f : Cause),
      mbReady s.mx c ∧ mbCmd c = 0x30 ∧ s.mx.dm.upd = some .fetching ∧ s.mx.dm.acc = some a ∧ a.ended = some (some f)) ∧
    (∃ (s : State) (c : MbCmd) (_e : UpdEnv) (a : OwnAcc),
      mbReady s.mx c ∧ mbCmd c = 0x30 ∧ s.mx.dm.upd = some .fetching ∧ s.mx.dm.acc = some a ∧ a.ended = some none ∧
        s.mx.gl.phase ≠ .warm ∧ s.mx.gl.pf = .none ∧ sysW s.mx 12 = none) ∧
    (∃ (s : State) (c : MbCmd) (e : UpdEnv) (b : Bool) (p : List Byte) (w : SysW) (x : Nat),
      mbReady s.mx c ∧ mbCmd c = 0x30 ∧ s.mx.dm.upd = some (.writing b p) ∧ sysW s.mx 12 = some w ∧
        w.ended = some (0, x) ∧ e.same = true ∧ ((mbWord c 4).testBit 8 = false ∨ s.mx.mc.todo = [] ∧
        ∀ g, g < 32 → imageFor s.mx p g = none)) ∧
    (∃ (s : State) (c : MbCmd) (_e : UpdEnv) (b : Bool) (p : List Byte) (w : SysW) (x : Nat),
      mbReady s.mx c ∧ mbCmd c = 0x30 ∧ s.mx.dm.upd = some (.writing b p) ∧ sysW s.mx 12 = some w ∧
        w.ended = some (0x2200, x)) ∧
    (∃ (s : State) (c : MbCmd) (e : UpdEnv) (b : Bool) (p : List Byte) (w : SysW) (st : Nat) (x : Nat),
      mbReady s.mx c ∧ mbCmd c = 0x30 ∧ s.mx.dm.upd = some (.writing b p) ∧ sysW s.mx 12 = some w ∧
        w.ended = some (st, x) ∧ st ≠ 0x2200 ∧ (st ≠ 0 ∨ e.same = false)) ∧
    (∃ (s : State) (c : MbCmd) (_e : UpdEnv) (q : Nat) (d : Nat),
      mbReady s.mx c ∧ mbCmd c = 0x30 ∧ s.mx.dm.upd = some (.cut q d)) ∧
    (∃ (s : State) (c : MbCmd) (_e : UpdEnv) (u : UpdAt),
      mbReady s.mx c ∧ mbCmd c = 0x30 ∧ s.mx.dm.upd = some u ∧ (u = .asked ∧
        resvOf s.mx .dome = none ∨ u = .fetching ∧ s.mx.dm.acc.bind (·.ended) = none ∨
      (slotWrite s.mx).isSome = true ∧ (sysW s.mx 12).bind (·.ended) = none)) ∧
    (∃ (s : State) (c : MbCmd) (e : UpdEnv),
      mbReady s.mx c ∧ mbCmd c = 0x30 ∧ s.mx.dm.upd = none ∧ (s.mx.dm.fuseok = false ∧
        e.fuses = [] ∨ s.mx.dm.fuseok = true ∧ (slotsNamed s.mx = false ∨ 1048576 < mbWord c 3))) ∧
    (∃ (s : State) (c : MbCmd) (e : RestartEnv),
      mbReady s.mx c ∧ mbCmd c = 0x31 ∧ e.reads = [] ∧ (∀ r, 256 ≤ r → r < 264 → (ring s.mx r).state = .disabled ∧
        lockedDies s.mx r = []) ∧ sysW s.mx 8 = none ∧ sysW s.mx 12 = none) ∧
    (∃ (s : State) (c : MbCmd) (e : RestartEnv),
      s.mx.dm.cmds = [c] ∧ c.i3c = false ∧ domeRuns s.mx = true ∧ e.runs = true ∧ e.reads = [] ∧
        (∀ r, 256 ≤ r → r < 264 → (ring s.mx r).state = .disabled ∧ lockedDies s.mx r = []) ∧ sysW s.mx 8 = none ∧
        sysW s.mx 12 = none) ∧
    (∃ (s : State) (_e : RestartEnv),
      domeRuns s.mx = false) ∧
    (∃ (s : State) (r : Nat),
      256 ≤ r ∧ r ≤ 258 ∧ 4 ≤ ringSize s.mx r ∧ ringSize s.mx r ≤ 16 ∧ (ring s.mx r).state = .disabled) :=
  ⟨⟨wDm [0x30, 0, 0, 16] { fuseok := true } wUp, wMb [0x30, 0, 0, 16], {}, by unfold mbReady; decide +kernel⟩,
   ⟨wSt { (wDm [0x30, 0xFC0, 0, 300] { upd := some .asked, accNo := 3 }).mx with sb := { resv := [{ owner := .dome, cls := 4, lines := [0, 1, 2] }] }, hp := [(0, { reqCr := 2 })] }, wMb [0x30, 0xFC0, 0, 300], {}, by unfold mbReady; decide +kernel⟩,
   ⟨wSt { (wDm [0x30, 0, 0, 16] { upd := some .fetching, acc := some { port := 0, no := 3, ended := some (some .noTarget) } }).mx with sb := { resv := [{ owner := .dome, cls := 4, lines := [0] }] } }, wMb [0x30, 0, 0, 16], {}, { port := 0, no := 3, ended := some (some .noTarget) }, .noTarget, by unfold mbReady; decide +kernel⟩,
   ⟨wSt { (wDm [0x30, 0, 0, 480] { upd := some .fetching, acc := some { port := 0, no := 3, data := (List.range 480).map (fun i => (i, (wPkg' 6).getD i 0)), ended := some none } }).mx with sb := { resv := [{ owner := .dome, cls := 4, lines := [64, 65, 66, 67] }] } }, wMb [0x30, 0, 0, 480], {}, { port := 0, no := 3, data := (List.range 480).map (fun i => (i, (wPkg' 6).getD i 0)), ended := some none }, by unfold mbReady; decide +kernel⟩,
   ⟨wSt { (wDm [0x30, 0, 0, 480] { upd := some (.writing true (wPkg' 6)) } wUp).mx with sb := { resv := [{ owner := .dome, cls := 4, lines := [64] }] }, wr := [(12, { die := 0, ended := some (0, 5) })] }, wMb [0x30, 0, 0, 480], {}, true, wPkg' 6, { die := 0, ended := some (0, 5) }, 5, by unfold mbReady; decide +kernel⟩,
   ⟨wSt { (wDm [0x30, 0, 0, 480] { upd := some (.writing true (wPkg' 6)) } wUp).mx with sb := { resv := [{ owner := .dome, cls := 4, lines := [64] }] }, wr := [(12, { die := 0, ended := some (0x2200, 0x1E1) })] }, wMb [0x30, 0, 0, 480], {}, true, wPkg' 6, { die := 0, ended := some (0x2200, 0x1E1) }, 0x1E1, by unfold mbReady; decide +kernel⟩,
   ⟨wSt { (wDm [0x30, 0, 0, 480] { upd := some (.writing true (wPkg' 6)) } wUp).mx with sb := { resv := [{ owner := .dome, cls := 4, lines := [64] }] }, wr := [(12, { die := 0, ended := some (0, 5) })] }, wMb [0x30, 0, 0, 480], { same := false }, true, wPkg' 6, { die := 0, ended := some (0, 5) }, 0, 5, by unfold mbReady; decide +kernel⟩,
   ⟨wSt { (wDm [0x30, 0, 0, 480] { upd := some (.cut 6 0x200) } wUp).mx with sb := { resv := [{ owner := .dome, cls := 4, lines := [64] }] } }, wMb [0x30, 0, 0, 480], {}, 6, 0x200, by unfold mbReady; decide +kernel⟩,
   ⟨wDm [0x30, 0, 0, 480] { upd := some .asked } wUp, wMb [0x30, 0, 0, 480], {}, .asked, ⟨by unfold mbReady; decide +kernel, by decide, by decide, Or.inl (by decide +kernel)⟩⟩,
   ⟨wDm [0x30, 0, 0, 16] {} wUp, wMb [0x30, 0, 0, 16], {}, by unfold mbReady; decide +kernel⟩,
   ⟨wDm [0x31] {}, wMb [0x31], {}, ⟨by unfold mbReady; decide +kernel, by decide +kernel, rfl, fun _ _ _ => ⟨rfl, rfl⟩, rfl, rfl⟩⟩,
   ⟨wDm [0x31] {}, wMb [0x31], {}, ⟨by decide +kernel, by decide +kernel, by decide +kernel, rfl, rfl, fun _ _ _ => ⟨rfl, rfl⟩, rfl, rfl⟩⟩,
   ⟨wSt wMx, {}, by decide +kernel⟩,
   ⟨wSt { wMx with regs := [(qeRingOff 258 8, 4)] }, 258, by decide +kernel⟩⟩

theorem witness_UpdateFusesAndDose_FusesMonitorsAndDose :
    (∃ (s : State) (op : FuseOp) (_data : Word),
      s.mx.dm.fuse = some op ∧ op.wr = true) ∧
    (∃ (s : State) (op : FuseOp) (data : Word),
      s.mx.dm.fuse = some op ∧ op.wr = false ∧ op.goal ≠ 0 ∧ data = (fuseWord s.mx.dm.fuses op.word ||| op.data) ∧
        op.word < 3 ∧ 32 * (op.word + 1) < op.goal) ∧
    (∃ (s : State) (op : FuseOp) (c : MbCmd),
      s.mx.dm.fuse = some op ∧ s.mx.dm.cmds = [c] ∧ c.i3c = false) ∧
    (∃ (s : State) (n : Nat) (mv : Int),
      n < 16 ∧ supplyOk s.mx n mv = true) ∧
    (∃ (s : State) (n : Nat) (mv : Int),
      ((n < 16) ∧ (supplyOk s.mx n mv = false) ∧ (domeRuns s.mx = true) ∧ let g := if 5 ≤ n ∧
        n ≤ 12 then (sensor s.mx (32 + n)).turn else 0;
      (g ∈ (sensor s.mx (32 + n)).outs) ∧ (g ∉ (sensor s.mx (32 + n)).warns))) ∧
    (∃ (s : State) (p : Nat) (v : Int),
      p < 64 ∧ domeRuns s.mx = true ∧ pkgPresent s.mx p = true ∧ pkgCalls s.mx p = true ∧
        (4 * (fld (reg s.mx (doOff 0x98)) 7 0 : Int) ≤ v → (sensor s.mx (64 + p)).warned = false)) ∧
    (∃ (s : State) (p : Nat) (v : Option Int),
      p < 64 ∧ domeRuns s.mx = true ∧ pkgPresent s.mx p = true ∧ (v = none ∨ pkgCalls s.mx p = false)) ∧
    (∃ (s : State),
      domeRuns s.mx = true) ∧
    (∃ (s : State) (op : FuseOp) (_data : Word),
      s.mx.dm.fuse = some op ∧ op.wr = false ∧ op.goal = 0 ∧ op.word < 3) ∧
    (∃ (s : State) (op : FuseOp) (c : MbCmd) (_data : Word),
      s.mx.dm.fuse = some op ∧ s.mx.dm.cmds = [c] ∧ c.i3c = false ∧ op.wr = false ∧ op.goal ≠ 0 ∧
        (op.word = 3 ∨ op.goal ≤ 32 * (op.word + 1))) ∧
    (∃ (s : State) (op : FuseOp) (c : MbCmd) (_data : Word),
      s.mx.dm.fuse = some op ∧ s.mx.dm.cmds = [c] ∧ c.i3c = false) ∧
    (∃ (s : State) (data : Word) (err : Bool) (i : Instr),
      s.mx.dm.fuse = none ∧ (i = .fuseAck data err ∨ i = .fuseTmo)) ∧
    (∃ (s : State) (n : Nat) (mv : Int),
      ((n < 16) ∧ (supplyOk s.mx n mv = false) ∧ let g := if 5 ≤ n ∧ n ≤ 12 then (sensor s.mx (32 + n)).turn else 0;
      ((g ∉ (sensor s.mx (32 + n)).outs ∨ g ∈ (sensor s.mx (32 + n)).warns)))) ∧
    (∃ (_s : State) (n : Nat) (_mv : Int),
      16 ≤ n) ∧
    (∃ (s : State) (p : Nat) (_v : Option Int),
      (64 ≤ p ∨ domeRuns s.mx = false ∨ pkgPresent s.mx p = false)) ∧
    (∃ (s : State),
      domeRuns s.mx = false) ∧
    (∃ (ea : Nat) (temp : Int) (x : Nat),
      arrheniusAt ea temp = some x) :=
  ⟨⟨wDm [0x32] { fuse := some { wr := true, word := 3, data := 1, goal := 97 } }, { wr := true, word := 3, data := 1, goal := 97 }, 0, by decide +kernel⟩,
   ⟨wDm [0x32] { fuse := some { wr := false, word := 2, data := 0xFF, goal := 128 } }, { wr := false, word := 2, data := 0xFF, goal := 128 }, 0xFF, by decide +kernel⟩,
   ⟨wDm [0x32] { fuse := some { wr := true, word := 3, data := 1, goal := 97 } }, { wr := true, word := 3, data := 1, goal := 97 }, wMb [0x32], by decide +kernel⟩,
   ⟨wDm [1] { sensors := [(47, { outs := [0], warns := [0] })] }, 15, 772, by decide +kernel⟩,
   ⟨wDm [1] { sensors := [(44, { outs := [3, 1], warns := [1], turn := 3 })] }, 12, 773, by decide +kernel⟩,
   ⟨wSt { (wDm [1] {}).mx with mc := wTemp }, 63, 340, by decide +kernel⟩,
   ⟨wDm [1] {}, 63, some 340, by decide +kernel⟩,
   ⟨wSt { (wDm [1] { doseF := 0xFFFFFFFF, factor := 2 ^ 64, stepped := [5, 3600000000001] } [(doOff 0x90, 1)]).mx with md := { time := 7200000000000 } }, by decide +kernel⟩,
   ⟨wDm [0x32] { fuse := some { wr := false, word := 2 } }, { wr := false, word := 2 }, 5, by decide +kernel⟩,
   ⟨wDm [0x32] { fuse := some { wr := false, word := 0, data := 3, old := 1, goal := 2 }, fuses := 1 }, { wr := false, word := 0, data := 3, old := 1, goal := 2 }, wMb [0x32], 3, by decide +kernel⟩,
   ⟨wDm [0x32] { fuse := some { wr := false, word := 0 }, fuseok := true }, { wr := false, word := 0 }, wMb [0x32], 3, by decide +kernel⟩,
   ⟨wDm [0x32] {}, 3, true, .fuseTmo, by decide +kernel⟩,
   ⟨wDm [1] { sensors := [(44, { outs := [1], warns := [1], turn := 3 })] }, 12, 773, by decide +kernel⟩,
   ⟨wDm [1] {}, 16, 773, by decide +kernel⟩,
   ⟨wDm [1] {}, 64, none, by decide +kernel⟩,
   ⟨wSt wMx, by decide +kernel⟩,
   ⟨110, 340, (arrheniusAt 110 340).getD 0, by decide +kernel⟩⟩

theorem witness_NightLog_RecordsTaken :
    (∃ (s : State) (a : Arrival) (q : List Arrival),
      s.mx.nl.queue = a :: q ∧ s.mx.nl.recs.length < 2039 ∧ a.sev < 4 ∧
        (∀ r, s.mx.nl.recs.getLast? = some r → merges s.mx r a = false)) ∧
    (∃ (s : State) (a : Arrival) (q : List Arrival),
      s.mx.nl.queue = a :: q ∧ s.mx.nl.recs.length < 2039 ∧ 4 ≤ a.sev ∧
        (∀ r, s.mx.nl.recs.getLast? = some r → merges s.mx r a = false)) ∧
    (∃ (s : State) (a : Arrival) (q : List Arrival) (r : NlRec),
      s.mx.nl.queue = a :: q ∧ s.mx.nl.recs.length < 2040 ∧ s.mx.nl.recs.getLast? = some r ∧ merges s.mx r a = true) ∧
    (∃ (s : State),
      carried s (nlOff 0x70) ∧ fld (nlReg s.mx 0x60) 18 16 < 4 ∧ s.mx.nl.queue.length < 256) ∧
    (∃ (s : State),
      carried s (nlOff 0x70) ∧ 4 ≤ fld (nlReg s.mx 0x60) 18 16) ∧
    (∃ (s : State),
      s.mx.nl.queue = []) ∧
    (∃ (s : State) (a : Arrival) (q : List Arrival),
      s.mx.nl.queue = a :: q ∧ s.mx.nl.recs.length = 32768 ∧ s.mx.nl.seg ≠ none ∧ a.sev < 4 ∧
        (∀ r, s.mx.nl.recs.getLast? = some r → merges s.mx r a = false)) :=
  ⟨⟨wNl { queue := [wArr], next := 0xFFFFFFFF }, wArr, [], ⟨by decide, by decide, by decide, fun _ h => by cases h⟩⟩,
   ⟨wNl { queue := [{ wArr with sev := 4 }] }, { wArr with sev := 4 }, [], ⟨by decide, by decide, by decide, fun _ h => by cases h⟩⟩,
   ⟨wNl { queue := [{ wArr with time := 9 }], recs := [{ seq := 7, arr := wArr }] }, { wArr with time := 9 }, [], { seq := 7, arr := wArr }, by decide +kernel⟩,
   ⟨wNl {} [(nlOff 0x60, 0x02030155)], by unfold carried; decide +kernel⟩,
   ⟨wNl {} [(nlOff 0x60, 0x02040155)], by unfold carried; decide +kernel⟩,
   ⟨wNl {}, by decide +kernel⟩,
   ⟨wNl wFull, { wArr with code := 7 }, [], ⟨rfl, List.length_replicate, Option.some_ne_none _, by decide, wFullApart⟩⟩⟩

theorem witness_NightLog_CursorAndPersistence :
    (∃ (s : State) (r : NlRec),
      carried s (nlOff 0x20) ∧ atCursor s.mx = some r) ∧
    (∃ (s : State),
      carried s (nlOff 0x20) ∧ atCursor s.mx = none) ∧
    (∃ (s : State) (q : Nat),
      carried s (nlOff 0x3C) ∧ s.mx.nl.capSeq = some q) ∧
    (∃ (s : State),
      carried s (nlOff 0x3C) ∧ s.mx.nl.capSeq = none) ∧
    (∃ (s : State) (c : Instr),
      domeRuns s.mx = true ∧ logValid s.mx = true ∧ unpersisted s.mx ≠ [] ∧ s.mx.nl.page ≠ 0 ∧
        s.mx.nl.page < ppb s.mx (logDie s.mx false) ∧ s.mx.nl.page < ppb s.mx (logDie s.mx true) ∧ (c = .persist ∧
        carried s (nlOff 0x50) ∨ c = .persistPeriod ∧ fld (nlReg s.mx 0x4C) 15 0 ≠ 0 ∨
      c = .alertPersist ∧ s.mx.nl.alertDue = true)) ∧
    (∃ (s : State) (g : NlSeg) (w : SysW) (x : Nat),
      s.mx.nl.seg = some g ∧ g.copyB = false ∧ sysW s.mx 8 = some w ∧ w.ended = some (0, x)) ∧
    (∃ (s : State) (g : NlSeg) (w : SysW) (x : Nat),
      s.mx.nl.seg = some g ∧ g.copyB = true ∧ s.mx.nl.due = false ∧ s.mx.nl.dropsNew = 0 ∧
        s.mx.nl.recs.length < 2040 ∧ sysW s.mx 8 = some w ∧ w.ended = some (0, x)) ∧
    (∃ (s : State) (g : NlSeg) (w : SysW) (st : Nat) (x : Nat),
      s.mx.nl.seg = some g ∧ s.mx.nl.due = false ∧ s.mx.nl.recs.length < 2040 ∧ sysW s.mx 8 = some w ∧
        w.ended = some (st, x) ∧ st ≠ 0) ∧
    (∃ (s : State) (_a : Told) (_b : Told),
      (s.mx.nl.seg = none ∨ (sysW s.mx 8).bind (·.ended) = none)) ∧
    (∃ (s : State) (c : Instr),
      domeRuns s.mx = true ∧ logValid s.mx = true ∧ unpersisted s.mx ≠ [] ∧ s.mx.nl.seg = none ∧
        (s.mx.nl.page = 0 ∨ ppb s.mx (logDie s.mx false) ≤ s.mx.nl.page ∨ ppb s.mx (logDie s.mx true) ≤ s.mx.nl.page) ∧ (c = .persist ∧ carried s (nlOff 0x50) ∨ c = .persistPeriod ∧ fld (nlReg s.mx 0x4C) 15 0 ≠ 0 ∨
      c = .alertPersist ∧ s.mx.nl.alertDue = true)) ∧
    (∃ (s : State) (c : Instr),
      (c = .persistPeriod ∧
        (domeRuns s.mx = false ∨ logValid s.mx = false ∨ unpersisted s.mx = [] ∨ fld (nlReg s.mx 0x4C) 15 0 = 0) ∨
      c = .alertPersist ∧
        (domeRuns s.mx = false ∨ logValid s.mx = false ∨ unpersisted s.mx = [] ∨ s.mx.nl.alertDue = false))) ∧
    (∃ (s : State),
      carried s (nlOff 0x50) ∧ (domeRuns s.mx = false ∨ logValid s.mx = false ∨ unpersisted s.mx = [])) ∧
    (∃ (l : List SegRead) (g : SegRead),
      newestSeg l = some g) :=
  ⟨⟨wNl { recs := [{ seq := 7, arr := wArr }] } [(nlOff 0x10, 5)], { seq := 7, arr := wArr }, by unfold carried; decide +kernel⟩,
   ⟨wNl { recs := [{ seq := 7, arr := wArr }] } [(nlOff 0x10, 8)], by unfold carried; decide +kernel⟩,
   ⟨wNl { capSeq := some 0xFFFFFFFF }, 0xFFFFFFFF, by unfold carried; decide +kernel⟩,
   ⟨wNl {}, by unfold carried; decide +kernel⟩,
   ⟨wNl { recs := [{ seq := 7, arr := wArr }], page := 3, fresh := (true, true) } wLog, .persistPeriod, by unfold carried; decide +kernel⟩,
   ⟨wNl' { recs := [{ seq := 7, arr := wArr, closed := true }], page := 3, seg := some { sseq := 2, seqs := [7], page := 3 } } 0, { sseq := 2, seqs := [7], page := 3 }, { die := 0, ended := some (0, 0) }, 0, by decide +kernel⟩,
   ⟨wNl' { page := 3, seg := some { sseq := 2, seqs := [7], copyB := true } } 0, { sseq := 2, seqs := [7], copyB := true }, { die := 0, ended := some (0, 0) }, 0, by decide +kernel⟩,
   ⟨wNl' { recs := [{ seq := 7, arr := wArr, closed := true }], page := 3, seg := some { sseq := 2, seqs := [7] } } 0x2100, { sseq := 2, seqs := [7] }, { die := 0, ended := some (0x2100, 0) }, 0x2100, 0, by decide +kernel⟩,
   ⟨wNl {}, .held, .held, by decide +kernel⟩,
   ⟨wNl { recs := [{ seq := 7, arr := wArr }], page := 25 } wLog, .persistPeriod, by unfold carried; decide +kernel⟩,
   ⟨wNl {} wLog, .persistPeriod, by decide +kernel⟩,
   ⟨wNl {}, by unfold carried; decide +kernel⟩,
   ⟨[wSeg], wSeg, by decide +kernel⟩⟩

end Sys2Proof.Tests
end

section
/-! PROOFS. The front command and the queue (log entry 8): what a step does to the commands that wait. -/

namespace Sys2Proof.Machine

/-- Whatever a command does to the complex, it answers a next state and leaves the waiting commands alone. -/
theorem exec_next (c : Instr) (s : State) : ∃ m, exec c s = .next { s with mx := m } := by
  cases c <;> exact ⟨_, rfl⟩

/-- A step answers a next state in which the front command, where one waits, is gone and none has been added. -/
theorem step_next (s : State) : ∃ m, step s = .next { mx := m, pending := s.pending.tail } := by
  obtain ⟨m, q⟩ := s
  cases q with
  | nil => exact ⟨mrefEdge m, rfl⟩
  | cons c cs => exact exec_next c { mx := m, pending := cs }

theorem step_pending {s t : State} (h : step s = .next t) : t.pending = s.pending.tail := by
  obtain ⟨m, hm⟩ := step_next s
  rw [hm] at h
  cases h
  rfl

/-- Settles O6: the queue after a step is the tail of the one before it, and a tail holds nothing new. -/
theorem stepKeepsQueueWellFormed : Obligations.StepKeepsQueueWellFormed := by
  intro s t hwf hstep
  have htail := step_pending hstep
  refine ⟨fun c hc => hwf c ?_, htail⟩
  rw [htail] at hc
  exact List.mem_of_mem_tail hc

end Sys2Proof.Machine
end

section
/-! PROOFS. What a register shows does not depend on the control port's own state (CP_ERR, the word read last and the
captured pairs), so that a read may be judged before or after the access has cleared CP_ERR. -/

namespace Sys2Proof.Machine

variable (m : Mx) (c : Cp)

theorem reg_cp (off : Nat) : reg { m with cp := c } off = reg m off := rfl
theorem cluster_cp (g : Nat) : cluster { m with cp := c } g = cluster m g := rfl
theorem iverOf_cp (g : Nat) : iverOf { m with cp := c } g = iverOf m g := rfl
theorem groupQuiet_cp (g : Nat) : groupQuiet { m with cp := c } g = groupQuiet m g := rfl

theorem glRead_cp (k : Nat) : glRead { m with cp := c } k = glRead m k := rfl
theorem icRead_cp (k : Nat) : icRead { m with cp := c } k = icRead m k := rfl
theorem dxRead_cp (k : Nat) : dxRead { m with cp := c } k = dxRead m k := rfl
theorem sbRead_cp (k : Nat) : sbRead { m with cp := c } k = sbRead m k := rfl
theorem mdRead_cp (k : Nat) : mdRead { m with cp := c } k = mdRead m k := rfl
theorem trRead_cp (k : Nat) : trRead { m with cp := c } k = trRead m k := rfl
theorem stRead_cp (k : Nat) : stRead { m with cp := c } k = stRead m k := rfl
theorem sgRead_cp (k : Nat) : sgRead { m with cp := c } k = sgRead m k := rfl
theorem chRead_cp (k : Nat) : chRead { m with cp := c } k = chRead m k := rfl
theorem phRead_cp (k : Nat) : phRead { m with cp := c } k = phRead m k := rfl
theorem cxRead_cp (k : Nat) : cxRead { m with cp := c } k = cxRead m k := rfl
theorem doRead_cp (k : Nat) : doRead { m with cp := c } k = doRead m k := rfl
theorem nlRead_cp (k : Nat) : nlRead { m with cp := c } k = nlRead m k := rfl
theorem btRead_cp (k : Nat) : btRead { m with cp := c } k = btRead m k := rfl

theorem cptFrom_cp (r n i : Nat) : cptFrom { m with cp := c } r n i = cptFrom m r n i := by
  induction n generalizing i with
  | zero => rfl
  | succ n ih => simp only [cptFrom, ih]; rfl

theorem ringRead_cp (r k : Nat) : ringRead { m with cp := c } r k = ringRead m r k := by
  have hcpt : cptAt { m with cp := c } r = cptAt m r := cptFrom_cp m c r _ _
  unfold ringRead
  rw [hcpt]
  rfl

theorem qeRead_cp (k : Nat) : qeRead { m with cp := c } k = qeRead m k := by
  unfold qeRead
  rw [ringRead_cp]
  rfl

/-- The parts are rewritten one by one: comparing the two reads as wholes has the kernel count down from the window's
offset. -/
theorem mcRead_cp (k : Nat) : mcRead { m with cp := c } k = mcRead m k := by
  unfold mcRead
  dsimp only
  rw [reg_cp m c, reg_cp m c, reg_cp m c, groupQuiet_cp m c, iverOf_cp m c, cluster_cp m c]

/-- 02_boundary.md R62: CP_ERR, the word read last and the captured pairs are no part of what a register shows. -/
theorem regRead_cp (off : Nat) : regRead { m with cp := c } off = regRead m off := by
  unfold regRead
  simp only [glRead_cp m c, icRead_cp m c, qeRead_cp m c, dxRead_cp m c, sbRead_cp m c, mdRead_cp m c, trRead_cp m c,
    stRead_cp m c, sgRead_cp m c, chRead_cp m c, phRead_cp m c, cxRead_cp m c, doRead_cp m c, nlRead_cp m c,
    btRead_cp m c, mcRead_cp m c]

end Sys2Proof.Machine
end

section
/-! PROOFS. Register accesses by the two general commands: a write that is carried out, a read that is, RW and RWL
registers, and 64-bit pairs (00_scope.md R14 to R16; 02_boundary.md R62, R66; 16_register_index.md R560). -/

namespace Sys2Proof.Machine

/-! ## The commands -/

/-- A write by host firmware that R66 does not refuse does its register's work with CP_ERR low. -/
theorem exec_hostWrite {s : State} {off : Nat} (v : Word) (hlt : off < 2 ^ 24) (h : carried s off) :
    exec (.controlPortWrite .host off 15 v) s = .next { s with mx := regWrite .host off v (cpOk s.mx) } := by
  have hon : decide (off < 0x1000000) = true := decide_eq_true hlt
  calc exec (.controlPortWrite .host off 15 v) s
      = act s (onlyIf (decide (off < 0x1000000)) (access off true (regWrite .host off v))) := rfl
    _ = act s (access off true (regWrite .host off v)) := by rw [hon]; rfl
    _ = _ := act_access s off true _ h

/-- 15_startup_reset_power.md R557: a write by Dome takes its internal path, which no access check and no lock closes. -/
theorem exec_domeWrite (s : State) {off : Nat} (be : Nat) (v : Word) (hlt : off < 2 ^ 24) :
    exec (.controlPortWrite .dome off be v) s = .next { s with mx := unlocked (regWrite .dome off v) s.mx } := by
  have hon : decide (off < 0x1000000) = true := decide_eq_true hlt
  calc exec (.controlPortWrite .dome off be v) s
      = act s (onlyIf (decide (off < 0x1000000)) (unlocked (regWrite .dome off v))) := rfl
    _ = _ := by rw [hon]; rfl

/-- A read that R66 does not refuse is the read of its register with CP_ERR low. -/
theorem exec_read {s : State} {off : Nat} (hlt : off < 2 ^ 24) (h : carried s off) :
    exec (.loRegisterRead { addr := off }) s = .next { s with mx := portRead off (cpOk s.mx) } := by
  have hon : decide (off < 0x1000000) = true := decide_eq_true hlt
  calc exec (.loRegisterRead { addr := off }) s
      = act s (onlyIf (decide (off < 0x1000000)) (access off false (portRead off))) := rfl
    _ = act s (access off false (portRead off)) := by rw [hon]; rfl
    _ = _ := act_access s off false _ h

/-! ## RW and RWL registers (R15, R16) -/

/-- GL_CFGADDR_LO is RW. -/
theorem regWrite_cfgAddrLo (a : Agent) (v : Word) (m : Mx) : regWrite a 0x3C v m = setReg m 0x3C v := rfl

/-- GL_CHEN0 is RWL in every bit. -/
theorem regWrite_chEn (a : Agent) (v : Word) (m : Mx) : regWrite a 0x20 v m = maskedWrite 0x20 0 0xFFFFFFFF v m := rfl

theorem and_allOnes32 (v : Word) : v &&& 4294967295#32 = v := BitVec.and_allOnes

/-- With GL_LOCK open an RWL register takes what is written. -/
theorem maskedWrite_rwl_open {m : Mx} (off : Nat) (v : Word) (h : m.gl.lockClosed = false) :
    maskedWrite off 0 0xFFFFFFFF v m = setReg m off v := by
  simp [maskedWrite, h, and_allOnes32]

/-- With GL_LOCK closed an RWL register keeps its value; a write that would have changed it also leaves a record. -/
theorem maskedWrite_rwl_closed {m : Mx} (off : Nat) (v : Word) (h : m.gl.lockClosed = true) :
    maskedWrite off 0 0xFFFFFFFF v m =
      if v = reg m off then setReg m off (reg m off) else log (setReg m off (reg m off)) .rwlRefused off := by
  by_cases hv : v = reg m off <;> simp [maskedWrite, h, and_allOnes32, hv]

theorem reg_setReg_self (m : Mx) (off o : Nat) : reg (setReg m off (reg m off)) o = reg m o := by
  by_cases h : off = o
  · subst h; exact reg_setReg m off _
  · exact reg_setReg_ne m off o _ h

theorem reg_log (m : Mx) (k : RecKind) (x y z off : Nat) : reg (log m k x y z) off = reg m off := by
  simp [reg]

/-- 15_startup_reset_power.md R557: work that leaves GL alone leaves GL_LOCK as it stood, on the internal path too. -/
theorem unlocked_setReg {m : Mx} {f : Mx → Mx} (off : Nat) (v : Word)
    (hf : ∀ x : Mx, x.gl.lockClosed = false → f x = setReg x off v) : unlocked f m = setReg m off v := by
  simp [unlocked, hf, setReg, setGl]

/-! ## Reads with no further effect, and pairs (R14, R560) -/

/-- The offsets of _LO registers, as propositions. -/
theorem isLo_iff (off : Nat) : isLo off = true ↔
    off ∈ [0x3C, 0x80000, 0x80008, 0xC0010, 0xC0034, 0xE0030, 0x5000AC] ∨
    (0x11000 ≤ off ∧ off < 0x11800 ∧ off % 0x40 = 0x1C) ∨ (0x20000 ≤ off ∧ off < 0x24200 ∧ off % 0x40 = 0) ∨
    (0x28000 ≤ off ∧ off < 0x28420 ∧ off % 0x20 = 0) ∨
    (0xC1000 ≤ off ∧ off < 0xC3000 ∧ 8 ≤ off % 0x40 ∧ off % 0x40 < 0x30 ∧ off % 8 = 0) := by
  simp [isLo, or_assoc, and_assoc]

/-- No _HI register is the _LO register of another pair. -/
theorem isLo_hi {off : Nat} (h : isLo off = true) : isLo (off + 4) = false := by
  rw [← Bool.not_eq_true]
  simp only [isLo_iff, List.mem_cons, List.not_mem_nil, or_false] at h ⊢
  omega

/-- A read that R560 gives no further effect is that of a pair's word or of a register alone. -/
theorem portRead_eq_pairRead {off : Nat} (m : Mx) (hlt : off < 0x800000)
    (hne : off ∉ [sgOff 0x3C, trOff 0x14, 0x600004, nlOff 0x20, nlOff 0x3C])
    (hclaim : off < 0x11000 ∨ 0x11800 ≤ off ∨ off % 0x40 ≠ 4) : portRead off m = pairRead off m := by
  simp only [List.mem_cons, List.not_mem_nil, or_false, not_or] at hne
  obtain ⟨hsg, htr, hmc, hrec0, hrec7⟩ := hne
  have hnc : ¬(0x11000 ≤ off ∧ off < 0x11800 ∧ off % 0x40 = 4) := by omega
  unfold portRead
  rw [if_neg (Nat.not_le.mpr hlt), if_neg hsg, if_neg htr, if_neg hmc, if_neg hrec0, if_neg hrec7, if_neg hnc]

/-- R560 names neither word of a pair. -/
theorem portRead_pair {off k : Nat} (m : Mx) (h : isLo off = true) (hk : k = 0 ∨ k = 4) :
    portRead (off + k) m = pairRead (off + k) m := by
  simp only [isLo_iff, List.mem_cons, List.not_mem_nil, or_false] at h
  apply portRead_eq_pairRead
  · omega
  · simp only [sgOff, trOff, nlOff, List.mem_cons, List.not_mem_nil, or_false]
    omega
  · omega

theorem portRead_lo {off : Nat} (m : Mx) (h : isLo off = true) : portRead off m =
    answer { m with cp := { m.cp with loCap := tabSet m.cp.loCap off (regRead m (off + 4)) } } (regRead m off) := by
  rw [show off = off + 0 from rfl, portRead_pair m h (.inl rfl)]
  simp [pairRead, h]

theorem portRead_hi {off : Nat} {w : Word} (m : Mx) (h : isLo off = true)
    (hcap : m.cp.loCap.find? (fun x => x.1 == off) = some (off, w)) : portRead (off + 4) m =
      answer { m with cp := { m.cp with loCap := m.cp.loCap.filter (fun y => y.1 != off) } } w := by
  rw [portRead_pair m h (.inr rfl)]
  simp [pairRead, isLo_hi h, h, hcap]

theorem pairRead_single {off : Nat} (m : Mx) (hlo : isLo off = false) (hhi : 4 ≤ off → isLo (off - 4) = false) :
    pairRead off m = answer m (regRead m off) := by
  have hne : ¬(4 ≤ off ∧ isLo (off - 4) = true) := fun ⟨h4, h⟩ => by simp [hhi h4] at h
  simp [pairRead, hlo, hne]

theorem find?_filter_ne_key (t : Tab Word) (off : Nat) :
    (t.filter (fun y => y.1 != off)).find? (fun x => x.1 == off) = none := by
  simp

/-! ## What an access keeps -/

theorem keepsBut_mono {k l : List Area} {s t : State} (h : keepsBut l s t) (hl : l ⊆ k) : keepsBut k s t :=
  ⟨h.1, fun p hp => keepsBut_same h p fun hm => hp (hl hm)⟩

theorem keepsBut_trans {k l l' : List Area} {s t u : State} (h : keepsBut l s t) (h' : keepsBut l' t u) (hl : l ⊆ k)
    (hl' : l' ⊆ k) : keepsBut k s u := by
  refine ⟨h'.1.trans h.1, fun p hp => ?_⟩
  have hst := keepsBut_same h p fun hm => hp (hl hm)
  have htu := keepsBut_same h' p fun hm => hp (hl' hm)
  cases p <;> exact Eq.trans htu hst

theorem keepsBut_cp (s : State) (c : Cp) : keepsBut [.cp] s { s with mx := { s.mx with cp := c } } :=
  ⟨rfl, fun p hp => by cases p <;> simp [Area.same] at hp ⊢⟩

theorem keepsBut_setReg (s : State) (off : Nat) (v : Word) : keepsBut [.regs] s { s with mx := setReg s.mx off v } :=
  ⟨rfl, fun p hp => by cases p <;> simp [Area.same] at hp ⊢⟩

theorem keepsBut_log (s : State) (k : RecKind) (x y z : Nat) : keepsBut [.nl] s { s with mx := log s.mx k x y z } :=
  ⟨rfl, fun p hp => by cases p <;> simp [Area.same] at hp ⊢⟩

/-- The control port clears CP_ERR and a register's word is set. -/
theorem keepsBut_hostSetReg (s : State) (off : Nat) (v : Word) :
    keepsBut [.regs, .cp] s { s with mx := setReg (cpOk s.mx) off v } :=
  keepsBut_trans (t := { s with mx := cpOk s.mx }) (keepsBut_cp s _) (keepsBut_setReg _ off v) (by simp) (by simp)

/-! ## The clauses of O19 -/

/-- A write that is carried out and has no effect but to set its register. -/
theorem hostWrite_sets {s : State} {off : Nat} {v : Word} (hlt : off < 2 ^ 24) (h : carried s off)
    (hw : regWrite .host off v (cpOk s.mx) = setReg (cpOk s.mx) off v) :
    ∃ t, exec (.controlPortWrite .host off 15 v) s = .next t ∧ t.mx.cp = { s.mx.cp with err := false } ∧
      reg t.mx off = v ∧ (∀ o, o ≠ off → reg t.mx o = reg s.mx o) ∧ keepsBut [.regs, .cp] s t := by
  refine ⟨_, exec_hostWrite v hlt h, ?_⟩
  rw [hw]
  exact ⟨rfl, reg_setReg _ off v, fun o ho => reg_setReg_ne (cpOk s.mx) off o v ho.symm, keepsBut_hostSetReg s off v⟩

/-- R16: GL_CHEN0 keeps its value while GL_LOCK is closed, without an error on the control port. -/
theorem hostWrite_chEn_closed {s : State} (v : Word) (h : carried s 0x20) (hlock : s.mx.gl.lockClosed = true) :
    ∃ t, exec (.controlPortWrite .host 0x20 15 v) s = .next t ∧ t.mx.cp.err = false ∧
      (∀ o, reg t.mx o = reg s.mx o) ∧ keepsBut [.regs, .cp, .nl] s t := by
  refine ⟨_, exec_hostWrite v (by decide) h, ?_⟩
  rw [regWrite_chEn, maskedWrite_rwl_closed 0x20 v (m := cpOk s.mx) hlock]
  have hreg (o : Nat) : reg (setReg (cpOk s.mx) 0x20 (reg (cpOk s.mx) 0x20)) o = reg s.mx o :=
    reg_setReg_self (cpOk s.mx) 0x20 o
  have hkeep := keepsBut_hostSetReg s 0x20 (reg (cpOk s.mx) 0x20)
  by_cases hv : v = reg (cpOk s.mx) 0x20
  · rw [if_pos hv]
    exact ⟨rfl, hreg, keepsBut_mono hkeep (by simp)⟩
  · rw [if_neg hv]
    exact ⟨by rw [log_cp]; rfl, fun o => (reg_log _ _ _ _ _ o).trans (hreg o),
      keepsBut_trans hkeep (keepsBut_log _ _ _ _ _) (by simp) (by simp)⟩

/-- R14: the read of a _LO register captures its _HI register. -/
theorem read_lo {s : State} {off : Nat} (hlt : off < 2 ^ 24) (h : carried s off) (hlo : isLo off = true) :
    ∃ t, exec (.loRegisterRead { addr := off }) s = .next t ∧ t.mx.cp.rdata = regRead s.mx off ∧ t.mx.cp.err = false ∧
      tabGet 0 t.mx.cp.loCap off = regRead s.mx (off + 4) ∧ keepsBut [.cp] s t := by
  refine ⟨_, exec_read hlt h, ?_⟩
  rw [portRead_lo _ hlo]
  exact ⟨regRead_cp s.mx _ off, rfl, (tabGet_tabSet_same 0 _ off _).trans (regRead_cp s.mx _ (off + 4)), keepsBut_cp s _⟩

/-- R14: the read of a _HI register returns what was captured, once. -/
theorem read_hi {s : State} {off : Nat} {w : Word} (hlt : off + 4 < 2 ^ 24) (h : carried s (off + 4))
    (hlo : isLo off = true) (hcap : s.mx.cp.loCap.find? (fun x => x.1 == off) = some (off, w)) :
    ∃ t, exec (.loRegisterRead { addr := off + 4 }) s = .next t ∧ t.mx.cp.rdata = w ∧ t.mx.cp.err = false ∧
      t.mx.cp.loCap.find? (fun x => x.1 == off) = none ∧ keepsBut [.cp] s t := by
  refine ⟨_, exec_read hlt h, ?_⟩
  rw [portRead_hi (cpOk s.mx) hlo hcap]
  exact ⟨rfl, rfl, find?_filter_ne_key _ off, keepsBut_cp s _⟩

/-- 15_startup_reset_power.md R557: Dome's write of GL_CHEN0 is not subject to GL_LOCK. -/
theorem domeWrite_chEn (s : State) (v : Word) (be : Nat) :
    ∃ t, exec (.controlPortWrite .dome 0x20 be v) s = .next t ∧ reg t.mx 0x20 = v ∧
      (∀ o, o ≠ 0x20 → reg t.mx o = reg s.mx o) ∧ keepsBut [.regs] s t := by
  refine ⟨_, exec_domeWrite s be v (by decide), ?_⟩
  rw [unlocked_setReg 0x20 v fun x hx => (regWrite_chEn .dome v x).trans (maskedWrite_rwl_open 0x20 v hx)]
  exact ⟨reg_setReg _ 0x20 v, fun o ho => reg_setReg_ne s.mx 0x20 o v ho.symm, keepsBut_setReg s 0x20 v⟩

/-- R560: a read that has no effect of its own answers the register's value. -/
theorem read_single {s : State} {off : Nat} (hlt : off < 0x800000) (h : carried s off) (hlo : isLo off = false)
    (hhi : 4 ≤ off → isLo (off - 4) = false) (hne : off ∉ [sgOff 0x3C, trOff 0x14, 0x600004, nlOff 0x20, nlOff 0x3C])
    (hclaim : off < 0x11000 ∨ 0x11800 ≤ off ∨ off % 0x40 ≠ 4) : exec (.loRegisterRead { addr := off }) s =
      .next { s with mx := { s.mx with cp := { s.mx.cp with rdata := regRead s.mx off, err := false } } } := by
  rw [exec_read (by omega) h, portRead_eq_pairRead _ hlt hne hclaim, pairRead_single _ hlo hhi,
    show regRead (cpOk s.mx) off = regRead s.mx off from regRead_cp s.mx _ off]
  rfl

/-- Settles O19: one lemma for each kind of access; GL_CFGADDR_LO and GL_CHEN0 share the rule of a write that sets its
register. -/
theorem registerAccess : Obligations.RegisterAccess := by
  refine ⟨fun s v h => ?rw, fun s v h hlock => ?rwlOpen, fun s v h hlock => hostWrite_chEn_closed v h hlock,
    fun s off hlt h hlo => read_lo hlt h hlo, fun s off w hlt h hlo hcap => read_hi hlt h hlo hcap,
    domeWrite_chEn, fun s off hlt h hlo hhi hne hclaim => read_single hlt h hlo hhi hne hclaim⟩
  case rw => exact hostWrite_sets (by decide) h (regWrite_cfgAddrLo .host v _)
  case rwlOpen => exact hostWrite_sets (by decide) h ((regWrite_chEn .host v _).trans (maskedWrite_rwl_open 0x20 v hlock))

end Sys2Proof.Machine
end

section
/-! PROOFS. What single updates keep of a state, and what a raised source with its record keeps. -/

namespace Sys2Proof.Machine

variable (s : State)

theorem keepsBut_refl (l : List Area) : keepsBut l s s := ⟨rfl, fun p _ => by cases p <;> rfl⟩

theorem keepsBut_gl (g : Gl) : keepsBut [.gl] s { s with mx := setGl s.mx g } :=
  ⟨rfl, fun p hp => by cases p <;> simp [Area.same] at hp ⊢⟩

theorem keepsBut_md (d : Md) : keepsBut [.md] s { s with mx := { s.mx with md := d } } :=
  ⟨rfl, fun p hp => by cases p <;> simp [Area.same] at hp ⊢⟩

theorem keepsBut_tr (r : Tr) : keepsBut [.tr] s { s with mx := { s.mx with tr := r } } :=
  ⟨rfl, fun p hp => by cases p <;> simp [Area.same] at hp ⊢⟩

theorem keepsBut_setDome (d : Dome) : keepsBut [.dm] s { s with mx := setDome s.mx d } :=
  ⟨rfl, fun p hp => by cases p <;> simp [Area.same] at hp ⊢⟩

theorem keepsBut_raise (k : Nat) : keepsBut onRaise s { s with mx := raise s.mx k } :=
  ⟨rfl, fun p hp => by cases p <;> simp [Area.same, onRaise] at hp ⊢⟩

end Sys2Proof.Machine
end

section
/-! PROOFS. The loss and the return of a monitored clock (01_architecture.md R25; 11_meridian_transit.md R420, R422). -/

namespace Sys2Proof.Machine

/-! ## A clock is lost -/

/-- R25: the clock is noted as lost, with its record and its event, before what it ran stops. -/
def clockAlarm (c : Clock) (m : Mx) : Mx :=
  raise (log (setGl m { m.gl with lost := m.gl.lost ++ [c] }) .clkLoss (clockCode c)) 266

/-- The loss of a clock that no power state has permitted to stop. -/
theorem exec_clkLoss {s : State} {c : Clock} (hc : isClock c = true) (hnew : c ∉ s.mx.gl.lost)
    (hstop : mayStop s.mx.gl.pstate c = false) :
    exec (.clkLoss c) s = .next { s with mx := clockEffect c (clockAlarm c s.mx) } := by
  have hlost : clockLost c s.mx = clockEffect c (clockAlarm c s.mx) := by
    simp [clockLost, hnew, hstop, setGl, clockAlarm]
  calc exec (.clkLoss c) s = act s (onlyIf (isClock c) (clockLost c)) := rfl
    _ = _ := by rw [hc, act, onlyIf_true, hlost]

/-- A clock that is lost already: nothing more happens. -/
theorem exec_clkLoss_again {s : State} {c : Clock} (h : c ∈ s.mx.gl.lost) : exec (.clkLoss c) s = .next s := by
  have hlost : clockLost c s.mx = s.mx := by simp [clockLost, h]
  calc exec (.clkLoss c) s = act s (onlyIf (isClock c) (clockLost c)) := rfl
    _ = .next s := by cases hc : isClock c <;> simp [act, hlost]

variable (c : Clock)

@[simp] theorem clockAlarm_gl (m : Mx) : (clockAlarm c m).gl = { m.gl with lost := m.gl.lost ++ [c] } := by
  simp [clockAlarm, setGl]

@[simp] theorem clockAlarm_md (m : Mx) : (clockAlarm c m).md = m.md := by simp [clockAlarm]

@[simp] theorem clockAlarm_dm (m : Mx) : (clockAlarm c m).dm = m.dm := by simp [clockAlarm]

/-- CLK_LOSS is pending. -/
theorem mem_clockAlarm_pend (m : Mx) : 266 ∈ (clockAlarm c m).ic.pend := mem_raise _ _

theorem keepsBut_clockAlarm (s : State) : keepsBut (.gl :: onRaise) s { s with mx := clockAlarm c s.mx } :=
  keepsBut_trans (keepsBut_trans (k := .gl :: onRaise) (keepsBut_gl s _) (keepsBut_log _ _ _ _ _) (by simp) (by simp [onRaise]))
    (keepsBut_raise _ 266) (by simp) (by simp)

/-- R25, R420: with MREF, Meridian holds its value. -/
theorem clkLoss_mref {s : State} (h : Clock.mref ∉ s.mx.gl.lost) :
    ∃ t, exec (.clkLoss .mref) s = .next t ∧ t.mx.md.hold = true ∧ t.mx.md.time = s.mx.md.time ∧
      t.mx.gl.lost = s.mx.gl.lost ++ [.mref] ∧ 266 ∈ t.mx.ic.pend ∧ keepsBut (.gl :: .md :: onRaise) s t := by
  refine ⟨_, exec_clkLoss rfl h rfl, rfl, ?_, ?_, mem_clockAlarm_pend .mref s.mx, ?_⟩
  · simp [clockEffect]
  · simp [clockEffect]
  · exact keepsBut_trans (keepsBut_clockAlarm .mref s) (keepsBut_md _ _) (by simp) (by simp)

/-- R25: with MCLK, Dome stands still. -/
theorem clkLoss_mclk {s : State} (h : Clock.mclk ∉ s.mx.gl.lost) (hp : s.mx.gl.pstate ≠ 3) :
    ∃ t, exec (.clkLoss .mclk) s = .next t ∧ t.mx.dm = { s.mx.dm with mclkLost := true } ∧
      t.mx.gl.lost = s.mx.gl.lost ++ [.mclk] ∧ 266 ∈ t.mx.ic.pend ∧ keepsBut (.gl :: .dm :: onRaise) s t := by
  refine ⟨_, exec_clkLoss rfl h (by simp [mayStop, hp]), ?_, ?_, mem_clockAlarm_pend .mclk s.mx, ?_⟩
  · simp [clockEffect, setDome]
  · simp [clockEffect]
  · exact keepsBut_trans (keepsBut_clockAlarm .mclk s) (keepsBut_setDome _ _) (by simp) (by simp)

/-- R25: HCLK and CPCLK are only noted as lost. -/
theorem clkLoss_noted {s : State} {c : Clock} (hc : c = .hclk ∨ c = .cpclk) (h : c ∉ s.mx.gl.lost)
    (hp : c = .hclk → s.mx.gl.pstate = 0) :
    ∃ t, exec (.clkLoss c) s = .next t ∧ t.mx.gl = { s.mx.gl with lost := s.mx.gl.lost ++ [c] } ∧ 266 ∈ t.mx.ic.pend ∧
      keepsBut (.gl :: onRaise) s t := by
  have heffect (m : Mx) : clockEffect c m = m := by rcases hc with rfl | rfl <;> rfl
  have hstop : mayStop s.mx.gl.pstate c = false := by
    rcases hc with rfl | rfl
    · simp [mayStop, hp rfl]
    · rfl
  refine ⟨_, exec_clkLoss (by rcases hc with rfl | rfl <;> rfl) h hstop, ?_⟩
  rw [heffect]
  exact ⟨clockAlarm_gl c s.mx, mem_clockAlarm_pend c s.mx, keepsBut_clockAlarm c s⟩

/-! ## A clock is back -/

/-- HCLK or CPCLK runs again. -/
theorem exec_clockReturn {s : State} {c : Clock} (hc : c = .hclk ∨ c = .cpclk) (h : c ∈ s.mx.gl.lost) :
    exec (.clockReturn c) s =
      .next { s with mx := setGl s.mx { s.mx.gl with lost := s.mx.gl.lost.filter (fun x => x != c) } } := by
  have hback : clockBack c s.mx = setGl s.mx { s.mx.gl with lost := s.mx.gl.lost.filter (fun x => x != c) } := by
    rcases hc with rfl | rfl <;> simp [clockBack, h]
  have hclock : isClock c = true := by rcases hc with rfl | rfl <;> rfl
  calc exec (.clockReturn c) s = act s (onlyIf (isClock c) (clockBack c)) := rfl
    _ = _ := by rw [hclock, act, onlyIf_true, hback]

/-- R420: MREF is no longer lost. -/
def mrefFound (m : Mx) : Mx := setGl m { m.gl with lost := m.gl.lost.filter (fun c => c != .mref) }

@[simp] theorem mrefFound_md (m : Mx) : (mrefFound m).md = m.md := rfl
@[simp] theorem mrefFound_tr (m : Mx) : (mrefFound m).tr = m.tr := rfl

theorem mref_notMem_mrefFound (m : Mx) : Clock.mref ∉ (mrefFound m).gl.lost := by simp [mrefFound, setGl]

theorem exec_mrefReturn (s : State) : exec .mrefReturn s = .next { s with mx := mrefBack (mrefFound s.mx) } := rfl

/-- R420: Meridian runs on from the value it held, with the slot timer realigned to it. -/
def meridianOn (m : Mx) : Mx := realign { m with md := { m.md with hold := false } }

theorem mrefBack_held {m : Mx} (h : m.md.hold = true) : mrefBack m = slotTurn (meridianOn m) := by
  simp [mrefBack, h, meridianOn]

theorem mrefBack_running {m : Mx} (h : m.md.hold = false) : mrefBack m = m := by simp [mrefBack, h]

@[simp] theorem meridianOn_md (m : Mx) : (meridianOn m).md = { m.md with hold := false } := rfl
@[simp] theorem meridianOn_gl (m : Mx) : (meridianOn m).gl = m.gl := rfl
@[simp] theorem meridianOn_slot (m : Mx) : (meridianOn m).tr.slot = m.tr.slot - (m.tr.slot - m.md.time / 1000) := rfl

/-- R422: a timer that agrees with Meridian stays as it is, and with it what Transit has dated. -/
theorem meridianOn_tr {m : Mx} (h : m.tr.slot = m.md.time / 1000) : (meridianOn m).tr = m.tr := by
  simp [meridianOn, realign, ← h]

theorem keepsBut_meridianOn (s : State) : keepsBut [.md, .tr] s { s with mx := meridianOn s.mx } :=
  keepsBut_trans (keepsBut_md s _) (keepsBut_tr { s with mx := { s.mx with md := _ } } _) (by simp) (by simp)

/-- R422: with the boundary of Meridian's slot taken, none is due. -/
theorem slotTurn_none {m : Mx} (h : m.md.time / 1000 ≤ m.tr.slot) : slotTurn m = m := by simp [slotTurn, h]

theorem slotTurn_due {m : Mx} (hhold : m.md.hold = false) (h : m.tr.slot < m.md.time / 1000) :
    slotTurn m = boundaryAt (m.md.time / 1000) m := by
  simp [slotTurn, hhold, Nat.not_le.mpr h]

/-! ## What a slot's boundary leaves alone -/

/-- Meridian, the global state and the number of the slot are those of another complex. -/
def keepsTime (a b : Mx) : Prop := b.md = a.md ∧ b.gl = a.gl ∧ b.tr.slot = a.tr.slot

theorem keepsTime_refl (a : Mx) : keepsTime a a := ⟨rfl, rfl, rfl⟩

theorem keepsTime_trans {a b c : Mx} (h : keepsTime a b) (h' : keepsTime b c) : keepsTime a c :=
  ⟨h'.1.trans h.1, h'.2.1.trans h.2.1, h'.2.2.trans h.2.2⟩

theorem keepsTime_log (m : Mx) (k : RecKind) (x y z : Nat) : keepsTime m (log m k x y z) := by simp [keepsTime]

theorem keepsTime_raise (m : Mx) (k : Nat) : keepsTime m (raise m k) := by simp [keepsTime]

/-- Work done for each member of a list keeps what it keeps for one. -/
theorem keepsTime_each {α : Type} (l : List α) (f : α → Mx → Mx) (m : Mx) (hf : ∀ a x, keepsTime x (f a x)) :
    keepsTime m (each l f m) :=
  each_inv (keepsTime m) l f m (keepsTime_refl m) fun a x h => keepsTime_trans h (hf a x)

theorem keepsTime_admitItem (d : Nat) (m : Mx) : keepsTime m (admitItem d m) := by
  refine keepsTime_each _ _ m fun eid x => ?_
  unfold setAdmitted
  split
  · exact ⟨rfl, rfl, rfl⟩
  · exact keepsTime_refl x

@[simp] theorem admitItem_md (d : Nat) (m : Mx) : (admitItem d m).md = m.md := (keepsTime_admitItem d m).1
@[simp] theorem admitItem_gl (d : Nat) (m : Mx) : (admitItem d m).gl = m.gl := (keepsTime_admitItem d m).2.1
@[simp] theorem admitItem_slot (d : Nat) (m : Mx) : (admitItem d m).tr.slot = m.tr.slot := (keepsTime_admitItem d m).2.2

/-- The cases of one request: it is tried once or holds its die, and its profile is named in a record or not. -/
theorem keepsTime_admitUnit (b : Nat) (u : List TrReq) (m : Mx) : keepsTime m (admitUnit b u m) := by
  refine keepsTime_each _ _ m fun q x => ?_
  dsimp only
  repeat' split
  all_goals simp [keepsTime]

theorem keepsTime_tryUnits (b : Nat) (us failed : List (List TrReq)) (m : Mx) : keepsTime m (tryUnits b us failed m) := by
  induction us generalizing failed m with
  | nil => exact keepsTime_refl m
  | cons u us ih =>
    unfold tryUnits
    split
    · exact keepsTime_trans (keepsTime_admitUnit b u m) (ih failed _)
    · exact ih _ m

theorem keepsTime_judgeOver (b : Nat) (m : Mx) : keepsTime m (judgeOver b m) := by
  refine keepsTime_each _ _ m fun r x => ?_
  dsimp only
  split <;> simp [keepsTime]

/-- R422: the boundary of slot `b` makes it the current one. -/
theorem boundaryAt_time (b : Nat) (m : Mx) :
    (boundaryAt b m).md = m.md ∧ (boundaryAt b m).gl = m.gl ∧ (boundaryAt b m).tr.slot = b := by
  unfold boundaryAt
  refine ⟨?_, ?_, ?_⟩
  · rw [(keepsTime_judgeOver b _).1]; exact (keepsTime_tryUnits b _ [] _).1
  · rw [(keepsTime_judgeOver b _).2.1]; exact (keepsTime_tryUnits b _ [] _).2.1
  · rw [(keepsTime_judgeOver b _).2.2]; exact (keepsTime_tryUnits b _ [] _).2.2

/-! ## MREF is back -/

/-- R420, R422: the slot timer was not behind Meridian, so that no boundary is due. -/
theorem mrefReturn_realigned {s : State} (hhold : s.mx.md.hold = true) (hslot : s.mx.md.time / 1000 ≤ s.mx.tr.slot) :
    ∃ t, exec .mrefReturn s = .next t ∧ t.mx.md = { s.mx.md with hold := false } ∧
      Clock.mref ∉ t.mx.gl.lost ∧ t.mx.tr.slot = s.mx.md.time / 1000 ∧
      (s.mx.tr.slot = s.mx.md.time / 1000 → t.mx.tr = s.mx.tr) ∧ keepsBut [.gl, .md, .tr] s t := by
  have hnone : (meridianOn (mrefFound s.mx)).md.time / 1000 ≤ (meridianOn (mrefFound s.mx)).tr.slot := by
    simp only [meridianOn_md, meridianOn_slot, mrefFound_md, mrefFound_tr]
    omega
  refine ⟨_, exec_mrefReturn s, ?_⟩
  rw [mrefBack_held (m := mrefFound s.mx) hhold, slotTurn_none hnone]
  refine ⟨rfl, mref_notMem_mrefFound s.mx, ?_, fun h => meridianOn_tr (m := mrefFound s.mx) h, ?_⟩
  · simp only [meridianOn_slot, mrefFound_md, mrefFound_tr]
    omega
  · exact keepsBut_trans (keepsBut_gl s _) (keepsBut_meridianOn { s with mx := mrefFound s.mx }) (by simp) (by simp)

/-- R420, R422: Meridian runs on; where its slot is ahead of the timer's, that slot's boundary is taken. -/
theorem mrefReturn_slot {s : State} (hhold : s.mx.md.hold = true) :
    ∃ t, exec .mrefReturn s = .next t ∧ t.mx.md = { s.mx.md with hold := false } ∧
      Clock.mref ∉ t.mx.gl.lost ∧ t.mx.tr.slot = s.mx.md.time / 1000 := by
  by_cases hslot : s.mx.md.time / 1000 ≤ s.mx.tr.slot
  · obtain ⟨t, hexec, hmd, hlost, hs, -⟩ := mrefReturn_realigned hhold hslot
    exact ⟨t, hexec, hmd, hlost, hs⟩
  · have hdue : (meridianOn (mrefFound s.mx)).tr.slot < (meridianOn (mrefFound s.mx)).md.time / 1000 := by
      simp only [meridianOn_md, meridianOn_slot, mrefFound_md, mrefFound_tr]
      omega
    obtain ⟨hmd, hgl, hs⟩ := boundaryAt_time ((meridianOn (mrefFound s.mx)).md.time / 1000) (meridianOn (mrefFound s.mx))
    refine ⟨_, exec_mrefReturn s, ?_⟩
    rw [mrefBack_held (m := mrefFound s.mx) hhold, slotTurn_due rfl hdue]
    exact ⟨hmd, by rw [hgl, meridianOn_gl]; exact mref_notMem_mrefFound s.mx, by rw [hs, meridianOn_md, mrefFound_md]⟩

/-- MREF was back already, as far as Meridian goes. -/
theorem mrefReturn_running {s : State} (hhold : s.mx.md.hold = false) :
    ∃ t, exec .mrefReturn s = .next t ∧ Clock.mref ∉ t.mx.gl.lost ∧ keepsBut [.gl] s t := by
  refine ⟨_, exec_mrefReturn s, ?_⟩
  rw [mrefBack_running (m := mrefFound s.mx) hhold]
  exact ⟨mref_notMem_mrefFound s.mx, keepsBut_gl s _⟩

/-- Settles O11: a clock's loss by the clock, and MREF's return by whether Meridian held its value and whether its slot is ahead
of the slot timer's. -/
theorem clockLossAndReturn : Obligations.ClockLossAndReturn :=
  ⟨fun _ h => clkLoss_mref h, fun _ hhold hslot => mrefReturn_realigned hhold hslot, fun _ h hp => clkLoss_mclk h hp,
    fun _ _ hc h hp => clkLoss_noted hc h hp, fun _ _ h => exec_clkLoss_again h, fun _ _ hc h => exec_clockReturn hc h,
    fun _ hhold => mrefReturn_slot hhold, fun _ hhold => mrefReturn_running hhold⟩

end Sys2Proof.Machine
end

section
/-! PROOFS. The turn for dispatch (01_architecture.md R30; 03_queues.md R129): what an opcode's command does with the entry at
its turn, and what becomes of the entry and of its ring. -/

namespace Sys2Proof.Machine

/-! ## Tables, entries and rings written twice -/

theorem tabSet_tabSet {α : Type} (t : Tab α) (i : Nat) (v w : α) : tabSet (tabSet t i v) i w = tabSet t i w := by
  induction t with
  | nil => simp [tabSet]
  | cons x t ih =>
    obtain ⟨k, u⟩ := x
    by_cases hk : k = i
    · simp [tabSet, hk]
    · by_cases hlt : i < k
      · simp [tabSet, hk, hlt]
      · simp [tabSet, hk, hlt, ih]

@[simp] theorem setEnt_setEnt (m : Mx) (eid : Nat) (e f : Ent) : setEnt (setEnt m eid e) eid f = setEnt m eid f := by
  simp [setEnt, tabSet_tabSet]

@[simp] theorem setRing_setRing (m : Mx) (r : Nat) (g h : Ring) : setRing (setRing m r g) r h = setRing m r h := by
  simp [setRing, tabSet_tabSet]

theorem eidRing_eidOf {r i : Nat} (h : i < 131072) : eidRing (eidOf r i) = r := by
  unfold eidRing eidOf
  omega

theorem eidIdx_eidOf {r i : Nat} (h : i < 131072) : eidIdx (eidOf r i) = i := by
  unfold eidIdx eidOf
  omega

variable (s : State)

theorem keepsBut_setRing (r : Nat) (g : Ring) : keepsBut [.qe] s { s with mx := setRing s.mx r g } :=
  ⟨rfl, fun p hp => by cases p <;> simp [Area.same] at hp ⊢⟩

theorem keepsBut_setEnt (eid : Nat) (e : Ent) : keepsBut [.ents] s { s with mx := setEnt s.mx eid e } :=
  ⟨rfl, fun p hp => by cases p <;> simp [Area.same] at hp ⊢⟩

/-! ## Dispatch -/

/-- What an opcode's command does with an entry that has passed the checks of R129. -/
def opcodeGo : Instr → Nat → Ent → Mx → Mx
  | .read _ | .copy _ | .scan _ => goRead
  | .readRaw _ => goReadRaw
  | .stripeClose _ => goClose
  | .rebuild _ _ => goRebuild
  | .nop _ => fun eid e m => conclude eid e 0 0 false m
  | .fence _ => goFence
  | .fill _ => goFill
  | _ => reserve

theorem exec_opcode {c : Instr} {r op : Nat} (h : opcodeOf c = some (r, op)) :
    exec c s = act s (onlyIf (isRing r) (dispatch r op (opcodeGo c))) := by
  cases c <;> cases h <;> rfl

/-- The checks of R129 look at no ring's cache. -/
theorem entryFault_takeTurn (m : Mx) (r q : Nat) (e : Ent) : entryFault (takeTurn q m) r e = entryFault m r e := rfl

theorem dispatch_atTurn {m : Mx} {r i : Nat} {e : Ent} (go : Nat → Ent → Mx → Mx) (ht : atTurn m r i e)
    (hf : entryFault m r e = none) : dispatch r (eOpc e) go m = go (eidOf r i) e (takeTurn r m) := by
  obtain ⟨-, hturn, hent⟩ := ht
  simp [dispatch, hturn, hent, entryFault_takeTurn, hf]

/-- R30: the command of the opcode that stands at its turn takes the entry from the cache and goes on with it. -/
theorem exec_atTurn {s : State} {c : Instr} {r op i : Nat} {e : Ent} (hc : opcodeOf c = some (r, op))
    (ht : atTurn s.mx r i e) (hop : eOpc e = op) (hf : entryFault s.mx r e = none) :
    exec c s = .next { s with mx := opcodeGo c (eidOf r i) e (takeTurn r s.mx) } := by
  have hring : isRing r = true := decide_eq_true ht.1
  rw [exec_opcode s hc, ← hop, act, hring, onlyIf_true, dispatch_atTurn _ ht hf]

/-! ## What becomes of the entry and its ring -/

theorem takeTurn_eq (r : Nat) (m : Mx) :
    takeTurn r m = setRing m r { ring m r with cache := (ring m r).cache.drop 1 } := rfl

/-- An entry written is the only entry that changes. -/
theorem ent_of_setEnt {m t : Mx} {eid : Nat} {f : Ent} (h : t.ents = (setEnt m eid f).ents) :
    ent t eid = some f ∧ ∀ q, q ≠ eid → ent t q = ent m q := by
  have hent (q : Nat) : ent t q = ent (setEnt m eid f) q := by rw [ent, ent, h]
  exact ⟨by rw [hent, ent_setEnt], fun q hq => by rw [hent, ent_setEnt_ne _ _ _ _ hq.symm]⟩

/-- A ring written is the only ring that changes. -/
theorem ring_of_setRing {m t : Mx} {r : Nat} {g : Ring} (h : t.qe = (setRing m r g).qe) :
    ring t r = g ∧ ∀ q, q ≠ r → ring t q = ring m q := by
  have hring (q : Nat) : ring t q = ring (setRing m r g) q := by rw [ring, ring, h]
  exact ⟨by rw [hring, ring_setRing], fun q hq => by rw [hring, ring_setRing_ne _ _ _ _ hq.symm]⟩

/-- The entry at its turn becomes `f` and its ring `g`, and nothing else changes. -/
theorem opcode_leaves {s : State} {c : Instr} {r op i : Nat} {e f : Ent} {g : Ring} (hc : opcodeOf c = some (r, op))
    (ht : atTurn s.mx r i e) (hop : eOpc e = op) (hf : entryFault s.mx r e = none)
    (hgo : opcodeGo c (eidOf r i) e (takeTurn r s.mx) = setEnt (setRing s.mx r g) (eidOf r i) f) :
    ∃ t, exec c s = .next t ∧ ent t.mx (eidOf r i) = some f ∧ (∀ q, q ≠ eidOf r i → ent t.mx q = ent s.mx q) ∧
      ring t.mx r = g ∧ (∀ q, q ≠ r → ring t.mx q = ring s.mx q) ∧ keepsBut [.ents, .qe] s t := by
  obtain ⟨hent, hents⟩ := ent_of_setEnt (m := setRing s.mx r g) (f := f) (eid := eidOf r i) rfl
  obtain ⟨hring, hrings⟩ := ring_of_setRing (m := s.mx) (t := setEnt (setRing s.mx r g) (eidOf r i) f) rfl
  refine ⟨_, exec_atTurn hc ht hop hf, ?_⟩
  rw [hgo]
  exact ⟨hent, hents, hring, hrings,
    keepsBut_trans (keepsBut_setRing s r g) (keepsBut_setEnt { s with mx := _ } _ f) (by simp) (by simp)⟩

end Sys2Proof.Machine
end

section
/-! PROOFS. Opcodes that need stage-buffer lines ask their class for them (01_architecture.md R30; 04_commands.md R190;
12_stage_buffer.md R448). -/

namespace Sys2Proof.Machine

/-- Which lines an entry needs depends on its fields and on the stripes alone. -/
theorem resBytes_congr {m m' : Mx} (e : Ent) (h : m'.st = m.st) : resBytes m' e = resBytes m e := by
  simp only [resBytes, stripe, h]

theorem keepsBut_noteDose (s : State) (eid : Nat) (e : Ent) : keepsBut [.nl] s { s with mx := noteDose eid e s.mx } := by
  unfold noteDose
  split
  · exact keepsBut_log s _ _ _ _
  · exact keepsBut_refl s _

theorem keepsBut_askResv (s : State) (o : ROwner) (c n : Nat) : keepsBut [.sb] s { s with mx := askResv s.mx o c n } :=
  ⟨rfl, fun p hp => by cases p <;> simp [Area.same, askResv, testAgain] at hp ⊢⟩

/-- R448, R450: a request joins its class's; which classes have failed their test is judged again. -/
theorem askResv_sb (m : Mx) (o : ROwner) (c n : Nat) : (askResv m o c n).sb =
    { m.sb with wait := m.sb.wait ++ [{ owner := o, cls := c, n := (n + 127) / 128 }], failed := (askResv m o c n).sb.failed } := rfl

/-- R190: an entry that needs lines asks for them and waits. -/
theorem reserve_asks {m : Mx} {e : Ent} (eid : Nat) (h : resBytes m e ≠ 0) : reserve eid e m =
    askResv (setEnt m eid { e with stage := .waitRes }) (.entry eid) (resClass (eOpc e)) (resBytes m e) := by
  simp [reserve, h]

section
variable {m : Mx} {e : Ent} (eid : Nat) (h : resBytes m e ≠ 0)
include h

theorem reserve_ents : (reserve eid e m).ents = (setEnt m eid { e with stage := .waitRes }).ents := by
  rw [reserve_asks eid h]
  rfl

theorem reserve_sb : (reserve eid e m).sb =
    { m.sb with wait := m.sb.wait ++ [{ owner := .entry eid, cls := resClass (eOpc e), n := (resBytes m e + 127) / 128 }],
                failed := (reserve eid e m).sb.failed } := by
  rw [reserve_asks eid h, askResv_sb]
  rfl

end

theorem keepsBut_reserve {s : State} {e : Ent} (eid : Nat) (h : resBytes s.mx e ≠ 0) :
    keepsBut [.ents, .sb] s { s with mx := reserve eid e s.mx } := by
  rw [reserve_asks eid h]
  exact keepsBut_trans (keepsBut_setEnt s _ _) (keepsBut_askResv { s with mx := _ } _ _ _) (by simp) (by simp)

/-- R31, R162, R165, R190: an opcode that needs lines reserves them for its entry, of which only the codewords still to be settled
are new; a dose may have been noted first. -/
theorem opcodeGo_reserves {c : Instr} {r : Nat} (eid : Nat) (e : Ent) (s : State)
    (h : c = .read r ∨ c = .program r ∨ c = .copy r ∨ c = .readRaw r ∨ c = .programRaw r ∨ c = .status r ∨
      c = .featureGet r ∨ c = .stripeOpen r ∨ c = .scan r ∨ c = .call r) :
    ∃ (f : Ent) (u : State), opcodeGo c eid e s.mx = reserve eid f u.mx ∧ f.raw = e.raw ∧
      (c = .read r ∨ c = .copy r ∨ c = .scan r → f.cws = List.replicate (eNcw e) .pending) ∧
      resBytes u.mx f = resBytes s.mx e ∧ keepsBut [.nl] s u := by
  have hnoted := keepsBut_noteDose s eid e
  have hread : resBytes (noteDose eid e s.mx) (withCws e) = resBytes s.mx e :=
    resBytes_congr (withCws e) (keepsBut_same hnoted .st (by simp))
  have hraw : resBytes (noteDose eid e s.mx) e = resBytes s.mx e := resBytes_congr e (keepsBut_same hnoted .st (by simp))
  rcases h with rfl | rfl | rfl | rfl | rfl | rfl | rfl | rfl | rfl | rfl
  case inl | inr.inr.inl | inr.inr.inr.inr.inr.inr.inr.inr.inl =>
    exact ⟨withCws e, { s with mx := noteDose eid e s.mx }, rfl, rfl, fun _ => rfl, hread, hnoted⟩
  case inr.inr.inr.inl => exact ⟨e, { s with mx := noteDose eid e s.mx }, rfl, rfl, by simp, hraw, hnoted⟩
  all_goals exact ⟨e, s, rfl, rfl, by simp, rfl, keepsBut_refl s _⟩

/-- Settles O27: the entry leaves its ring's cache, a dose may be noted, and the reservation is asked for; what the three leave
alone is put together. -/
theorem opcodesAskForLines : Obligations.OpcodesAskForLines := by
  intro s c r op i e hc ht hop hcases hf hbytes
  obtain ⟨f, u, hgo, hraw, hcws, hres, hnote⟩ :=
    opcodeGo_reserves (eidOf r i) e { s with mx := takeTurn r s.mx } hcases
  have hexec : exec c s = .next { s with mx := reserve (eidOf r i) f u.mx } := by
    rw [exec_atTurn hc ht hop hf, ← hgo]
  have hres : resBytes u.mx f = resBytes s.mx e := hres
  have hopf : eOpc f = op := by rw [← hop, eOpc, eOpc, eBits, eBits, hraw]
  have hneed : resBytes u.mx f ≠ 0 := by rwa [hres]
  have hturn : keepsBut [.qe] s { s with mx := takeTurn r s.mx } := keepsBut_setRing s r _
  have hrest := keepsBut_trans (k := [.ents, .sb, .nl]) hnote (keepsBut_reserve (eidOf r i) hneed) (by simp) (by simp)
  have hents : u.mx.ents = s.mx.ents := keepsBut_same hnote .ents (by simp)
  have hsb : u.mx.sb = s.mx.sb := keepsBut_same hnote .sb (by simp)
  obtain ⟨hent, hothers⟩ := ent_of_setEnt (m := s.mx) (t := reserve (eidOf r i) f u.mx) (eid := eidOf r i)
    (f := { f with stage := .waitRes }) (by rw [reserve_ents _ hneed, setEnt, setEnt, hents])
  obtain ⟨hring, hrings⟩ := ring_of_setRing (m := s.mx) (t := reserve (eidOf r i) f u.mx) (r := r)
    (g := { ring s.mx r with cache := (ring s.mx r).cache.drop 1 }) (keepsBut_same hrest .qe (by simp))
  refine ⟨_, { f with stage := .waitRes }, hexec, hent, hraw, rfl, hcws, ?_, hothers, hring, hrings, ?_⟩
  · rw [← hsb, ← hres, ← hopf]
    exact reserve_sb _ hneed
  · have hall := keepsBut_trans (k := [.ents, .qe, .sb, .nl]) hturn hrest (by simp) (by simp)
    exact ⟨rfl, hall.2⟩

end Sys2Proof.Machine
end

section
/-! PROOFS. Opcodes that need no lines (01_architecture.md R30, R36; 04_commands.md R160, R171–R173, R175–R177, R189, R190). -/

namespace Sys2Proof.Machine

/-! ## Die opcodes -/

theorem firstDetail_eq_none {l : List Nat} (h : firstDetail l = none) : l = [] := by
  cases l with
  | nil => rfl
  | cons d ds =>
    unfold firstDetail at h
    split at h
    · simp at h
    · split at h <;> simp at h

/-- R129: an entry that passes has no bad field. -/
theorem fieldFaults_of_passes {m : Mx} {r : Nat} {e : Ent} (h : entryFault m r e = none) : fieldFaults m e = [] := by
  unfold entryFault at h
  repeat' split at h
  all_goals simp at h
  exact firstDetail_eq_none h

/-- R173: a CALL of data mode 0 that passes has no data. -/
theorem eLen_of_call {m : Mx} {r : Nat} {e : Ent} (hop : eOpc e = 0x18) (hmode : eArg0 e / 2 ^ 30 = 0)
    (h : entryFault m r e = none) : eLen e = 0 := by
  have hlen : lenFaults e = [] := by
    have hall := fieldFaults_of_passes h
    simp only [fieldFaults, List.append_eq_nil_iff] at hall
    obtain ⟨⟨⟨⟨⟨-, hlen⟩, -⟩, -⟩, -⟩, -⟩ := hall
    exact hlen
  simp only [lenFaults, hop, whenBad, hmode, List.append_eq_nil_iff] at hlen
  by_cases hlen0 : eLen e = 0
  · exact hlen0
  · simp [hlen0] at hlen

/-- R190: an opcode that takes no lines goes to its die at once. -/
theorem reserve_toDie {m : Mx} {e : Ent} (eid : Nat) (h : resBytes m e = 0)
    (hop : eOpc e = 0x03 ∨ eOpc e = 0x09 ∨ eOpc e = 0x0B ∨ (eOpc e = 0x18 ∧ (eArg0 e).testBit 30 = false)) :
    reserve eid e m = setEnt m eid { e with stage := .toPlace } := by
  have hgo : reservedNow eid e (setEnt m eid e) = toDie eid e (setEnt m eid e) := by
    rcases hop with hop | hop | hop | ⟨hop, hbit⟩
    · simp [reservedNow, hop]
    · simp [reservedNow, hop]
    · simp [reservedNow, hop]
    · simp [reservedNow, hop, hbit]
  calc reserve eid e m = reservedNow eid e (setEnt m eid e) := by simp [reserve, h]
    _ = _ := by rw [hgo, toDie, setEnt_setEnt]

/-! ## Outcomes -/

/-- R130: an entry that holds no lines to give back is final. -/
theorem conclude_eq {m : Mx} {e : Ent} (eid st d : Nat) (h : earlyFree (eOpc e) = false) :
    conclude eid e st d false m = setEnt m eid (concluded m e st d) := by
  simp [conclude, h, concluded]

theorem endMember_none {m : Mx} {e : Ent} (h : e.stripe = none) : endMember e m = m := by simp [endMember, h]

/-- R383, R395: only a STRIPE_CLOSE and a REBUILD work on a stripe of their own. -/
theorem endWork_other {m : Mx} {e : Ent} (eid st : Nat) (hclose : eOpc e ≠ 0x11) (hrebuild : eOpc e ≠ 0x12) :
    endWork eid e st m = m := by
  simp [endWork, hclose, hrebuild]

/-- An entry with no stripe only has its outcome recorded. -/
theorem finish_alone {m : Mx} {e : Ent} (eid st d : Nat) (part : Bool) (hstripe : e.stripe = none) (hclose : eOpc e ≠ 0x11)
    (hrebuild : eOpc e ≠ 0x12) : finish eid e st d part m = conclude eid e st d part m := by
  simp [finish, endMember_none hstripe, endWork_other eid st hclose hrebuild, hstripe]

/-- The complex without an entry's work of reconstruction. -/
def dropJobs (eid : Nat) (m : Mx) : Mx := { m with st := { m.st with jobs := m.st.jobs.filter (fun x => x.1 != eid) } }

theorem keepsBut_dropJobs (s : State) (eid : Nat) : keepsBut [.st] s { s with mx := dropJobs eid s.mx } :=
  ⟨rfl, fun p hp => by cases p <;> simp [Area.same, dropJobs] at hp ⊢⟩

/-- R139: an entry that reads no codewords is cut short. -/
theorem abort_plain {m : Mx} {eid : Nat} {e : Ent} (d : Nat) (hent : ent m eid = some e) (hdec : decodes (eOpc e) = false) :
    abort eid d m = finish eid e 0x0200 d e.admitted (dropJobs eid m) := by
  simp [abort, hent, finishCut, hdec, dropJobs]

/-- R122, R189: a FILL that is no member of a stripe and of which nothing was admitted is aborted. -/
theorem abort_fill {m : Mx} {eid : Nat} {e : Ent} (d : Nat) (hent : ent m eid = some e) (hop : eOpc e = 0x28)
    (hstripe : e.stripe = none) (hadm : e.admitted = false) :
    abort eid d m = setEnt (dropJobs eid m) eid (concluded m e 0x0200 d) := by
  rw [abort_plain d hent (by simp [hop, decodes]), hadm, finish_alone eid _ d false hstripe (by simp [hop]) (by simp [hop]),
    conclude_eq eid _ d (by simp [hop, earlyFree])]
  rfl

/-! ## FILL's transfer (R177, R184, R189) -/

/-- The transfer that a FILL asks an engine for. -/
def fillXfer (m : Mx) (eid : Nat) (e : Ent) : Xfer :=
  { entryXfer m eid e (.fill eid) ((eArg1 e).testBit 0) (if (eArg1 e).testBit 0 then rawPart e (dataSide e) else []) with
    pat := some (word (eArg0 e)), left := eLen e }

theorem goFill_eq (eid : Nat) (e : Ent) (m : Mx) :
    goFill eid e m = queueXfer (fillXfer m eid e) (setEnt m eid { e with stage := .xferIn }) := rfl

theorem fillXfer_port {r i : Nat} (m : Mx) (e : Ent) (hi : i < 131072) : (fillXfer m (eidOf r i) e).port = ringPort m r :=
  congrArg (ringPort m) (eidRing_eidOf hi)

theorem queueXfer_enabled {m : Mx} {x : Xfer} (h : portEngOff m x.port = false) :
    queueXfer x m = { m with dx := { m.dx with queue := m.dx.queue ++ [x] } } := by
  simp [queueXfer, h]

theorem queueXfer_stranded {m : Mx} {x : Xfer} (h : portEngOff m x.port = true) :
    queueXfer x m = abort (xEid x.owner) 6 m := by
  simp [queueXfer, h]

/-- R177: FILL waits for an engine of its ring's port. -/
theorem goFill_enabled {m : Mx} {r i : Nat} (e : Ent) (hi : i < 131072) (hoff : portEngOff m (ringPort m r) = false) :
    goFill (eidOf r i) e m = { setEnt m (eidOf r i) { e with stage := .xferIn } with
      dx := { m.dx with queue := m.dx.queue ++ [fillXfer m (eidOf r i) e] } } := by
  rw [goFill_eq, queueXfer_enabled (by rw [fillXfer_port m e hi]; exact hoff)]
  rfl

/-- R189: with every engine of its ring's port disabled, FILL is aborted. -/
theorem goFill_stranded {m : Mx} {r i : Nat} {e : Ent} (hi : i < 131072) (hoff : portEngOff m (ringPort m r) = true)
    (hop : eOpc e = 0x28) (hstripe : e.stripe = none) (hadm : e.admitted = false) :
    goFill (eidOf r i) e m = setEnt (dropJobs (eidOf r i) m) (eidOf r i) (concluded m e 0x0200 6) := by
  have habort := abort_fill (e := { e with stage := .xferIn }) 6 (ent_setEnt m (eidOf r i) _) hop hstripe hadm
  rw [goFill_eq, queueXfer_stranded (by rw [fillXfer_port m e hi]; exact hoff)]
  exact habort.trans (setEnt_setEnt (dropJobs (eidOf r i) m) _ _ _)

theorem keepsBut_dx (s : State) (d : Dx) : keepsBut [.dx] s { s with mx := { s.mx with dx := d } } :=
  ⟨rfl, fun p hp => by cases p <;> simp [Area.same] at hp ⊢⟩

/-! ## The clauses of O28 -/

/-- R30, R36, R160, R171 to R173: the entry is ready for its die. -/
theorem opcodeGo_toDie {m : Mx} {c : Instr} {r op : Nat} {e : Ent} (eid : Nat) (hc : opcodeOf c = some (r, op))
    (hop : eOpc e = op)
    (hcases : c = .erase r ∨ c = .featureSet r ∨ c = .resetDie r ∨ (c = .call r ∧ eArg0 e / 2 ^ 30 = 0))
    (hf : entryFault m r e = none) : opcodeGo c eid e m = setEnt m eid { e with stage := .toPlace } := by
  rcases hcases with rfl | rfl | rfl | ⟨rfl, hmode⟩ <;> cases hc
  case inl => exact reserve_toDie _ (by simp [resBytes, hop]) (.inl hop)
  case inr.inl => exact reserve_toDie _ (by simp [resBytes, hop]) (.inr (.inl hop))
  case inr.inr.inl => exact reserve_toDie _ (by simp [resBytes, hop]) (.inr (.inr (.inl hop)))
  case inr.inr.inr =>
    have hbit : (eArg0 e).testBit 30 = false := Nat.testBit_lt_two_pow (by omega)
    exact reserve_toDie _ (by simp [resBytes, hop, eLen_of_call hop hmode hf]) (.inr (.inr (.inr ⟨hop, hbit⟩)))

/-- R176: FENCE holds its ring from here on, and is done where no earlier entry is open. -/
theorem goFence_takeTurn {r i : Nat} {e : Ent} (hi : i < 131072) (hop : eOpc e = 0x1A) (m : Mx) :
    goFence (eidOf r i) e (takeTurn r m) =
      setEnt (setRing m r { ring m r with cache := (ring m r).cache.drop 1, fence := some i }) (eidOf r i)
        (if earlierOpen m r (eidOf r i) then { e with stage := .fenced } else concluded m e 0 0) := by
  have hrings : setRing (takeTurn r m) r { ring (takeTurn r m) r with fence := some i } =
      setRing m r { ring m r with cache := (ring m r).cache.drop 1, fence := some i } := by
    simp [takeTurn_eq]
  have hopen (g : Ring) : earlierOpen (setRing m r g) r (eidOf r i) = earlierOpen m r (eidOf r i) := rfl
  simp only [goFence, eidRing_eidOf hi, eidIdx_eidOf hi, hrings, hopen]
  split
  · rfl
  · exact conclude_eq _ 0 0 (by simp [hop, earlyFree])

section
variable {s : State} {r i : Nat} {e : Ent} (ht : atTurn s.mx r i e) (hi : i < 131072) (hop : eOpc e = 0x28)
  (hf : entryFault s.mx r e = none)
include ht hi hop hf

/-- R177: FILL waits for an engine of its port. -/
theorem fill_waits (hoff : portEngOff s.mx (ringPort s.mx r) = false) :
    ∃ t x, exec (.fill r) s = .next t ∧ ent t.mx (eidOf r i) = some { e with stage := .xferIn } ∧
      t.mx.dx = { s.mx.dx with queue := s.mx.dx.queue ++ [x] } ∧ x.owner = .fill (eidOf r i) ∧
      x.pat = some (word (eArg0 e)) ∧ x.left = eLen e ∧ x.toHost = (eArg1 e).testBit 0 ∧ x.port = ringPort s.mx r ∧
      x.parts = (if (eArg1 e).testBit 0 then rawPart e (dataSide e) else []) ∧
      (∀ q, q ≠ eidOf r i → ent t.mx q = ent s.mx q) ∧
      ring t.mx r = { ring s.mx r with cache := (ring s.mx r).cache.drop 1 } ∧ (∀ q, q ≠ r → ring t.mx q = ring s.mx q) ∧
      keepsBut [.ents, .qe, .dx] s t := by
  have hexec := exec_atTurn (c := .fill r) rfl ht hop hf
  rw [opcodeGo, goFill_enabled (m := takeTurn r s.mx) e hi hoff] at hexec
  obtain ⟨hent, hents⟩ := ent_of_setEnt (m := takeTurn r s.mx) (eid := eidOf r i) (f := { e with stage := .xferIn })
    (t := { setEnt (takeTurn r s.mx) (eidOf r i) { e with stage := .xferIn } with dx := _ }) rfl
  obtain ⟨hring, hrings⟩ := ring_of_setRing (m := s.mx) (r := r)
    (t := { setEnt (takeTurn r s.mx) (eidOf r i) { e with stage := .xferIn } with dx := _ }) rfl
  have hturn : keepsBut [.ents, .qe] s { s with mx := setEnt (takeTurn r s.mx) (eidOf r i) { e with stage := .xferIn } } :=
    keepsBut_trans (keepsBut_setRing s r _) (keepsBut_setEnt { s with mx := _ } _ _) (by simp) (by simp)
  exact ⟨_, _, hexec, hent, rfl, rfl, rfl, rfl, rfl, fillXfer_port _ e hi, rfl, hents, hring, hrings,
    keepsBut_trans hturn (keepsBut_dx { s with mx := _ } _) (by simp) (by simp)⟩

/-- R189: with every engine of its port disabled, FILL is aborted. -/
theorem fill_stranded (hoff : portEngOff s.mx (ringPort s.mx r) = true) (hstripe : e.stripe = none)
    (hadm : e.admitted = false) :
    ∃ t, exec (.fill r) s = .next t ∧ ent t.mx (eidOf r i) = some (concluded s.mx e 0x0200 6) ∧
      (∀ q, q ≠ eidOf r i → ent t.mx q = ent s.mx q) ∧ t.mx.st.stripes = s.mx.st.stripes ∧
      keepsBut [.ents, .qe, .st] s t := by
  have hexec := exec_atTurn (c := .fill r) rfl ht hop hf
  rw [opcodeGo, goFill_stranded (m := takeTurn r s.mx) hi hoff hop hstripe hadm] at hexec
  obtain ⟨hent, hents⟩ := ent_of_setEnt (m := dropJobs (eidOf r i) (takeTurn r s.mx)) (eid := eidOf r i)
    (f := concluded s.mx e 0x0200 6) rfl
  have hturn : keepsBut [.qe, .st] s { s with mx := dropJobs (eidOf r i) (takeTurn r s.mx) } :=
    keepsBut_trans (keepsBut_setRing s r _) (keepsBut_dropJobs { s with mx := takeTurn r s.mx } _) (by simp) (by simp)
  exact ⟨_, hexec, hent, hents, rfl, keepsBut_trans hturn (keepsBut_setEnt { s with mx := _ } _ _) (by simp) (by simp)⟩

end

/-- Settles O28: each opcode's way is an equation, and `opcode_leaves` says what it leaves of the rest. -/
theorem opcodesGoOn : Obligations.OpcodesGoOn := by
  refine ⟨fun s c r op i e hc ht hop hcases hf => ?die, fun s r i e ht hop hf => ?nop, fun s r i e ht hi hop hf => ?fence,
    fun s r i e ht hi hop hf hoff => fill_waits ht hi hop hf hoff,
    fun s r i e ht hi hop hf hoff hstripe hadm => fill_stranded ht hi hop hf hoff hstripe hadm⟩
  case die =>
    exact opcode_leaves hc ht hop hf (opcodeGo_toDie _ hc hop hcases (m := takeTurn r s.mx) hf)
  case nop =>
    exact opcode_leaves rfl ht hop hf (conclude_eq (m := takeTurn r s.mx) _ 0 0 (by simp [hop, earlyFree]))
  case fence =>
    obtain ⟨t, hexec, hent, hents, hring, hrings, hkeep⟩ :=
      opcode_leaves (c := .fence r) rfl ht hop hf (goFence_takeTurn hi hop s.mx)
    exact ⟨t, hexec, by rw [hring], hent, hring, hrings, hents, hkeep⟩

end Sys2Proof.Machine
end

section
/-! PROOFS. A Weron port: the credits it counts and what they let it issue (02_boundary.md R44 to R48). -/

namespace Sys2Proof.Machine

/-! ## Commands at a port, and the port that they write -/

/-- A command at one of the four ports acts. -/
theorem act_atPort (s : State) {p : Nat} (f : Mx → Mx) (hp : p < 4) :
    act s (onlyIf (isPort p) f) = .next { s with mx := f s.mx } := by
  have hport : isPort p = true := decide_eq_true hp
  rw [hport, act, onlyIf_true]

@[simp] theorem setPort_setPort (m : Mx) (p : Nat) (g h : Port) : setPort (setPort m p g) p h = setPort m p h := by
  simp [setPort, tabSet_tabSet]

theorem keepsBut_setPort (s : State) (p : Nat) (g : Port) : keepsBut [.hp] s { s with mx := setPort s.mx p g } :=
  ⟨rfl, fun p hp => by cases p <;> simp [Area.same] at hp ⊢⟩

theorem keepsBut_free (s : State) (n : Nat) : keepsBut [.free] s { s with mx := { s.mx with free := n } } :=
  ⟨rfl, fun p hp => by cases p <;> simp [Area.same] at hp ⊢⟩

theorem port_congr {m t : Mx} (h : t.hp = m.hp) (p : Nat) : port t p = port m p := by rw [port, port, h]

/-- A port written is the only port that changes. -/
theorem port_of_setPort {m t : Mx} {p : Nat} {g : Port} (h : t.hp = (setPort m p g).hp) :
    port t p = g ∧ ∀ q, q ≠ p → port t q = port m q :=
  ⟨by rw [port_congr h, port_setPort], fun q hq => by rw [port_congr h, port_setPort_ne _ _ _ _ hq.symm]⟩

/-- A raised source with its record. -/
theorem keepsBut_alarm (s : State) (k : RecKind) (x y z n : Nat) :
    keepsBut onRaise s { s with mx := raise (log s.mx k x y z) n } :=
  keepsBut_trans (keepsBut_log s k x y z) (keepsBut_raise { s with mx := log s.mx k x y z } n) (by simp [onRaise]) (by simp)

/-! ## Tags (R48, R59) -/

theorem exists_lt_notMem {l : List Nat} {n : Nat} (h : l.length < n) : ∃ t, t < n ∧ t ∉ l := by
  refine Classical.byContradiction fun hnone => ?_
  have hsub : List.range n ⊆ l := fun t ht =>
    Classical.byContradiction fun hfree => hnone ⟨t, List.mem_range.mp ht, hfree⟩
  have hlen := List.nodup_range.length_le_of_subset hsub
  rw [List.length_range] at hlen
  omega

/-- R48: while one of the 1,024 tags is free, the tag taken is a free one. -/
theorem freshTag_free {g : Port} (n : Nat) (h : (tagsUsed g).length < 1024) :
    freshTag g n < 1024 ∧ freshTag g n ∉ tagsUsed g := by
  obtain ⟨t, hlt, hfree⟩ := exists_lt_notMem h
  have hc : Config.pick n % 1024 < 1024 := Nat.mod_lt _ (by decide)
  unfold freshTag
  dsimp only
  generalize Config.pick n % 1024 = c at hc ⊢
  cases hfind : ((List.range 1024).map (fun i => (c + i) % 1024)).find? (fun t => !(tagsUsed g).contains t) with
  | none =>
    have hmem : t ∈ (List.range 1024).map (fun i => (c + i) % 1024) :=
      List.mem_map.mpr ⟨(t + 1024 - c) % 1024, List.mem_range.mpr (Nat.mod_lt _ (by decide)), by omega⟩
    have hused := List.find?_eq_none.mp hfind t hmem
    simp [hfree] at hused
  | some u =>
    obtain ⟨i, -, rfl⟩ := List.mem_map.mp (List.mem_of_find?_eq_some hfind)
    have hu := List.find?_some hfind
    exact ⟨Nat.mod_lt _ (by decide), by simpa using hu⟩

/-- R59: a port with 64 free tags does not drain for want of them. -/
theorem checkDrain_roomy {g : Port} (h : (tagsUsed g).length ≤ 960) : checkDrain g = g := by
  have hfree : ¬ tagsFree g < 64 := by unfold tagsFree; omega
  simp [checkDrain, hfree]

/-! ## What credits let a port do (R44, R46) -/

theorem sendBeats_none {g : Port} (h : g.owed = []) : sendBeats g = g := by
  obtain ⟨reqCr, wrCr, waiting, out, retired, owed, wire, drain, down⟩ := g
  cases h
  simp [sendBeats]

/-- A port that drains, is out of service or has nothing waiting issues nothing. -/
theorem issueLoop_stopped {g : Port} (l : List Req) (n : Nat) (h : l = [] ∨ g.drain = true ∨ g.down = true) :
    issueLoop l g n = ({ g with waiting := l }, n) := by
  cases l with
  | nil => rfl
  | cons q qs =>
    have hstop : g.drain = true ∨ g.down = true := by simpa using h
    rcases hstop with hdrain | hdown
    · simp [issueLoop, hdrain]
    · simp [issueLoop, hdown]

/-- R44; 15_startup_reset_power.md R542: a port that issues nothing only sends the beats it owes. -/
theorem pump_stopped {m : Mx} {p : Nat} (h : (port m p).waiting = [] ∨ (port m p).drain = true ∨ (port m p).down = true ∨
    m.gl.phase = .warm) : pump m p = setPort m p (sendBeats (port m p)) := by
  have hloop : m.gl.phase ≠ .warm →
      issueLoop (port m p).waiting (port m p) m.free = (port m p, m.free) := fun hw =>
    issueLoop_stopped _ _ (by simpa [hw] using h)
  unfold pump
  by_cases hw : m.gl.phase = .warm
  · simp only [hw, if_true]; rfl
  · simp only [hw, if_false, hloop hw]; rfl

section
variable {m : Mx} {p : Nat} {g : Port} (h : g.waiting = [] ∨ g.drain = true ∨ g.down = true ∨ m.gl.phase = .warm)
include h

theorem pump_sends : pump (setPort m p g) p = setPort m p (sendBeats g) := by
  rw [pump_stopped (by simpa using h), port_setPort, setPort_setPort]

/-- A credit that lets a port neither issue nor send is only counted. -/
theorem pump_counts (howed : g.owed = []) : pump (setPort m p g) p = setPort m p g := by
  rw [pump_sends h, sendBeats_none howed]

end

/-! ## Credits counted (R45) -/

/-- A command that writes one port. -/
theorem portCommand_leaves {s : State} {c : Instr} {p : Nat} {g : Port}
    (hexec : exec c s = .next { s with mx := setPort s.mx p g }) :
    ∃ t, exec c s = .next t ∧ port t.mx p = g ∧ (∀ q, q ≠ p → port t.mx q = port s.mx q) ∧ keepsBut [.hp] s t := by
  obtain ⟨hport, hports⟩ := port_of_setPort (m := s.mx) (t := setPort s.mx p g) rfl
  exact ⟨_, hexec, hport, hports, keepsBut_setPort s p g⟩

/-- R45: a credit too many is ignored, and leaves HP_CRD and a record of the port. -/
theorem creditTooMany {s : State} {c : Instr} {p : Nat}
    (hexec : exec c s = .next { s with mx := raise (log s.mx .hpCrd p) 267 }) :
    ∃ t, exec c s = .next t ∧ t.mx = raise (log s.mx .hpCrd p) 267 ∧ 267 ∈ t.mx.ic.pend ∧ keepsBut onRaise s t :=
  ⟨_, hexec, rfl, mem_raise _ _, keepsBut_alarm s _ _ _ _ _⟩

/-- A port with one more request credit, or one more write-data credit. -/
def moreReq (g : Port) : Port := { g with reqCr := g.reqCr + 1 }
def moreWr (g : Port) : Port := { g with wrCr := g.wrCr + 1 }

section
variable {s : State} {p : Nat} (hp : p < 4)
include hp

theorem exec_requestCredit (h : (port s.mx p).reqCr < 64) :
    exec (.requestCredit p) s = .next { s with mx := pump (setPort s.mx p (moreReq (port s.mx p))) p } := by
  have hcount : creditRequest p s.mx = pump (setPort s.mx p (moreReq (port s.mx p))) p := if_pos h
  rw [← hcount]
  exact act_atPort s (creditRequest p) hp

theorem exec_writeCredit (h : (port s.mx p).wrCr < 256) :
    exec (.writeCredit p) s = .next { s with mx := pump (setPort s.mx p (moreWr (port s.mx p))) p } := by
  have hcount : creditWrite p s.mx = pump (setPort s.mx p (moreWr (port s.mx p))) p := if_pos h
  rw [← hcount]
  exact act_atPort s (creditWrite p) hp

theorem exec_requestCredit_full (h : 64 ≤ (port s.mx p).reqCr) :
    exec (.requestCredit p) s = .next { s with mx := raise (log s.mx .hpCrd p) 267 } := by
  have hfull : creditRequest p s.mx = raise (log s.mx .hpCrd p) 267 := if_neg (Nat.not_lt.mpr h)
  rw [← hfull]
  exact act_atPort s (creditRequest p) hp

theorem exec_writeCredit_full (h : 256 ≤ (port s.mx p).wrCr) :
    exec (.writeCredit p) s = .next { s with mx := raise (log s.mx .hpCrd p) 267 } := by
  have hfull : creditWrite p s.mx = raise (log s.mx .hpCrd p) 267 := if_neg (Nat.not_lt.mpr h)
  rw [← hfull]
  exact act_atPort s (creditWrite p) hp

end

/-- Settles O16: a credit within the count is counted by a port that has nothing to do with it, and one more is an alarm. -/
theorem creditsCounted : Obligations.CreditsCounted := by
  refine ⟨fun s p hp hroom howed hstop => portCommand_leaves (g := moreReq (port s.mx p)) ?_,
    fun s p hp hroom howed hstop => portCommand_leaves (g := moreWr (port s.mx p)) ?_,
    fun s p hp hfull => creditTooMany (exec_requestCredit_full hp hfull),
    fun s p hp hfull => creditTooMany (exec_writeCredit_full hp hfull)⟩
  · rw [exec_requestCredit hp hroom, pump_counts (g := moreReq (port s.mx p)) hstop howed]
  · rw [exec_writeCredit hp hroom, pump_counts (g := moreWr (port s.mx p)) hstop howed]

end Sys2Proof.Machine
end

section
/-! PROOFS. Answers to a port's requests (02_boundary.md R49 to R58): where an answer goes, and what an alarm's message may do at
a port in the meantime. -/

namespace Sys2Proof.Machine

/-! ## Commands that let Dome's and the configuration's accesses go on -/

/-- With no such access under way nothing follows an answer. -/
theorem ownTurn_none {m : Mx} (h : noFetch m) : ownTurn m = m := by
  obtain ⟨hcfg, hhost⟩ := h
  simp [ownTurn, hostGot, cfgGot, hcfg, hhost]

theorem noFetch_of_keepsBut {l : List Area} {s t : State} (h : noFetch s.mx) (hkeep : keepsBut l s t)
    (hl : .gl ∉ l ∧ .dm ∉ l) : noFetch t.mx := by
  have hgl : t.mx.gl = s.mx.gl := keepsBut_same hkeep .gl hl.1
  have hdm : t.mx.dm = s.mx.dm := keepsBut_same hkeep .dm hl.2
  rwa [noFetch, hgl, hdm]

section
variable {s : State} {m : Mx} {p tag : Nat} {l : List Area} (hnf : noFetch s.mx) (hp : p < 4) (htag : tag < 1024)
  (hkeep : keepsBut l s { s with mx := m }) (hl : .gl ∉ l ∧ .dm ∉ l)
include hnf hp htag hkeep hl

theorem exec_responseBeat {kind last : Bool} {stat : Nat} {d : BitVec 1024}
    (hbeat : beat p kind tag (stat % 4) d last s.mx = m) :
    exec (.responseBeat p kind tag stat d last) s = .next { s with mx := m } := by
  have hturn : ownTurn (beat p kind (tag % 1024) (stat % 4) d last s.mx) = m := by
    rw [Nat.mod_eq_of_lt htag, hbeat, ownTurn_none (noFetch_of_keepsBut hnf hkeep hl)]
  calc exec (.responseBeat p kind tag stat d last) s
      = .next { s with mx := ownTurn (beat p kind (tag % 1024) (stat % 4) d last s.mx) } :=
        act_atPort s (fun m => ownTurn (beat p kind (tag % 1024) (stat % 4) d last m)) hp
    _ = _ := by rw [hturn]

theorem exec_hostRequestTmo (htmo : timeOut p tag s.mx = m) : exec (.hostRequestTmo p tag) s = .next { s with mx := m } := by
  have hturn : ownTurn (timeOut p (tag % 1024) s.mx) = m := by
    rw [Nat.mod_eq_of_lt htag, htmo, ownTurn_none (noFetch_of_keepsBut hnf hkeep hl)]
  calc exec (.hostRequestTmo p tag) s = .next { s with mx := ownTurn (timeOut p (tag % 1024) s.mx) } :=
        act_atPort s (fun m => ownTurn (timeOut p (tag % 1024) m)) hp
    _ = _ := by rw [hturn]

end

/-! ## Where an answer goes (R57) -/

/-- R57: the record that a failed request leaves. -/
def failNoted (p : Nat) (q : Req) (c : Option Cause) (m : Mx) : Mx :=
  match c with
  | some f => log m .reqFailed p (causeCode f) (purposeCode q.why)
  | none => m

theorem settle_eq (p : Nat) (q : Req) (c : Option Cause) (data : Mem) (m : Mx) :
    settle p q c data m = handBack q c data (failNoted p q c m) := rfl

theorem keepsBut_failNoted (s : State) (p : Nat) (q : Req) (c : Option Cause) :
    keepsBut [.nl] s { s with mx := failNoted p q c s.mx } := by
  cases c with
  | none => exact keepsBut_refl s _
  | some f => exact keepsBut_log s _ _ _ _

section
variable (s : State) (p : Nat) {q : Req} (c : Option Cause) (data : Mem)

/-- The answer to a fetch's READ waits at its ring. -/
theorem settle_fetch {r : Nat} (h : q.why = .fetch r) :
    ring (settle p q c data s.mx) r = { ring s.mx r with ans := some (c, data) } ∧
    (∀ i, i ≠ r → ring (settle p q c data s.mx) i = ring s.mx i) ∧
    keepsBut [.qe, .nl] s { s with mx := settle p q c data s.mx } := by
  have hnote := keepsBut_failNoted s p q c
  have hqe : (failNoted p q c s.mx).qe = s.mx.qe := keepsBut_same hnote .qe (by simp)
  have hsame (i : Nat) : ring (failNoted p q c s.mx) i = ring s.mx i := by rw [ring, ring, hqe]
  have hset : settle p q c data s.mx = setRing (failNoted p q c s.mx) r { ring s.mx r with ans := some (c, data) } := by
    rw [settle_eq, handBack, h, ← hsame r]
  rw [hset]
  exact ⟨ring_setRing _ r _, fun i hi => (ring_setRing_ne _ r i _ hi.symm).trans (hsame i),
    keepsBut_trans hnote (keepsBut_setRing { s with mx := failNoted p q c s.mx } r _) (by simp) (by simp)⟩

/-- The answer to a WRITE_ORD waits at its entry. -/
theorem settle_ord {e : Nat} {x : Ent} (h : q.why = .cplOrd e) (hent : ent s.mx e = some x) :
    ent (settle p q c data s.mx) e = some { x with ordAns := some c } ∧
    (∀ i, i ≠ e → ent (settle p q c data s.mx) i = ent s.mx i) ∧
    keepsBut [.ents, .nl] s { s with mx := settle p q c data s.mx } := by
  have hnote := keepsBut_failNoted s p q c
  have hents : (failNoted p q c s.mx).ents = s.mx.ents := keepsBut_same hnote .ents (by simp)
  have hsame (i : Nat) : ent (failNoted p q c s.mx) i = ent s.mx i := by rw [ent, ent, hents]
  have hset : settle p q c data s.mx = setEnt (failNoted p q c s.mx) e { x with ordAns := some c } := by
    simp only [settle_eq, handBack, h, hsame e, hent]
  rw [hset]
  exact ⟨ent_setEnt _ e _, fun i hi => (ent_setEnt_ne _ e i _ hi.symm).trans (hsame i),
    keepsBut_trans hnote (keepsBut_setEnt { s with mx := failNoted p q c s.mx } e _) (by simp) (by simp)⟩

end

/-! ## What a request may do at its port (R44, R46) -/

theorem port_pump (m : Mx) (p : Nat) : port (pump m p) p =
    sendBeats (if m.gl.phase = .warm then port m p else (issueLoop (port m p).waiting (port m p) m.free).1) := by
  unfold pump
  dsimp only
  split
  · exact port_setPort m p _
  · exact port_setPort m p _

theorem port_pump_ne {m : Mx} {p i : Nat} (h : i ≠ p) : port (pump m i) p = port m p := port_setPort_ne m i p _ h

/-! ## What an alarm may do at a port (13_interrupts.md R485 to R487) -/

section
variable {P : Port → Prop} {p : Nat}
  (hreq : ∀ (m : Mx) (q : Req), (port m p).down = false → P (port m p) → P (port (request m p q) p))
include hreq

theorem request_keepsPort {m : Mx} {i : Nat} (q : Req) (hup : (port m i).down = false) (h : P (port m p)) :
    P (port (request m i q) p) := by
  by_cases hi : i = p
  · subst hi
    exact hreq m q hup h
  · have hport : port (request m i q) p = port m p := by
      rw [request, port_pump_ne hi, port_setPort_ne _ _ _ _ hi]
    rwa [hport]

theorem sendMsg_keepsPort {m : Mx} (t : Nat) (h : P (port m p)) : P (port (sendMsg m t).1 p) := by
  unfold sendMsg
  dsimp only
  split
  next => rwa [port_congr (by simp [msgFault] : (msgFault m t .outOfService).hp = m.hp)]
  next hup => exact request_keepsPort hreq _ (Bool.not_eq_true _ ▸ hup) h

theorem judge_keepsPort {m : Mx} (t : Nat) (h : P (port m p)) : P (port (judge m t).1 p) := by
  unfold judge
  dsimp only
  repeat' split
  case isTrue.isFalse => exact sendMsg_keepsPort hreq t h
  all_goals exact h

theorem judgeAll_keepsPort {m : Mx} (l : List Nat) (h : P (port m p)) : P (port (judgeAll m l).1 p) := by
  induction l generalizing m with
  | nil => exact h
  | cons t l ih => exact ih (judge_keepsPort hreq t h)

/-- A raised source sends at most messages: what every request made of a port in service keeps, it keeps. -/
theorem raise_keepsPort {m : Mx} (k : Nat) (h : P (port m p)) : P (port (raise m k) p) := by
  have hpend (x : Mx) (n : Nat) : port (setPend x n) p = port x p := port_congr rfl p
  have hfirst : P (port (judgeAll (setPend m k) (List.range 32)).1 p) :=
    judgeAll_keepsPort hreq _ (by rwa [hpend])
  unfold raise deliver
  dsimp only
  split
  · exact judgeAll_keepsPort hreq _ (by rwa [hpend])
  · exact hfirst

end

/-- R60: no message goes out on a port that is out of service. -/
theorem raise_portDown {m : Mx} {p : Nat} (k : Nat) (h : (port m p).down = true) : port (raise m k) p = port m p :=
  raise_keepsPort (P := fun g => g = port m p) (fun m' q hup hg => by simp [hg, h] at hup) k rfl

end Sys2Proof.Machine
end

section
/-! PROOFS. The end of a port's drain (02_boundary.md R59, R60): confirmed, or not. -/

namespace Sys2Proof.Machine

/-- No warm reset waits for a port. -/
theorem warmTurn_none {m : Mx} (h : m.gl.warm = none) : warmTurn m = m := by simp [warmTurn, h]

section
variable {s : State} {m : Mx} {p : Nat} {l : List Area} (hnf : noFetch s.mx) (hp : p < 4) (hwarm : s.mx.gl.warm = none)
  (hkeep : keepsBut l s { s with mx := m }) (hl : .gl ∉ l ∧ .dm ∉ l)
include hnf hwarm hkeep hl

theorem turns_none : warmTurn (ownTurn m) = m := by
  have hgl : m.gl = s.mx.gl := keepsBut_same hkeep .gl hl.1
  rw [ownTurn_none (noFetch_of_keepsBut hnf hkeep hl), warmTurn_none (by rw [hgl, hwarm])]

include hp

theorem exec_drained (h : drainDone p s.mx = m) : exec (.drained p) s = .next { s with mx := m } := by
  calc exec (.drained p) s = .next { s with mx := warmTurn (ownTurn (drainDone p s.mx)) } :=
        act_atPort s (fun m => warmTurn (ownTurn (drainDone p m))) hp
    _ = _ := by rw [h, turns_none hnf hwarm hkeep hl]

theorem exec_hpDown (h : portDown p s.mx = m) : exec (.hpDown p) s = .next { s with mx := m } := by
  calc exec (.hpDown p) s = .next { s with mx := warmTurn (ownTurn (portDown p s.mx)) } :=
        act_atPort s (fun m => warmTurn (ownTurn (portDown p m))) hp
    _ = _ := by rw [h, turns_none hnf hwarm hkeep hl]

end

/-! ## The drain is confirmed (R59) -/

/-- A port once DRAINED has risen. -/
def drainedPort (g : Port) : Port :=
  { g with out := [], retired := [], reqCr := 0, wrCr := 0, owed := [], drain := false, down := false }

theorem drainDone_eq {m : Mx} {p : Nat} (h : (port m p).drain = true) : drainDone p m =
    each (port m p).out (fun o m => settle p o.req (some .drained) [] m) (setPort m p (drainedPort (port m p))) := by
  simp [drainDone, h, drainedPort]

/-- Nothing was outstanding. -/
theorem drained_idle {s : State} {p : Nat} (hp : p < 4) (hdrain : (port s.mx p).drain = true) (hout : (port s.mx p).out = [])
    (hwarm : s.mx.gl.warm = none) (hnf : noFetch s.mx) :
    ∃ t, exec (.drained p) s = .next t ∧ keepsBut [.hp] s t ∧ (∀ q, q ≠ p → port t.mx q = port s.mx q) ∧ port t.mx p =
      { port s.mx p with retired := [], reqCr := 0, wrCr := 0, owed := [], drain := false, down := false } := by
  have hdone : drainDone p s.mx = setPort s.mx p (drainedPort (port s.mx p)) := by
    rw [drainDone_eq hdrain, hout, each_nil]
  have hkeep := keepsBut_setPort s p (drainedPort (port s.mx p))
  obtain ⟨t, hexec, hport, hports, hkept⟩ := portCommand_leaves (exec_drained hnf hp hwarm hkeep (by simp) hdone)
  exact ⟨t, hexec, hkept, hports, by rw [hport, drainedPort, ← hout]⟩

/-- A fetch's READ was outstanding: it has failed. -/
theorem drained_fetch {s : State} {p r : Nat} {o : Out} (hp : p < 4) (hdrain : (port s.mx p).drain = true)
    (hout : (port s.mx p).out = [o]) (hwhy : o.req.why = .fetch r) (hwarm : s.mx.gl.warm = none) (hnf : noFetch s.mx) :
    ∃ t, exec (.drained p) s = .next t ∧ ring t.mx r = { ring s.mx r with ans := some (some .drained, []) } ∧
      (∀ q, q ≠ r → ring t.mx q = ring s.mx q) ∧ keepsBut [.hp, .qe, .nl] s t ∧ (∀ q, q ≠ p → port t.mx q = port s.mx q) ∧
      port t.mx p = { port s.mx p with
        out := [], retired := [], reqCr := 0, wrCr := 0, owed := [], drain := false, down := false } := by
  let u : State := { s with mx := setPort s.mx p (drainedPort (port s.mx p)) }
  have hdone : drainDone p s.mx = settle p o.req (some .drained) [] u.mx := by rw [drainDone_eq hdrain, hout]; rfl
  obtain ⟨hring, hrings, hsettle⟩ := settle_fetch u p (some .drained) [] hwhy
  have hkeep : keepsBut [.hp, .qe, .nl] s { s with mx := settle p o.req (some .drained) [] u.mx } :=
    keepsBut_trans (keepsBut_setPort s p _) hsettle (by simp) (by simp)
  obtain ⟨hport, hports⟩ := port_of_setPort (m := s.mx) (t := settle p o.req (some .drained) [] u.mx) (p := p)
    (g := drainedPort (port s.mx p)) (keepsBut_same hsettle .hp (by simp))
  exact ⟨_, exec_drained hnf hp hwarm hkeep (by simp) hdone, hring, hrings, hkeep, hports, hport⟩

/-! ## The drain is not confirmed (R60) -/

/-- A port out of service. -/
def lostPort (g : Port) : Port :=
  { g with out := [], waiting := [], owed := [], down := true,
           retired := g.retired ++ g.out.map (fun o => { tag := o.tag, op := o.req.op }) }

/-- HP_DOWN: the port is out of service, with its record and its event. -/
def downAlarm (p : Nat) (m : Mx) : Mx := raise (log (setPort m p (lostPort (port m p))) .hpDown p) 268

theorem portDown_eq {m : Mx} {p : Nat} (hdrain : (port m p).drain = true) (hup : (port m p).down = false) : portDown p m =
    each ((port m p).out.map (·.req) ++ (port m p).waiting) (fun q m => settle p q (some .outOfService) [] m)
      (each (port m p).waiting neverIssued (downAlarm p m)) := by
  simp [portDown, hdrain, hup, downAlarm, lostPort]

theorem mem_downAlarm_pend (p : Nat) (m : Mx) : 268 ∈ (downAlarm p m).ic.pend := mem_raise _ _

theorem keepsBut_downAlarm (s : State) (p : Nat) : keepsBut onRaise s { s with mx := downAlarm p s.mx } :=
  keepsBut_trans (keepsBut_setPort s p _) (keepsBut_alarm { s with mx := setPort s.mx p _ } _ _ _ _ _) (by simp [onRaise])
    (by simp)

/-- No message of the event's own goes out on the port. -/
theorem port_downAlarm (p : Nat) (m : Mx) : port (downAlarm p m) p = lostPort (port m p) := by
  have hlost : port (log (setPort m p (lostPort (port m p))) .hpDown p) p = lostPort (port m p) := by
    rw [port_congr (log_hp _ _ _ _ _), port_setPort]
  exact (raise_portDown 268 (by rw [hlost]; rfl)).trans hlost

theorem hpDown_idle {s : State} {p : Nat} (hp : p < 4) (hdrain : (port s.mx p).drain = true) (hup : (port s.mx p).down = false)
    (hout : (port s.mx p).out = []) (hwait : (port s.mx p).waiting = []) (hwarm : s.mx.gl.warm = none) (hnf : noFetch s.mx) :
    ∃ t, exec (.hpDown p) s = .next t ∧ 268 ∈ t.mx.ic.pend ∧ (port t.mx p).down = true ∧ (port t.mx p).owed = [] ∧
      keepsBut onRaise s t := by
  have hdown : portDown p s.mx = downAlarm p s.mx := by rw [portDown_eq hdrain hup, hout, hwait]; rfl
  have hkeep := keepsBut_downAlarm s p
  exact ⟨_, exec_hpDown hnf hp hwarm hkeep (by simp [onRaise]) hdown, mem_downAlarm_pend p s.mx, by rw [port_downAlarm]; rfl,
    by rw [port_downAlarm]; rfl, hkeep⟩

/-- A fetch's READ that was still waiting has failed. -/
theorem hpDown_fetch {s : State} {p r : Nat} {q : Req} (hp : p < 4) (hdrain : (port s.mx p).drain = true)
    (hup : (port s.mx p).down = false) (hout : (port s.mx p).out = []) (hwait : (port s.mx p).waiting = [q])
    (hwhy : q.why = .fetch r) (hwarm : s.mx.gl.warm = none) (hnf : noFetch s.mx) :
    ∃ t, exec (.hpDown p) s = .next t ∧ 268 ∈ t.mx.ic.pend ∧ (port t.mx p).down = true ∧ (port t.mx p).waiting = [] ∧
      ring t.mx r = { ring s.mx r with ans := some (some .outOfService, []) } ∧ keepsBut (.qe :: onRaise) s t := by
  let u : State := { s with mx := downAlarm p s.mx }
  have hissued : neverIssued q u.mx = u.mx := by simp [neverIssued, hwhy]
  have hdown : portDown p s.mx = settle p q (some .outOfService) [] u.mx := by
    rw [portDown_eq hdrain hup, hout, hwait]
    exact congrArg (settle p q (some .outOfService) []) hissued
  obtain ⟨hring, -, hsettle⟩ := settle_fetch u p (some .outOfService) [] hwhy
  have halarm := keepsBut_downAlarm s p
  have hkeep : keepsBut (.qe :: onRaise) s { s with mx := settle p q (some .outOfService) [] u.mx } :=
    keepsBut_trans halarm hsettle (by simp) (by simp [onRaise])
  have hic : (settle p q (some .outOfService) [] u.mx).ic = u.mx.ic := keepsBut_same hsettle .ic (by simp)
  have hport : port (settle p q (some .outOfService) [] u.mx) p = lostPort (port s.mx p) :=
    (port_congr (keepsBut_same hsettle .hp (by simp)) p).trans (port_downAlarm p s.mx)
  have hqe : u.mx.qe = s.mx.qe := keepsBut_same halarm .qe (by simp [onRaise])
  have hsame : ring u.mx r = ring s.mx r := by rw [ring, ring, hqe]
  exact ⟨_, exec_hpDown hnf hp hwarm hkeep (by simp [onRaise]) hdown, by rw [hic]; exact mem_downAlarm_pend p s.mx,
    by rw [hport]; rfl, by rw [hport]; rfl, by rw [hring, hsame], hkeep⟩

/-- Settles O9: what becomes of the port and of the request it held, by whether DRAINED rose and whether it held one. -/
theorem portDrainEnds : Obligations.PortDrainEnds :=
  ⟨fun _ _ hp hdrain hout hwarm hnf => drained_idle hp hdrain hout hwarm hnf,
    fun _ _ _ _ hp hdrain hout hwhy hwarm hnf => drained_fetch hp hdrain hout hwhy hwarm hnf,
    fun _ _ hp hdrain hup hout hwait hwarm hnf => hpDown_idle hp hdrain hup hout hwait hwarm hnf,
    fun _ _ _ _ hp hdrain hup hout hwait hwhy hwarm hnf => hpDown_fetch hp hdrain hup hout hwait hwhy hwarm hnf⟩

end Sys2Proof.Machine
end

section
/-! PROOFS. A port's requests and their responses (02_boundary.md R44 to R58): a request issued, a beat sent, a response taken, a
request timed out, and the beats that no request waits for. -/

namespace Sys2Proof.Machine

/-! ## A credit that is waited for (R44, R46) -/

/-- A port that has issued a request under a tag. -/
def issued (g : Port) (tag : Nat) (q : Req) : Port :=
  { g with reqCr := g.reqCr - 1, out := g.out ++ [{ tag := tag, req := q }], owed := g.owed ++ beatsOf tag q }

theorem tagsUsed_issued (g : Port) (tag : Nat) (q : Req) :
    (tagsUsed (issued g tag q)).length = (tagsUsed g).length + 1 := by
  simp [tagsUsed, issued]
  omega

/-- R44, R46: the credit a waiting request needs. -/
theorem issueLoop_one {g : Port} {q : Req} (n : Nat) (hcr : g.reqCr ≠ 0) (hdrain : g.drain = false) (hdown : g.down = false)
    (hroom : (tagsUsed g).length < 960) :
    issueLoop [q] g n = ({ issued g (freshTag g n) q with waiting := [] }, n + 1) := by
  have hroomy : checkDrain (issued g (freshTag g n) q) = issued g (freshTag g n) q :=
    checkDrain_roomy (by rw [tagsUsed_issued]; exact hroom)
  calc issueLoop [q] g n = issueLoop [] (checkDrain (issued g (freshTag g n) q)) (n + 1) := by
        simp [issueLoop, hcr, hdrain, hdown, issued]
    _ = _ := by rw [hroomy, issueLoop]

theorem sendBeats_noCredit {g : Port} (h : g.wrCr = 0) : sendBeats g = g := by
  obtain ⟨reqCr, wrCr, waiting, out, retired, owed, wire, drain, down⟩ := g
  cases h
  simp [sendBeats]

/-- R46: one write-data credit sends the oldest beat owed. -/
theorem sendBeats_one {g : Port} {b : Beat} {bs : List Beat} (hcr : g.wrCr = 0) (howed : g.owed = b :: bs) :
    sendBeats (moreWr g) = { g with owed := bs, wire := [b] } := by
  simp [sendBeats, moreWr, hcr, howed]

theorem pump_issues {m : Mx} {p : Nat} {g : Port} {q : Req} (hphase : m.gl.phase ≠ .warm) (hwait : g.waiting = [q])
    (hcr : g.reqCr ≠ 0) (hwr : g.wrCr = 0) (hdrain : g.drain = false) (hdown : g.down = false)
    (hroom : (tagsUsed g).length < 960) : pump (setPort m p g) p =
      { setPort m p { issued g (freshTag g m.free) q with waiting := [] } with free := m.free + 1 } := by
  have hsend : sendBeats { issued g (freshTag g m.free) q with waiting := [] } =
      { issued g (freshTag g m.free) q with waiting := [] } := sendBeats_noCredit hwr
  unfold pump
  simp only [setPort_gl, hphase, if_false, port_setPort, setPort_free, hwait, issueLoop_one m.free hcr hdrain hdown hroom,
    hsend, setPort_setPort]

/-- R44, R47, R48: the request credit that a waiting request needs issues it. -/
theorem requestCredit_issues {s : State} {p : Nat} {q : Req} (hp : p < 4) (hphase : s.mx.gl.phase ≠ .warm)
    (hwait : (port s.mx p).waiting = [q]) (hcr : (port s.mx p).reqCr = 0) (hwr : (port s.mx p).wrCr = 0)
    (hdrain : (port s.mx p).drain = false) (hdown : (port s.mx p).down = false)
    (hroom : (tagsUsed (port s.mx p)).length < 900) :
    ∃ t tag, exec (.requestCredit p) s = .next t ∧ tag < 1024 ∧ tag ∉ tagsUsed (port s.mx p) ∧
      (port t.mx p).out = (port s.mx p).out ++ [{ tag := tag, req := q }] ∧ (port t.mx p).waiting = [] ∧
      (port t.mx p).reqCr = 0 ∧ (port t.mx p).drain = false ∧
      (port t.mx p).owed = (port s.mx p).owed ++ beatsOf tag q ∧ (∀ i, i ≠ p → port t.mx i = port s.mx i) ∧
      keepsBut [.hp, .free] s t := by
  let g := moreReq (port s.mx p)
  let u := setPort s.mx p { issued g (freshTag g s.mx.free) q with waiting := [] }
  have hpump : pump (setPort s.mx p g) p = { u with free := s.mx.free + 1 } :=
    pump_issues hphase hwait (Nat.succ_ne_zero _) hwr hdrain hdown (Nat.lt_trans hroom (by decide))
  have hexec : exec (.requestCredit p) s = .next { s with mx := { u with free := s.mx.free + 1 } } := by
    rw [exec_requestCredit hp (by omega), hpump]
  obtain ⟨htag, hfresh⟩ := freshTag_free (g := g) s.mx.free (Nat.lt_trans hroom (by decide))
  obtain ⟨hport, hports⟩ := port_of_setPort (m := s.mx) (t := { u with free := s.mx.free + 1 }) (p := p)
    (g := { issued g (freshTag g s.mx.free) q with waiting := [] }) rfl
  exact ⟨_, freshTag g s.mx.free, hexec, htag, hfresh, congrArg Port.out hport, congrArg Port.waiting hport,
    (congrArg Port.reqCr hport).trans hcr, (congrArg Port.drain hport).trans hdrain, congrArg Port.owed hport, hports,
    keepsBut_trans (keepsBut_setPort s p _) (keepsBut_free { s with mx := u } _) (by simp) (by simp)⟩

/-- R46: the write-data credit that a beat owed needs sends it. -/
theorem writeCredit_sends {s : State} {p : Nat} {b : Beat} {bs : List Beat} (hp : p < 4) (hcr : (port s.mx p).wrCr = 0)
    (howed : (port s.mx p).owed = b :: bs) (hwait : (port s.mx p).waiting = []) :
    ∃ t, exec (.writeCredit p) s = .next t ∧ port t.mx p = { port s.mx p with owed := bs, wire := [b] } ∧
      (∀ i, i ≠ p → port t.mx i = port s.mx i) ∧ keepsBut [.hp] s t := by
  apply portCommand_leaves
  rw [exec_writeCredit hp (by omega), pump_sends (g := moreWr (port s.mx p)) (.inl hwait), sendBeats_one hcr howed]

/-! ## A request answered, or not in time (R49, R55, R56, R58) -/

section
variable {m : Mx} {p tag : Nat} {o : Out} (hout : (port m p).out = [o]) (htag : o.tag = tag)
include hout htag

theorem find_out : (port m p).out.find? (fun x => x.tag == tag) = some o := by simp [hout, htag]

theorem dropOut_answered (hret : (port m p).retired = []) :
    dropOut m p tag none = setPort m p { port m p with out := [] } := by
  have hroomy : checkDrain { port m p with out := [] } = { port m p with out := [] } :=
    checkDrain_roomy (by simp [tagsUsed, hret])
  rw [← hroomy]
  simp [dropOut, hout, htag]

/-- R58: a tag whose request has failed is retired. -/
theorem dropOut_retired (hret : (port m p).retired = []) (op : ReqOp) :
    dropOut m p tag (some op) = setPort m p { port m p with out := [], retired := [{ tag := tag, op := op }] } := by
  have hroomy : checkDrain { port m p with out := [], retired := [{ tag := tag, op := op }] } =
      { port m p with out := [], retired := [{ tag := tag, op := op }] } := checkDrain_roomy (by simp [tagsUsed])
  rw [← hroomy]
  simp [dropOut, hout, htag, hret]

/-- R49, R55: the last beat of a READ of which all have come. -/
theorem beat_lastRead (stat : Nat) (d : BitVec 1024) (hop : o.req.op = .read) (hgot : o.got + 1 = o.req.beats)
    (hbad : o.bad = none) (hret : (port m p).retired = []) : beat p false tag stat d true m =
      settle p o.req (statCause stat) (placeBeat o d) (setPort m p { port m p with out := [] }) := by
  unfold beat
  rw [find_out hout htag]
  subst htag
  simp [hop, readBeat, hgot, hbad, dropOut_answered hout rfl hret]

/-- R49: a beat of a READ with more to come. -/
theorem beat_moreRead (stat : Nat) (d : BitVec 1024) (hop : o.req.op = .read) (hgot : o.got + 1 < o.req.beats) :
    beat p false tag stat d false m = setPort m p { port m p with
      out := [{ o with got := o.got + 1, data := placeBeat o d, bad := o.bad.or (statCause stat) }] } := by
  unfold beat
  rw [find_out hout htag]
  cases hbad : o.bad with
  | none => simp [hop, readBeat, hbad, Nat.ne_of_lt hgot, hout]
  | some c => simp [hop, readBeat, hbad, Nat.ne_of_lt hgot, hout]

/-- R49, R55: the response to a write all of whose beats have been sent. -/
theorem beat_written (stat : Nat) (d : BitVec 1024) (hop : o.req.op ≠ .read) (howed : ∀ b ∈ (port m p).owed, b.tag ≠ tag)
    (hret : (port m p).retired = []) : beat p true tag stat d true m =
      settle p o.req (statCause stat) [] (setPort m p { port m p with out := [] }) := by
  have hsent : tooEarly (port m p) tag = false := by simpa [tooEarly] using howed
  unfold beat
  rw [find_out hout htag]
  simp [hop, hsent, dropOut_answered hout htag hret]

/-- R49, R51: the response to a write with a beat still owed. -/
theorem beat_tooEarly (stat : Nat) (d : BitVec 1024) (last : Bool) (hop : o.req.op ≠ .read)
    (howed : ∃ b ∈ (port m p).owed, b.tag = tag) :
    beat p true tag stat d last m = protoFail p o (some o.req.op) 5 m := by
  have hearly : tooEarly (port m p) tag = true := by simpa [tooEarly] using howed
  unfold beat
  rw [find_out hout htag]
  simp [hop, hearly]

/-- R56: a request unanswered at DX_TMO. -/
theorem timeOut_retires (hret : (port m p).retired = []) : timeOut p tag m = settle p o.req (some .tmo) []
    (setPort m p { port m p with out := [], retired := [{ tag := tag, op := o.req.op }] }) := by
  unfold timeOut
  rw [find_out hout htag]
  simp [dropOut_retired hout htag hret]

end

/-- R51: a beat for a request that the port does not have. -/
theorem beat_stray {m : Mx} {p tag : Nat} (kind last : Bool) (stat : Nat) (d : BitVec 1024)
    (h : ∀ o ∈ (port m p).out, o.tag ≠ tag) : beat p kind tag stat d last m = strayBeat p kind tag last m := by
  have hnone : (port m p).out.find? (fun x => x.tag == tag) = none := by simpa using h
  unfold beat
  rw [hnone]

/-- R58: the rest of a retired request's response frees its tag. -/
theorem strayBeat_retired {m : Mx} {p tag : Nat} {r : Retired} {kind : Bool} (last : Bool) (hret : (port m p).retired = [r])
    (htag : r.tag = tag) (hkind : kind = true ∧ r.op ≠ .read ∨ kind = false ∧ r.op = .read) :
    strayBeat p kind tag last m =
      if kind = true ∨ last = true then setPort m p { port m p with retired := [] } else m := by
  rcases hkind with ⟨rfl, hop⟩ | ⟨rfl, hop⟩
  · simp [strayBeat, hret, htag, hop]
  · simp [strayBeat, hret, htag, hop]

theorem strayBeat_none {m : Mx} {p tag : Nat} (kind last : Bool) (h : ∀ x ∈ (port m p).retired, x.tag ≠ tag) :
    strayBeat p kind tag last m = protoFault p tag 1 m := by
  have hnone : (port m p).retired.find? (fun x => x.tag == tag) = none := by simpa using h
  simp [strayBeat, hnone]

/-! ## The answer reaches its purpose -/

section
variable {s : State} {p r e : Nat} {q : Req} {g : Port} {x : Ent} (c : Option Cause) (data : Mem)

/-- A fetch's READ has ended, and with it its port has changed. -/
theorem fetchAnswer_leaves (hwhy : q.why = .fetch r) :
    let t : State := { s with mx := settle p q c data (setPort s.mx p g) }
    port t.mx p = g ∧ ring t.mx r = { ring s.mx r with ans := some (c, data) } ∧
      (∀ i, i ≠ r → ring t.mx i = ring s.mx i) ∧ keepsBut [.hp, .qe, .nl] s t := by
  obtain ⟨hring, hrings, hsettle⟩ := settle_fetch { s with mx := setPort s.mx p g } p c data hwhy
  obtain ⟨hport, -⟩ := port_of_setPort (m := s.mx) (t := settle p q c data (setPort s.mx p g)) (p := p) (g := g)
    (keepsBut_same hsettle .hp (by simp))
  exact ⟨hport, hring, hrings, keepsBut_trans (keepsBut_setPort s p g) hsettle (by simp) (by simp)⟩

/-- A WRITE_ORD has ended, and with it its port has changed. -/
theorem ordAnswer_leaves (hwhy : q.why = .cplOrd e) (hent : ent s.mx e = some x) :
    let t : State := { s with mx := settle p q c data (setPort s.mx p g) }
    port t.mx p = g ∧ ent t.mx e = some { x with ordAns := some c } ∧ (∀ i, i ≠ e → ent t.mx i = ent s.mx i) ∧
      keepsBut [.hp, .ents, .nl] s t := by
  obtain ⟨hans, hents, hsettle⟩ := settle_ord { s with mx := setPort s.mx p g } p c data hwhy hent
  obtain ⟨hport, -⟩ := port_of_setPort (m := s.mx) (t := settle p q c data (setPort s.mx p g)) (p := p) (g := g)
    (keepsBut_same hsettle .hp (by simp))
  exact ⟨hport, hans, hents, keepsBut_trans (keepsBut_setPort s p g) hsettle (by simp) (by simp)⟩

end

/-! ## A tag that no request takes again -/

/-- A tag is retired on a port, which has a free one left or drains. -/
def shunned (tag : Nat) (g : Port) : Prop :=
  tag ∈ g.retired.map (·.tag) ∧ (∀ y ∈ g.out, y.tag ≠ tag) ∧ (g.drain = true ∨ (tagsUsed g).length ≤ 960)

theorem shunned_checkDrain {tag : Nat} {g : Port} (hret : tag ∈ g.retired.map (·.tag)) (hout : ∀ y ∈ g.out, y.tag ≠ tag) :
    shunned tag (checkDrain g) := by
  unfold checkDrain
  split
  next => exact ⟨hret, hout, .inl rfl⟩
  next hroom => exact ⟨hret, hout, .inr (by unfold tagsFree at hroom; omega)⟩

theorem shunned_issueLoop {tag : Nat} (l : List Req) {g : Port} (n : Nat) (h : shunned tag g) :
    shunned tag (issueLoop l g n).1 := by
  induction l generalizing g n with
  | nil => exact h
  | cons q qs ih =>
    unfold issueLoop
    split
    next => exact h
    next hgo =>
      obtain ⟨hret, hout, hroom⟩ := h
      have hdrain : g.drain ≠ true := fun hd => hgo (by simp [hd])
      have hfresh := (freshTag_free n (Nat.lt_of_le_of_lt (hroom.resolve_left hdrain) (by decide))).2
      have hne : freshTag g n ≠ tag := fun he => hfresh (by rw [he, tagsUsed]; exact List.mem_append_right _ hret)
      refine ih (n + 1) (shunned_checkDrain hret fun y hy => ?_)
      rcases List.mem_append.mp hy with hy | hy
      · exact hout y hy
      · have htag : y.tag = freshTag g n := by rw [List.mem_singleton.mp hy]
        rwa [htag]

/-- R48, R58: a request takes no retired tag. -/
theorem shunned_request {tag : Nat} {m : Mx} {p : Nat} (q : Req) (h : shunned tag (port m p)) :
    shunned tag (port (request m p q) p) := by
  rw [request, port_pump, port_setPort]
  split
  · exact h
  · exact shunned_issueLoop _ _ (g := { port m p with waiting := _ }) h

/-! ## A response that breaks the rules (R51) -/

theorem keepsBut_dropOut (s : State) (p tag : Nat) (retire : Option ReqOp) :
    keepsBut [.hp] s { s with mx := dropOut s.mx p tag retire } := keepsBut_setPort s p _

/-- A request that breaks off takes its tag off the port for good. -/
theorem shunned_dropOut (m : Mx) (p tag : Nat) (op : ReqOp) : shunned tag (port (dropOut m p tag (some op)) p) := by
  unfold dropOut
  dsimp only
  rw [port_setPort]
  exact shunned_checkDrain (by simp) (by simp)

theorem keepsBut_protoFault (s : State) (p tag fault : Nat) :
    keepsBut onRaise s { s with mx := protoFault p tag fault s.mx } := keepsBut_alarm s _ _ _ _ _

theorem shunned_protoFault {tag : Nat} {m : Mx} {p : Nat} (n fault : Nat) (h : shunned tag (port m p)) :
    shunned tag (port (protoFault p n fault m) p) :=
  raise_keepsPort (P := shunned tag) (fun _ q _ => shunned_request q) 301 (by rwa [port_congr (log_hp _ _ _ _ _)])

/-- R49, R51: a WRITE_ORD answered before its last beat was sent has failed, and its tag is retired. -/
theorem earlyOrd_leaves {s : State} {p tag stat e : Nat} {d : BitVec 1024} {o : Out} {b : Beat} {x : Ent}
    (hnf : noFetch s.mx) (hp : p < 4) (hlt : tag < 1024) (hout : (port s.mx p).out = [o]) (htag : o.tag = tag)
    (hop : o.req.op = .writeOrd) (hwhy : o.req.why = .cplOrd e) (hent : ent s.mx e = some x)
    (howed : (port s.mx p).owed = [b]) (hb : b.tag = tag) :
    ∃ t, exec (.responseBeat p true tag stat d true) s = .next t ∧ 301 ∈ t.mx.ic.pend ∧
      ent t.mx e = some { x with ordAns := some (some .proto) } ∧
      (∀ y ∈ (port t.mx p).out, y.tag ≠ tag ∨ y.req ≠ o.req) ∧ keepsBut (.ents :: onRaise) s t := by
  let u : State := { s with mx := dropOut s.mx p o.tag (some o.req.op) }
  let v : State := { s with mx := protoFault p o.tag 5 u.mx }
  have hbeat : beat p true tag (stat % 4) d true s.mx = settle p o.req (some .proto) [] v.mx :=
    beat_tooEarly hout htag _ d true (by simp [hop]) ⟨b, by simp [howed], hb⟩
  have hfault : keepsBut onRaise s v := keepsBut_trans (keepsBut_dropOut s p o.tag (some o.req.op))
    (keepsBut_protoFault u p o.tag 5) (by simp [onRaise]) (by simp)
  have hents : v.mx.ents = s.mx.ents := keepsBut_same hfault .ents (by simp [onRaise])
  obtain ⟨hans, -, hsettle⟩ := settle_ord v p (some .proto) [] hwhy (x := x) (by rw [ent, hents]; exact hent)
  have hkeep : keepsBut (.ents :: onRaise) s { s with mx := settle p o.req (some .proto) [] v.mx } :=
    keepsBut_trans hfault hsettle (by simp) (by simp [onRaise])
  have hic : (settle p o.req (some .proto) [] v.mx).ic = v.mx.ic := keepsBut_same hsettle .ic (by simp)
  have hport : port (settle p o.req (some .proto) [] v.mx) p = port v.mx p :=
    port_congr (keepsBut_same hsettle .hp (by simp)) p
  obtain ⟨-, hgone, -⟩ := shunned_protoFault o.tag 5 (shunned_dropOut s.mx p o.tag o.req.op)
  refine ⟨_, exec_responseBeat hnf hp hlt hkeep (by simp [onRaise]) hbeat, by rw [hic]; exact mem_raise _ _, hans,
    fun y hy => ?_, hkeep⟩
  rw [hport] at hy
  exact .inl (htag ▸ hgone y hy)

/-! ## The clauses of O17 -/

/-- Settles O17: a credit by what waits for it, a beat by the request or the retired tag that it answers. -/
theorem requestsAndResponses : Obligations.RequestsAndResponses := by
  refine ⟨fun s p q hp hphase hwait hcr hwr hdrain hdown hroom _ =>
      requestCredit_issues hp hphase hwait hcr hwr hdrain hdown hroom,
    fun s p b bs hp hcr howed hwait => writeCredit_sends hp hcr howed hwait,
    fun s p tag stat r d o hnf hp hlt hstat hout htag hop hgot hbad hwhy hret => ?read,
    fun s p tag r o hnf hp hlt hout htag hwhy hret => ?late,
    fun s p tag stat kind last d hnf hp hlt hout hret => ?stray,
    fun s p tag stat d o hnf hp hlt hstat hout htag hop hgot => ?more,
    fun s p tag stat e d o x hnf hp hlt hstat hout htag hop hwhy hent howed hret => ?written,
    fun s p tag stat e d o b x hnf hp hlt hout htag hop hwhy hent howed hb =>
      earlyOrd_leaves hnf hp hlt hout htag hop hwhy hent howed hb,
    fun s p tag stat kind last d r hnf hp hlt hout hret htag hkind => ?retired⟩
  case read =>
    have hbeat := beat_lastRead hout htag (stat % 4) d hop hgot hbad hret
    rw [Nat.mod_eq_of_lt hstat] at hbeat
    obtain ⟨hport, hring, hrings, hkeep⟩ := fetchAnswer_leaves (s := s) (p := p) (g := { port s.mx p with out := [] })
      (statCause stat) (placeBeat o d) hwhy
    exact ⟨_, exec_responseBeat hnf hp hlt hkeep (by simp) (by rwa [Nat.mod_eq_of_lt hstat]), hport, hring, hrings, hkeep⟩
  case late =>
    obtain ⟨hport, hring, hrings, hkeep⟩ := fetchAnswer_leaves (s := s) (p := p)
      (g := { port s.mx p with out := [], retired := [{ tag := tag, op := o.req.op }] }) (some .tmo) [] hwhy
    exact ⟨_, exec_hostRequestTmo hnf hp hlt hkeep (by simp) (timeOut_retires hout htag hret), hport, hring, hrings, hkeep⟩
  case stray =>
    have hkeep := keepsBut_protoFault s p tag 1
    exact ⟨_, exec_responseBeat hnf hp hlt hkeep (by simp [onRaise])
      ((beat_stray kind last _ d hout).trans (strayBeat_none kind last hret)), mem_raise _ _, hkeep⟩
  case more =>
    refine exec_responseBeat hnf hp hlt (keepsBut_setPort s p _) (by simp) ?_
    rw [Nat.mod_eq_of_lt hstat]
    exact beat_moreRead hout htag stat d hop hgot
  case written =>
    obtain ⟨hport, hans, hents, hkeep⟩ := ordAnswer_leaves (s := s) (p := p) (g := { port s.mx p with out := [] })
      (statCause stat) [] hwhy hent
    refine ⟨_, exec_responseBeat hnf hp hlt hkeep (by simp) ?_, hport, hans, hents, hkeep⟩
    rw [Nat.mod_eq_of_lt hstat]
    exact beat_written hout htag stat d (by simp [hop]) howed hret
  case retired =>
    have hbeat := (beat_stray kind last (stat % 4) d hout).trans (strayBeat_retired last hret htag hkind)
    by_cases hfree : kind = true ∨ last = true
    · rw [if_pos hfree] at hbeat ⊢
      exact exec_responseBeat hnf hp hlt (keepsBut_setPort s p _) (by simp) hbeat
    · rw [if_neg hfree] at hbeat ⊢
      exact exec_responseBeat hnf hp hlt (keepsBut_refl s []) (by simp) hbeat

end Sys2Proof.Machine
end

section
/-! PROOFS. Accesses that the control port refuses (02_boundary.md R66; 15_startup_reset_power.md R549, R557). -/

namespace Sys2Proof.Machine

/-- R66: the checks of an access, one after another. -/
theorem accessCause_eq_none (m : Mx) (off be : Nat) : accessCause m off be = none ↔
    (be % 16 = 15 ∧ off % 4 = 0 ∧ occupied off = true ∧ ¬(m.gl.phase = .warm ∧ 0x10000 ≤ off) ∧
      ¬(m.gl.pstate = 3 ∧ p3Open off = false)) := by
  unfold accessCause
  by_cases hbe : be % 16 ≠ 15 ∨ off % 4 ≠ 0
  · simp only [if_pos hbe, reduceCtorEq, false_iff]
    rintro ⟨h15, h0, -⟩
    omega
  · have haligned : be % 16 = 15 ∧ off % 4 = 0 := by omega
    rw [if_neg hbe]
    by_cases hocc : occupied off = true
    · by_cases hwarm : m.gl.phase = .warm ∧ 0x10000 ≤ off
      · simp [haligned, hocc, hwarm]
      · by_cases hp3 : m.gl.pstate = 3 ∧ p3Open off = false
        · simp [hocc, hwarm, hp3]
        · simp [haligned, hocc, hwarm, hp3]
    · simp [hocc]

/-- R557: the codes of GL_CPERR.CAUSE. -/
theorem accessCause_range {m : Mx} {off be c : Nat} (h : accessCause m off be = some c) : 1 ≤ c ∧ c ≤ 4 := by
  unfold accessCause at h
  repeat' split at h
  all_goals simp at h
  all_goals omega

theorem exec_hostWrite_refused {s : State} {off be c : Nat} (v : Word) (hlt : off < 2 ^ 24) (hon : s.mx.gl.porstN = true)
    (hc : accessCause s.mx off be = some c) :
    exec (.controlPortWrite .host off be v) s = .next { s with mx := cpRefuse s.mx off true c } := by
  have hreach : decide (off < 0x1000000) = true := decide_eq_true hlt
  have hrefuse : accessBe off be true (regWrite .host off v) s.mx = cpRefuse s.mx off true c := by simp [accessBe, hon, hc]
  calc exec (.controlPortWrite .host off be v) s
      = act s (onlyIf (decide (off < 0x1000000)) (accessBe off be true (regWrite .host off v))) := rfl
    _ = _ := by rw [hreach, act, onlyIf_true, hrefuse]

theorem exec_read_refused {s : State} {off be c : Nat} (hlt : off < 2 ^ 24) (hon : s.mx.gl.porstN = true)
    (hc : accessCause s.mx off be = some c) :
    exec (.loRegisterRead { addr := off, be := be }) s = .next { s with mx := cpRefuse s.mx off false c } := by
  have hreach : decide (off < 0x1000000) = true := decide_eq_true hlt
  have hrefuse : accessBe off be false (portRead off) s.mx = cpRefuse s.mx off false c := by simp [accessBe, hon, hc]
  calc exec (.loRegisterRead { addr := off, be := be }) s
      = act s (onlyIf (decide (off < 0x1000000)) (accessBe off be false (portRead off))) := rfl
    _ = _ := by rw [hreach, act, onlyIf_true, hrefuse]

/-! ## What a refused access leaves (R66) -/

/-- GL_CPERR with an error in it. -/
def cperrWord (off : Nat) (wr : Bool) (c : Nat) : Word := word (2 ^ 31 + bitAt wr 30 + 2 ^ 27 * c + off % 2 ^ 24)

/-- The complex with CP_ERR high and the refusal in GL_CPERR, where that was clear. -/
def cpErr (m : Mx) (off : Nat) (wr : Bool) (c : Nat) : Mx :=
  { m with cp := { m.cp with err := true, rdata := 0 },
           gl := { m.gl with cperr := if bit m.gl.cperr 31 then m.gl.cperr else cperrWord off wr c } }

theorem cpRefuse_eq (m : Mx) (off : Nat) (wr : Bool) (c : Nat) :
    cpRefuse m off wr c = raise (log (cpErr m off wr c) .cpRefused off) 299 := rfl

theorem keepsBut_cpErr (s : State) (off : Nat) (wr : Bool) (c : Nat) :
    keepsBut [.cp, .gl] s { s with mx := cpErr s.mx off wr c } :=
  ⟨rfl, fun p hp => by cases p <;> simp [Area.same, cpErr] at hp ⊢⟩

section
variable {off c : Nat} (wr : Bool) (hlt : off < 2 ^ 24) (hc : 1 ≤ c ∧ c ≤ 4)
include hlt hc

theorem cperrWord_toNat : (cperrWord off wr c).toNat = 2 ^ 31 + bitAt wr 30 + 2 ^ 27 * c + off := by
  have hbit : bitAt wr 30 = 0 ∨ bitAt wr 30 = 2 ^ 30 := by cases wr <;> simp [bitAt]
  simp only [cperrWord, word, BitVec.toNat_ofNat]
  omega

/-- GL_CPERR: VALID, the direction, CAUSE and the offset. -/
theorem cperrWord_fields : bit (cperrWord off wr c) 31 = true ∧ bit (cperrWord off wr c) 30 = wr ∧
    fld (cperrWord off wr c) 29 27 = c ∧ fld (cperrWord off wr c) 23 0 = off := by
  have hword := cperrWord_toNat wr hlt hc
  have hbit (i : Nat) : bit (cperrWord off wr c) i = (cperrWord off wr c).toNat.testBit i := (BitVec.testBit_toNat _).symm
  simp only [hbit, fld, hword, Nat.testBit_eq_decide_div_mod_eq, Nat.shiftRight_eq_div_pow]
  cases wr with
  | false =>
    simp only [show bitAt false 30 = 0 from rfl, decide_eq_true_eq, decide_eq_false_iff_not]
    omega
  | true =>
    simp only [show bitAt true 30 = 2 ^ 30 from rfl, decide_eq_true_eq]
    omega

end

/-- R66: the refusal is shown, noted where none was, recorded and raised. -/
theorem refused_leaves {s : State} {i : Instr} {off c : Nat} {wr : Bool} (hlt : off < 2 ^ 24) (hc : 1 ≤ c ∧ c ≤ 4)
    (hexec : exec i s = .next { s with mx := cpRefuse s.mx off wr c }) :
    ∃ t, exec i s = .next t ∧ t.mx.cp.err = true ∧ t.mx.cp.rdata = 0 ∧
      299 ∈ t.mx.ic.pend ∧ (bit s.mx.gl.cperr 31 = true → t.mx.gl = s.mx.gl) ∧
      (bit s.mx.gl.cperr 31 = false → bit t.mx.gl.cperr 31 = true ∧ bit t.mx.gl.cperr 30 = wr ∧
        fld t.mx.gl.cperr 29 27 = c ∧ fld t.mx.gl.cperr 23 0 = off) ∧ keepsBut (.cp :: .gl :: onRaise) s t := by
  have halarm := keepsBut_alarm { s with mx := cpErr s.mx off wr c } .cpRefused off 0 0 299
  have hcp : (cpRefuse s.mx off wr c).cp = (cpErr s.mx off wr c).cp := keepsBut_same halarm .cp (by simp [onRaise])
  have hgl : (cpRefuse s.mx off wr c).gl = (cpErr s.mx off wr c).gl := keepsBut_same halarm .gl (by simp [onRaise])
  refine ⟨_, hexec, by rw [hcp]; rfl, by rw [hcp]; rfl, mem_raise _ _, fun hvalid => ?kept, fun hclear => ?noted,
    keepsBut_trans (keepsBut_cpErr s off wr c) halarm (by simp) (by simp)⟩
  case kept =>
    rw [hgl]
    simp [cpErr, hvalid]
  case noted =>
    have hcperr : (cpErr s.mx off wr c).gl.cperr = cperrWord off wr c := by simp [cpErr, hclear]
    rw [hgl, hcperr]
    exact cperrWord_fields wr hlt hc

/-- Settles O18: the checks of R66, and for a write and a read alike what a refusal leaves. -/
theorem accessRefused : Obligations.AccessRefused :=
  ⟨accessCause_eq_none,
    fun _ _ _ _ v hlt hon hc => refused_leaves hlt (accessCause_range hc) (exec_hostWrite_refused v hlt hon hc),
    fun _ _ _ _ hlt hon hc => refused_leaves hlt (accessCause_range hc) (exec_read_refused hlt hon hc)⟩

end Sys2Proof.Machine
end

section
/-! PROOFS. Power-up and cold reset (02_boundary.md R73, R78; 15_startup_reset_power.md R534, R544): the balls while PORST_N is low,
and what the island and VAON keep. -/

namespace Sys2Proof.Machine

theorem exec_vaonRise (s : State) : exec .vaonRise s = .next { s with mx := vaonUp s.mx } := rfl

theorem exec_porstAssert (s : State) : exec .porstAssert s = .next { s with mx := coldReset s.mx } := rfl

/-- R534: PORST_N rises over a complex in cold reset. -/
theorem exec_porstRelease {s : State} (h : s.mx.gl.porstN = false) : exec .porstRelease s =
    .next { s with mx := { s.mx with gl := { s.mx.gl with porstN := true, phase := .waitStart,
                                                          pf := if s.mx.gl.pfailN then .none else .held } } } := by
  have hlow : (!s.mx.gl.porstN) = true := by simp [h]
  calc exec .porstRelease s
      = act s (onlyIf (!s.mx.gl.porstN)
          (fun m => setGl m { m.gl with porstN := true, phase := .waitStart, pf := if m.gl.pfailN then .none else .held })) := rfl
    _ = _ := by rw [hlow, act, onlyIf_true]; rfl

/-! ## The balls while PORST_N is low (R78) -/

section
variable {m : Mx} (h : m.gl.porstN = false)
include h

theorem cycOf_inReset (c : Nat) : cycOf m c = 0 := by simp [cycOf, h]

theorem management_inReset : wpN m = false ∧ thermN m = none ∧ msyncOutBall m = none ∧ i3cSda m = none := by
  simp [wpN, thermN, msyncOutBall, i3cSda, h]

theorem interrupts_inReset (k : Nat) : intN m k = true ∧ cintN m k = true := by simp [intN, cintN, h]

theorem flash_inReset (c : Nat) : (∀ k, ceN m c k = true) ∧ weN m c = true ∧ reT m c = true ∧ reC m c = false ∧
    ale m c = false ∧ cle m c = false ∧ dq m c = none ∧ dqsDriven m c = false := by
  have hcyc := cycOf_inReset h c
  simp [ceN, h, weN, cle, ale, reC, reT, dq, drives, dqsDriven, hcyc]

end

/-! ## What the island and VAON keep (R544; 14_dome_nightlog.md R533) -/

theorem tabGet_filter {α : Type} (d : α) (t : Tab α) (keep : Nat → Bool) (i : Nat) :
    tabGet d (t.filter (fun x => keep x.1)) i = if keep i = true then tabGet d t i else d := by
  induction t with
  | nil => simp [tabGet]
  | cons x t ih =>
    obtain ⟨k, v⟩ := x
    by_cases hk : keep k = true
    · by_cases hki : k = i
      · subst hki
        simp [tabGet, hk]
      · simp [tabGet, hk, hki, ih]
    · by_cases hki : k = i
      · subst hki
        simp [hk, ih]
      · simp [tabGet, hk, hki, ih]

/-- R544: registers of the island keep their values, and the others are reset. -/
theorem reg_coldReset (m : Mx) (off : Nat) :
    reg (coldReset m) off = if islandReg off = true then reg m off else regReset off :=
  tabGet_filter (regReset off) m.regs islandReg off

/-- R533: DO_STAT reads as the island holds it. -/
theorem doStat_coldReset (m : Mx) : doRead (coldReset m) 0x88 = doRead m 0x88 := by
  cases hwas : m.dm.bootWas <;> simp [doRead, coldReset, setGl, coreLost, keptDome, hwas]

/-- 14_dome_nightlog.md R533: NL_STAT reads as the island holds it. -/
theorem nlStat_coldReset (m : Mx) : nlRead (coldReset m) 4 = nlRead m 4 := by
  cases hkept : m.nl.kept with
  | none => simp [nlRead, coldReset, setGl, coreLost, logLost, abandonSegment, hkept, unpersisted]
  | some k => simp [nlRead, coldReset, setGl, coreLost, logLost, abandonSegment, hkept]

/-- 14_dome_nightlog.md R533: NL_FIRST reads as the island holds it. -/
theorem nlFirst_coldReset (m : Mx) : nlRead (coldReset m) 8 = nlRead m 8 := by
  cases hkept : m.nl.kept with
  | none => cases hrecs : m.nl.recs <;> simp [nlRead, coldReset, setGl, coreLost, logLost, abandonSegment, hkept, hrecs]
  | some k => simp [nlRead, coldReset, setGl, coreLost, logLost, abandonSegment, hkept]

/-- Settles O7: vaonUp and coldReset are equations in the state; the balls follow from PORST_N, and the registers from what
the island keeps. -/
theorem powerUpAndColdReset : Obligations.PowerUpAndColdReset := by
  refine ⟨fun s => ⟨_, exec_vaonRise s, rfl, rfl, rfl, rfl, rfl, rfl, fun _ => rfl⟩, fun s h => exec_porstRelease h,
    fun s => ?balls, fun s => ?kept⟩
  case balls =>
    have hlow : (coldReset s.mx).gl.porstN = false := rfl
    obtain ⟨hwp, htherm, hmsync, hsda⟩ := management_inReset hlow
    exact ⟨_, exec_porstAssert s, rfl, hwp, htherm, hmsync, hsda, rfl, interrupts_inReset hlow, flash_inReset hlow⟩
  case kept =>
    refine ⟨_, exec_porstAssert s, rfl, rfl, rfl, rfl, rfl, rfl, rfl, rfl, rfl, rfl, rfl, rfl, rfl, rfl,
      doStat_coldReset s.mx, nlStat_coldReset s.mx, nlFirst_coldReset s.mx, fun off hoff => ?_, fun off hoff => ?_⟩
    · rw [reg_coldReset, if_pos hoff]
    · rw [reg_coldReset, if_neg (by simp [hoff])]

end Sys2Proof.Machine
end

section
/-! PROOFS. The power-fail sequence and what Transit holds (10_stripes.md R403; 11_meridian_transit.md R424, R435): an erase that is
suspended ends the phase that Transit holds for it. -/

namespace Sys2Proof.Machine

theorem exec_pfailFall (s : State) : exec .pfailFall s = .next { s with mx := pfailDown s.mx } := rfl

/-- Transit's hold for an erase on die 5, whose profile is anchored at slot 3. -/
def eraseHold : TrHold := { die := 5, rail := 1, segs := [(4, 7)], anchor := some 3 }

/-- An erase of ring 0's first entry runs on die 5, which offers its suspension. -/
def erasing : State :=
  { mx := { die := [(5, { busy := some { op := .erase }, cur := some (.entry 0), offers := (false, true) })],
            tr := { holds := [eraseHold] } } }

/-- R403: the sequence suspends the erase, whose frame ends, and with it the phase that Transit holds: the anchored hold stays, but is
marked for release at the next boundary. -/
theorem pfailDown_erasing_holds : (pfailDown erasing.mx).tr.holds = [{ eraseHold with ended := true }] := by decide +kernel

/-- Refutes O10: its first clause has every hold that is left stand as it stood before, but the hold of a suspended erase has
ended. -/
theorem not_powerFailSequence : ¬ Obligations.PowerFailSequence := by
  rintro ⟨hfall, -⟩
  obtain ⟨t, hexec, -, -, -, -, -, -, -, -, hholds, -⟩ := hfall erasing rfl rfl (by decide)
  have ht : { erasing with mx := pfailDown erasing.mx } = t :=
    Host.Outcome.next.inj ((exec_pfailFall erasing).symm.trans hexec)
  have hmem : { eraseHold with ended := true } ∈ t.mx.tr.holds := by
    rw [← ht, pfailDown_erasing_holds]
    exact List.mem_singleton_self _
  have hbefore : { eraseHold with ended := true } ∈ erasing.mx.tr.holds := (hholds _ hmem).1
  exact absurd hbefore (by decide)

end Sys2Proof.Machine
end

section
/-! PROOFS. A register write by firmware (00_scope.md R14 to R16; 02_boundary.md R66; 03_queues.md R110): the complex that the
register's work begins with, host firmware's access having cleared CP_ERR, and a register that is set. -/

namespace Sys2Proof.Machine

/-- The complex as a write by an agent finds it: host firmware's comes by the control port, Dome's does not. -/
def seenBy (a : Agent) (m : Mx) : Mx :=
  { m with cp := if a = .host then { m.cp with err := false } else m.cp }

theorem seenBy_host (m : Mx) : seenBy .host m = cpOk m := rfl

theorem seenBy_dome (m : Mx) : seenBy .dome m = m := rfl

/-- A record does not depend on the control port. -/
theorem log_nl_seenBy (a : Agent) (m : Mx) (k : RecKind) (x y z : Nat) :
    (log (seenBy a m) k x y z).nl = (log m k x y z).nl := by
  unfold log arrive seenBy
  dsimp only
  split <;> rfl

theorem seenBy_err (a : Agent) (m : Mx) : (seenBy a m).cp.err = if a = .dome then m.cp.err else false := by
  cases a <;> rfl

theorem keepsBut_seenBy (a : Agent) (s : State) : keepsBut [.cp] s { s with mx := seenBy a s.mx } := keepsBut_cp s _

/-- R110: a write that its agent may make does its register's work. -/
theorem writeBy_writes {a : Agent} {mine : Bool} {s : State} {off : Nat} (f : Mx → Mx) (h : writes a mine s off) :
    writeBy a off (unlessMgmt a mine off f) s.mx = f (seenBy a s.mx) := by
  rcases h with rfl | ⟨rfl, hcarried⟩
  · simp [writeBy_dome, unlessMgmt, seenBy_dome]
  · cases a with
    | host => rw [writeBy_host s off _ hcarried, ← seenBy_host]; simp [unlessMgmt]
    | dome => simp [writeBy_dome, unlessMgmt, seenBy_dome]

section
variable {s : State} {c : Instr} {a : Agent}

/-- A write that sets its register. -/
theorem write_setsReg {off : Nat} {w : Word} (hexec : exec c s = .next { s with mx := setReg (seenBy a s.mx) off w }) :
    ∃ t, exec c s = .next t ∧ reg t.mx off = w ∧ (∀ o, o ≠ off → reg t.mx o = reg s.mx o) ∧ keepsBut [.regs, .cp] s t :=
  ⟨_, hexec, reg_setReg _ off w, fun o ho => reg_setReg_ne (seenBy a s.mx) off o w ho.symm,
    keepsBut_trans (keepsBut_seenBy a s) (keepsBut_setReg { s with mx := seenBy a s.mx } off w) (by simp) (by simp)⟩

/-- A write that leaves nothing but a record. -/
theorem write_leavesRecord {k : RecKind} {x y z : Nat}
    (hexec : exec c s = .next { s with mx := log (seenBy a s.mx) k x y z }) :
    ∃ t, exec c s = .next t ∧ t.mx.nl = (log s.mx k x y z).nl ∧
      t.mx.cp.err = (if a = .dome then s.mx.cp.err else false) ∧ keepsBut [.cp, .nl] s t :=
  ⟨_, hexec, log_nl_seenBy a s.mx k x y z, (congrArg Cp.err (log_cp _ k x y z)).trans (seenBy_err a s.mx),
    keepsBut_trans (keepsBut_seenBy a s) (keepsBut_log { s with mx := seenBy a s.mx } k x y z) (by simp) (by simp)⟩

end

end Sys2Proof.Machine
end

section
/-! PROOFS. BASE and CFG of a ring (03_queues.md R104). -/

namespace Sys2Proof.Machine

/-- With GL_LOCK open a register takes the RW and the RWL bits written. -/
theorem maskedWrite_open {m : Mx} (off : Nat) (rw rwl v : Word) (h : m.gl.lockClosed = false) :
    maskedWrite off rw rwl v m = setReg m off (v &&& (rw ||| rwl)) := by
  simp [maskedWrite, h]

section
variable {m : Mx} {r : Nat} (v : Word)

theorem ringCfg_baseLo (h : (ring m r).state = .disabled) :
    ringCfg r 0 v m = setReg m (qeRingOff r 0) (v &&& 0xFFFFF000) := by simp [ringCfg, h]

theorem ringCfg_baseHi (h : (ring m r).state = .disabled) : ringCfg r 4 v m = setReg m (qeRingOff r 4) v := by
  simp [ringCfg, h]

theorem ringCfg_cfg (h : (ring m r).state = .disabled) (hlock : m.gl.lockClosed = false) :
    ringCfg r 8 v m = setReg m (qeRingOff r 8) (v &&& 0x83FF001F) := by
  have hmasked : ringCfg r 8 v m = maskedWrite (qeRingOff r 8) 0x03FF001F 0x80000000 v m := by simp [ringCfg, h]
  rw [hmasked, maskedWrite_open _ _ _ _ hlock]
  rfl

theorem ringCfg_refused (k : Nat) (h : (ring m r).state ≠ .disabled) : ringCfg r k v m = log m .ringCfgRefused r := by
  simp [ringCfg, h]

end

theorem exec_ringConfigWrite {s : State} {a : Agent} {r k : Nat} (v : Word) (hr : r < 264) (hk : k = 0 ∨ k = 4 ∨ k = 8)
    (h : writes a (decide (256 ≤ r)) s (qeRingOff r k)) :
    exec (.ringConfigWrite a r k v) s = .next { s with mx := ringCfg r k v (seenBy a s.mx) } := by
  have hreg : (k == 0 || k == 4 || k == 8) = true := by rcases hk with rfl | rfl | rfl <;> rfl
  have hring : isRing r = true := decide_eq_true hr
  calc exec (.ringConfigWrite a r k v) s
      = act s (onlyIf (k == 0 || k == 4 || k == 8) (ringBy a r k (ringCfg r k v))) := rfl
    _ = _ := by rw [hreg, act, onlyIf_true, ringBy, hring, onlyIf_true, writeBy_writes _ h]

/-- Settles O21: by the register written while the ring is DISABLED, and one record otherwise. -/
theorem ringConfiguration : Obligations.RingConfiguration := by
  refine ⟨fun s a r v hr hw hoff => write_setsReg (a := a) ?baseLo, fun s a r v hr hw hoff => write_setsReg (a := a) ?baseHi,
    fun s a r v hr hw hoff hlock => write_setsReg (a := a) ?cfg,
    fun s a r k v hr hk hw hon => write_leavesRecord (a := a) ?refused⟩
  case baseLo => rw [exec_ringConfigWrite v hr (by simp) hw, ringCfg_baseLo (m := seenBy a s.mx) v hoff]
  case baseHi => rw [exec_ringConfigWrite v hr (by simp) hw, ringCfg_baseHi (m := seenBy a s.mx) v hoff]
  case cfg => rw [exec_ringConfigWrite v hr (by simp) hw, ringCfg_cfg (m := seenBy a s.mx) v hoff hlock]
  case refused => rw [exec_ringConfigWrite v hr hk hw, ringCfg_refused (m := seenBy a s.mx) v k hon]

end Sys2Proof.Machine
end

section
/-! PROOFS. Notice groups: notices enabled and stopped, and HEAD (03_queues.md R140, R141). -/

namespace Sys2Proof.Machine

theorem fld_lowBits (v : Word) : fld (v &&& 0x1F) 4 0 = fld v 4 0 := by
  simp only [fld, BitVec.toNat_and, Nat.shiftRight_zero]
  exact (congrArg (· % 32) (Nat.and_two_pow_sub_one_eq_mod v.toNat 5)).trans (Nat.mod_mod _ _)

theorem keepsBut_setNtc (s : State) (g : Nat) (n : Ntc) : keepsBut [.qe] s { s with mx := setNtc s.mx g n } :=
  ⟨rfl, fun p hp => by cases p <;> simp [Area.same] at hp ⊢⟩

/-- A notice group written is the only group that changes. -/
theorem ntc_of_setNtc {m t : Mx} {g : Nat} {n : Ntc} (h : t.qe = (setNtc m g n).qe) :
    ntc t g = n ∧ (∀ q, q ≠ g → ntc t q = ntc m q) ∧ t.qe.rings = m.qe.rings := by
  have hntc (q : Nat) : ntc t q = ntc (setNtc m g n) q := by rw [ntc, ntc, h]
  exact ⟨by rw [hntc, ntc_setNtc], fun q hq => by rw [hntc, ntc_setNtc_ne _ _ _ _ hq.symm], by rw [h]; rfl⟩

/-! ## CFG and HEAD of a group -/

section
variable {m : Mx} {g : Nat} (v : Word)

/-- R140: notices are enabled with both indices 0, and SIZE as written. -/
theorem ntcCfg_enables (hoff : (ntc m g).en = false) (hbit : bit v 31 = true) :
    ntcCfg g v m = setNtc (setReg m (qeNtcOff g 8) (v &&& 0x1F)) g { ntc m g with en := true, head := 0, tail := 0 } := by
  simp [ntcCfg, hoff, hbit]

theorem ntcCfg_stops (hon : (ntc m g).en = true) (hbit : bit v 31 = false) :
    ntcCfg g v m = setNtc m g { ntc m g with en := false } := by simp [ntcCfg, hon, hbit]

/-- Log entry 138: EN written again changes nothing. -/
theorem ntcCfg_again (hon : (ntc m g).en = true) (hbit : bit v 31 = true) : ntcCfg g v m = m := by
  simp [ntcCfg, hon, hbit]

theorem ntcHead_moves (hmod : fld v 16 0 < ntcMod m g)
    (htail : ntcSub m g (fld v 16 0) (ntc m g).head ≤ ntcSub m g (ntc m g).tail (ntc m g).head) :
    ntcHead g v m = setNtc m g { ntc m g with head := fld v 16 0 } := by
  simp [ntcHead, Nat.not_le.mpr hmod, Nat.not_lt.mpr htail]

/-- R141: HEAD does not move past TAIL. -/
theorem ntcHead_refused (htail : ntcSub m g (ntc m g).tail (ntc m g).head < ntcSub m g (fld v 16 0) (ntc m g).head) :
    ntcHead g v m = log m .ntcHead g := by
  simp [ntcHead, htail]

end

section
variable {s : State} {a : Agent} {g : Nat} (v : Word) (hg : g < 33)
include hg

theorem exec_noticeEnable (h : writes a (decide (g = 32)) s (qeNtcOff g 8)) :
    exec (.noticeEnable a g v) s = .next { s with mx := ntcCfg g v (seenBy a s.mx) } := by
  have hgrp : decide (g < 33) = true := decide_eq_true hg
  calc exec (.noticeEnable a g v) s = act s (ntcBy a g 8 (ntcCfg g v)) := rfl
    _ = _ := by rw [act, ntcBy, hgrp, onlyIf_true, writeBy_writes _ h]

theorem exec_noticeHeadWrite (h : writes a (decide (g = 32)) s (qeNtcOff g 0xC)) :
    exec (.noticeHeadWrite a g v) s = .next { s with mx := ntcHead g v (seenBy a s.mx) } := by
  have hgrp : decide (g < 33) = true := decide_eq_true hg
  calc exec (.noticeHeadWrite a g v) s = act s (ntcBy a g 0xC (ntcHead g v)) := rfl
    _ = _ := by rw [act, ntcBy, hgrp, onlyIf_true, writeBy_writes _ h]

end

/-- A write that sets a notice group. -/
theorem write_setsNtc {s : State} {c : Instr} {a : Agent} {g : Nat} {n : Ntc}
    (hexec : exec c s = .next { s with mx := setNtc (seenBy a s.mx) g n }) :
    ∃ t, exec c s = .next t ∧ ntc t.mx g = n ∧ (∀ q, q ≠ g → ntc t.mx q = ntc s.mx q) ∧
      t.mx.qe.rings = s.mx.qe.rings ∧ keepsBut [.qe, .cp] s t := by
  obtain ⟨hntc, hntcs, hrings⟩ := ntc_of_setNtc (m := seenBy a s.mx) (g := g) (n := n) rfl
  exact ⟨_, hexec, hntc, hntcs, hrings,
    keepsBut_trans (keepsBut_seenBy a s) (keepsBut_setNtc { s with mx := seenBy a s.mx } g n) (by simp) (by simp)⟩

/-- R140, R143: a group's notices begin. -/
theorem noticeEnable_begins {s : State} {a : Agent} {g : Nat} {v : Word} (hg : g < 33)
    (hw : writes a (decide (g = 32)) s (qeNtcOff g 8)) (hoff : (ntc s.mx g).en = false) (hbit : bit v 31 = true) :
    ∃ t, exec (.noticeEnable a g v) s = .next t ∧ ntc t.mx g = { ntc s.mx g with en := true, head := 0, tail := 0 } ∧
      ntcSize t.mx g = fld v 4 0 ∧ (∀ q, q ≠ g → ntc t.mx q = ntc s.mx q) ∧ t.mx.qe.rings = s.mx.qe.rings ∧
      (∀ o, o ≠ qeNtcOff g 8 → reg t.mx o = reg s.mx o) ∧ keepsBut [.regs, .qe, .cp] s t := by
  let u : State := { s with mx := setReg (seenBy a s.mx) (qeNtcOff g 8) (v &&& 0x1F) }
  let n : Ntc := { ntc s.mx g with en := true, head := 0, tail := 0 }
  have hexec : exec (.noticeEnable a g v) s = .next { s with mx := setNtc u.mx g n } := by
    rw [exec_noticeEnable v hg hw, ntcCfg_enables (m := seenBy a s.mx) v hoff hbit]
    rfl
  obtain ⟨hntc, hntcs, hrings⟩ := ntc_of_setNtc (m := u.mx) (g := g) (n := n) rfl
  have hreg (o : Nat) : reg (setNtc u.mx g n) o = reg u.mx o := rfl
  have hsize : reg u.mx (qeNtcOff g 8) = v &&& 0x1F := reg_setReg _ _ _
  have hset : keepsBut [.regs, .cp] s u :=
    keepsBut_trans (keepsBut_seenBy a s) (keepsBut_setReg { s with mx := seenBy a s.mx } _ _) (by simp) (by simp)
  exact ⟨_, hexec, hntc, by rw [ntcSize, hreg, hsize, fld_lowBits], hntcs, hrings,
    fun o ho => reg_setReg_ne (seenBy a s.mx) _ o _ ho.symm, keepsBut_trans hset (keepsBut_setNtc u g n) (by simp) (by simp)⟩

/-- Settles O25: CFG by what EN is and becomes, and HEAD by whether it stays within TAIL. -/
theorem noticeGroups : Obligations.NoticeGroups := by
  refine ⟨fun s a g v hg hw hoff hbit => noticeEnable_begins hg hw hoff hbit,
    fun s a g v hg hw hmod htail => write_setsNtc (a := a) ?moves, fun s a g v hg hw htail => ?refused,
    fun s a g v hg hw hbit hon => write_setsNtc (a := a) ?stops, fun s a g v hg hw hbit hon => ?again⟩
  case moves => rw [exec_noticeHeadWrite v hg hw, ntcHead_moves (m := seenBy a s.mx) v hmod htail]; rfl
  case refused =>
    obtain ⟨t, hexec, hnl, -, hkeep⟩ := write_leavesRecord (a := a) (k := .ntcHead) (x := g) (y := 0) (z := 0)
      ((exec_noticeHeadWrite v hg hw).trans (by rw [ntcHead_refused (m := seenBy a s.mx) v htail]))
    exact ⟨t, hexec, hnl, hkeep⟩
  case stops => rw [exec_noticeEnable v hg hw, ntcCfg_stops (m := seenBy a s.mx) v hon hbit]; rfl
  case again =>
    refine ⟨_, exec_noticeEnable v hg hw, ?_⟩
    rw [ntcCfg_again (m := seenBy a s.mx) v hon hbit]
    exact keepsBut_seenBy a s

end Sys2Proof.Machine
end

section
/-! PROOFS. An entry that fails a check at its turn (03_queues.md R129; 04_commands.md R148, R151). -/

namespace Sys2Proof.Machine

/-! ## Reservations given back (12_stage_buffer.md R450) -/

/-- A release leaves every byte of the stage buffer as it is. -/
theorem freeResv_data (m : Mx) (o : ROwner) : (freeResv m o).sb.data = m.sb.data := by
  unfold freeResv
  dsimp only
  split <;> rfl

theorem keepsBut_freeResv (s : State) (o : ROwner) : keepsBut [.sb] s { s with mx := freeResv s.mx o } := by
  refine ⟨rfl, fun p hp => ?_⟩
  unfold freeResv
  dsimp only
  split <;> cases p <;> simp [Area.same, testAgain] at hp ⊢

/-! ## The outcome -/

/-- R130, R38: the outcome is recorded, and a reservation that is given back before the completion is given back. -/
theorem conclude_frees (eid : Nat) (e : Ent) (st d : Nat) (m : Mx) : conclude eid e st d false m =
    if earlyFree (eOpc e) then freeResv (setEnt m eid (concluded m e st d)) (.entry eid)
    else setEnt m eid (concluded m e st d) := rfl

theorem keepsBut_conclude (s : State) (eid : Nat) (e : Ent) (st d : Nat) :
    keepsBut [.ents, .sb] s { s with mx := conclude eid e st d false s.mx } := by
  have hent := keepsBut_setEnt s eid (concluded s.mx e st d)
  rw [conclude_frees]
  split
  · exact keepsBut_trans hent (keepsBut_freeResv { s with mx := setEnt s.mx eid _ } _) (by simp) (by simp)
  · exact keepsBut_mono hent (by simp)

theorem conclude_ents (eid : Nat) (e : Ent) (st d : Nat) (m : Mx) :
    (conclude eid e st d false m).ents = (setEnt m eid (concluded m e st d)).ents := by
  rw [conclude_frees]
  split
  · exact keepsBut_same (keepsBut_freeResv { mx := setEnt m eid (concluded m e st d) } (.entry eid)) .ents (by simp)
  · rfl

theorem conclude_data (eid : Nat) (e : Ent) (st d : Nat) (m : Mx) : (conclude eid e st d false m).sb.data = m.sb.data := by
  rw [conclude_frees]
  split
  · exact freeResv_data _ _
  · rfl

/-! ## The checks -/

section
variable {m : Mx} {r i : Nat} {e : Ent} (ht : atTurn m r i e)
include ht

/-- R129: an entry that fails a check goes no further. -/
theorem dispatch_fault {st d : Nat} (go : Nat → Ent → Mx → Mx) (hf : entryFault m r e = some (st, d)) :
    dispatch r (eOpc e) go m = conclude (eidOf r i) e st d false (takeTurn r m) := by
  obtain ⟨-, hturn, hent⟩ := ht
  simp [dispatch, hturn, hent, entryFault_takeTurn, hf]

/-- A command of another opcode is not the one that occurs. -/
theorem dispatch_other {op : Nat} (go : Nat → Ent → Mx → Mx) (hop : eOpc e ≠ op) : dispatch r op go m = m := by
  obtain ⟨-, hturn, hent⟩ := ht
  simp [dispatch, hturn, hent, hop]

theorem unknown_atTurn (hop : isOpcode (eOpc e) = false) :
    unknown r m = dispatch r (eOpc e) (fun _ _ m => m) m := by
  obtain ⟨-, hturn, hent⟩ := ht
  simp [unknown, hturn, hent, hop]

end

/-- R129, R151: the check of OPC comes after that of the reserved flag. -/
theorem entryFault_unknown (m : Mx) (r : Nat) {e : Ent} (hop : isOpcode (eOpc e) = false) (hflag : eFlag e 7 = false) :
    entryFault m r e = some (0x1000, 0x0500) := by
  simp [entryFault, hop, hflag]

/-- R38: what gives its reservation back early is an opcode. -/
theorem earlyFree_unknown {o : Nat} (h : isOpcode o = false) : earlyFree o = false := by
  cases hfree : earlyFree o with
  | false => rfl
  | true =>
    have ho : o = 2 ∨ o = 4 := by simpa [earlyFree] using hfree
    rcases ho with rfl | rfl <;> simp [isOpcode] at h

/-- What a failed check leaves: the entry with its outcome, out of its ring's cache. -/
theorem fault_leaves {s : State} {c : Instr} {r i st d : Nat} {e : Ent}
    (hexec : exec c s = .next { s with mx := conclude (eidOf r i) e st d false (takeTurn r s.mx) }) :
    ∃ t, exec c s = .next t ∧ ent t.mx (eidOf r i) = some (concluded s.mx e st d) ∧
      (∀ q, q ≠ eidOf r i → ent t.mx q = ent s.mx q) ∧
      ring t.mx r = { ring s.mx r with cache := (ring s.mx r).cache.drop 1 } ∧ (∀ q, q ≠ r → ring t.mx q = ring s.mx q) ∧
      t.mx.sb.data = s.mx.sb.data ∧ keepsBut [.ents, .qe, .sb] s t := by
  let u : State := { s with mx := takeTurn r s.mx }
  have hconclude := keepsBut_conclude u (eidOf r i) e st d
  obtain ⟨hent, hents⟩ := ent_of_setEnt (conclude_ents (eidOf r i) e st d u.mx)
  obtain ⟨hring, hrings⟩ := ring_of_setRing (m := s.mx) (r := r)
    (g := { ring s.mx r with cache := (ring s.mx r).cache.drop 1 }) (keepsBut_same hconclude .qe (by simp))
  exact ⟨_, hexec, hent, hents, hring, hrings, conclude_data _ e st d u.mx,
    keepsBut_trans (keepsBut_setRing s r _) hconclude (by simp) (by simp)⟩

/-- An entry and its ring are written, and nothing else. -/
theorem entryAndRing_leave {s : State} {c : Instr} {r eid : Nat} {f : Ent} {g : Ring}
    (hexec : exec c s = .next { s with mx := setEnt (setRing s.mx r g) eid f }) :
    ∃ t, exec c s = .next t ∧ ent t.mx eid = some f ∧ (∀ q, q ≠ eid → ent t.mx q = ent s.mx q) ∧
      ring t.mx r = g ∧ (∀ q, q ≠ r → ring t.mx q = ring s.mx q) ∧ keepsBut [.ents, .qe] s t := by
  obtain ⟨hent, hents⟩ := ent_of_setEnt (m := setRing s.mx r g) (f := f) (eid := eid) rfl
  obtain ⟨hring, hrings⟩ := ring_of_setRing (m := s.mx) (t := setEnt (setRing s.mx r g) eid f) rfl
  exact ⟨_, hexec, hent, hents, hring, hrings,
    keepsBut_trans (keepsBut_setRing s r g) (keepsBut_setEnt { s with mx := _ } eid f) (by simp) (by simp)⟩

/-- R129: an entry whose OPC is no opcode has no reservation to give back. -/
theorem exec_unknownOpcode {s : State} {r i : Nat} {e : Ent} (ht : atTurn s.mx r i e) (hop : isOpcode (eOpc e) = false)
    (hflag : eFlag e 7 = false) : exec (.unknownOpcode r) s =
      .next { s with mx := setEnt (takeTurn r s.mx) (eidOf r i) (concluded s.mx e 0x1000 0x0500) } := by
  have hring : isRing r = true := decide_eq_true ht.1
  have hconclude : conclude (eidOf r i) e 0x1000 0x0500 false (takeTurn r s.mx) =
      setEnt (takeTurn r s.mx) (eidOf r i) (concluded s.mx e 0x1000 0x0500) :=
    conclude_eq (m := takeTurn r s.mx) _ _ _ (earlyFree_unknown hop)
  calc exec (.unknownOpcode r) s = act s (onlyIf (isRing r) (unknown r)) := rfl
    _ = _ := by
      rw [hring, act, onlyIf_true, unknown_atTurn ht hop, dispatch_fault ht _ (entryFault_unknown s.mx r hop hflag), hconclude]

/-- Settles O26: every opcode's command makes the checks before it does anything of its own. -/
theorem entryChecks : Obligations.EntryChecks := by
  refine ⟨fun s c r op i st d e hc ht hop hf => fault_leaves ?fault,
    fun s r i e ht hop hflag => entryAndRing_leave (exec_unknownOpcode ht hop hflag), fun s c r op i e hc ht hop => ?other⟩
  case fault =>
    rw [exec_opcode s hc, ← hop, act, show isRing r = true from decide_eq_true ht.1, onlyIf_true, dispatch_fault ht _ hf]
  case other =>
    rw [exec_opcode s hc, act, show isRing r = true from decide_eq_true ht.1, onlyIf_true, dispatch_other ht _ hop]

end Sys2Proof.Machine
end

section
/-! PROOFS. The fetch of entries and its answer (03_queues.md R96, R108, R111, R116, R117, R126; 02_boundary.md R44). -/

namespace Sys2Proof.Machine

/-! ## A request that its port keeps waiting (R44) -/

theorem issueLoop_noCredit {g : Port} (l : List Req) (n : Nat) (h : g.reqCr = 0) :
    issueLoop l g n = ({ g with waiting := l }, n) := by
  cases l <;> simp [issueLoop, h]

/-- A port with no credit and nothing owed does nothing. -/
theorem pump_noCredit {m : Mx} {p : Nat} {g : Port} (hcr : g.reqCr = 0) (howed : g.owed = []) :
    pump (setPort m p g) p = setPort m p g := by
  have hloop (n : Nat) : issueLoop g.waiting g n = (g, n) := issueLoop_noCredit _ _ hcr
  unfold pump
  simp only [setPort_gl, port_setPort, setPort_free, hloop, ite_self, sendBeats_none howed, setPort_setPort]
  rfl

theorem ask_parked {m : Mx} {p : Nat} (q : Req) (h : parked m p) :
    ask p q m = setPort m p { port m p with waiting := [q] } := by
  obtain ⟨hcr, hwait, howed, hup⟩ := h
  calc ask p q m = pump (setPort m p { port m p with waiting := [q] }) p := by simp [ask, hup, request, hwait]
    _ = _ := pump_noCredit hcr howed

/-! ## The fetch (R116) -/

/-- The complex once a ring's fetch is in flight and the rotation has moved past the ring. -/
def fetching (r : Nat) (m : Mx) : Mx :=
  let g := ring m r
  let m' := setRing m r { g with reqAt := some (g.fetch, fetchRoom m r), keep := fetchRoom m r, ans := none }
  { m' with qe := { m'.qe with rot := (r + 1) % 264 } }

theorem ring_fetching (r : Nat) (m : Mx) : ring (fetching r m) r =
    { ring m r with reqAt := some ((ring m r).fetch, fetchRoom m r), keep := fetchRoom m r, ans := none } :=
  ring_setRing m r _

theorem ring_fetching_ne {r q : Nat} (m : Mx) (h : q ≠ r) : ring (fetching r m) q = ring m q :=
  ring_setRing_ne m r q _ h.symm

theorem keepsBut_fetching (s : State) (r : Nat) : keepsBut [.qe] s { s with mx := fetching r s.mx } :=
  ⟨rfl, fun p hp => by cases p <;> simp [Area.same, fetching] at hp ⊢⟩

theorem fetch_turn {m : Mx} {r : Nat} (h : nextFetch m = some r) : fetch r m =
    ask (ringPort m r) (readReq (slotAddr m r (ring m r).fetch) (64 * fetchRoom m r) (.fetch r)) (fetching r m) := by
  simp only [fetch, h, ne_eq, not_true, if_false]
  rfl

section
variable (s : State) {r : Nat} (hr : r < 264)
include hr

theorem exec_entryFetch : exec (.entryFetch r) s = .next { s with mx := fetch r s.mx } := by
  have hring : isRing r = true := decide_eq_true hr
  calc exec (.entryFetch r) s = act s (onlyIf (isRing r) (fetch r)) := rfl
    _ = _ := by rw [hring, act, onlyIf_true]

theorem exec_entryFetchDone : exec (.entryFetchDone r) s = .next { s with mx := fetchDone r s.mx } := by
  have hring : isRing r = true := decide_eq_true hr
  calc exec (.entryFetchDone r) s = act s (onlyIf (isRing r) (fetchDone r)) := rfl
    _ = _ := by rw [hring, act, onlyIf_true]

/-- R116: the ring that the rotation serves asks for its entries. -/
theorem entryFetch_asks (hnext : nextFetch s.mx = some r) (hparked : parked s.mx (ringPort s.mx r)) :
    ∃ t, exec (.entryFetch r) s = .next t ∧
      ring t.mx r = { ring s.mx r with reqAt := some ((ring s.mx r).fetch, fetchRoom s.mx r),
                                       keep := fetchRoom s.mx r, ans := none } ∧
      t.mx.qe.rot = (r + 1) % 264 ∧ (∀ q, q ≠ r → ring t.mx q = ring s.mx q) ∧
      (port t.mx (ringPort s.mx r)).waiting =
        [readReq (slotAddr s.mx r (ring s.mx r).fetch) (64 * fetchRoom s.mx r) (.fetch r)] ∧
      keepsBut [.qe, .hp] s t := by
  refine ⟨_, exec_entryFetch s hr, ?_⟩
  rw [fetch_turn hnext, ask_parked (m := fetching r s.mx) _ hparked]
  exact ⟨ring_fetching r s.mx, rfl, fun q hq => ring_fetching_ne s.mx hq, congrArg Port.waiting (port_setPort _ _ _),
    keepsBut_trans (keepsBut_fetching s r) (keepsBut_setPort { s with mx := fetching r s.mx } _ _) (by simp) (by simp)⟩

/-- R116: another ring's turn. -/
theorem entryFetch_waits (hnext : nextFetch s.mx ≠ some r) : exec (.entryFetch r) s = .next s := by
  rw [exec_entryFetch s hr, fetch, if_pos hnext]

end

/-! ## Entries that arrive (R117) -/

/-- The entry that a fetch has brought to an index. -/
def fetchedEnt (m : Mx) (r : Nat) (data : Mem) (i : Nat) : Ent :=
  { raw := BitVec.ofNat 512 (leNat (memRead data (slotAddr m r i) 64)) }

theorem eidOf_inj {r i j : Nat} (h : eidOf r i = eidOf r j) : i = j := by
  unfold eidOf at h
  omega

theorem arrived_active {m : Mx} {r : Nat} (i : Nat) (data : Mem) (h : (ring m r).state = .active) :
    arrived r i data m = setEnt
      (setRing m r { ring m r with live := (ring m r).live ++ [i], cache := (ring m r).cache ++ [i] }) (eidOf r i)
      (fetchedEnt m r data i) := by
  have hdispatch : dispatches (ring m r) = true := by simp [dispatches, h]
  simp only [arrived, hdispatch, h, if_true, reduceCtorEq, if_false]
  rfl

/-- Entries of an ACTIVE ring have arrived one after another. -/
def tookIn (r : Nat) (l : List Nat) (data : Mem) (s t : State) : Prop :=
  ring t.mx r = { ring s.mx r with live := (ring s.mx r).live ++ l, cache := (ring s.mx r).cache ++ l } ∧
  (∀ q, q ≠ r → ring t.mx q = ring s.mx q) ∧
  (∀ j ∈ l, ent t.mx (eidOf r j) = some (fetchedEnt s.mx r data j)) ∧
  (∀ e, e ∉ l.map (eidOf r) → ent t.mx e = ent s.mx e) ∧ keepsBut [.qe, .ents] s t

theorem each_arrived {r : Nat} (l : List Nat) (data : Mem) {s : State} (h : (ring s.mx r).state = .active) :
    tookIn r l data s { s with mx := each l (fun j m => arrived r j data m) s.mx } := by
  induction l generalizing s with
  | nil => exact ⟨by simp, fun _ _ => rfl, fun _ hj => by simp at hj, fun _ _ => rfl, keepsBut_refl s _⟩
  | cons i l ih =>
    let g : Ring := { ring s.mx r with live := (ring s.mx r).live ++ [i], cache := (ring s.mx r).cache ++ [i] }
    let u : State := { s with mx := setEnt (setRing s.mx r g) (eidOf r i) (fetchedEnt s.mx r data i) }
    have hfirst : each (i :: l) (fun j m => arrived r j data m) s.mx = each l (fun j m => arrived r j data m) u.mx :=
      congrArg (each l (fun j m => arrived r j data m)) (arrived_active i data h)
    obtain ⟨hring, hrings⟩ := ring_of_setRing (m := s.mx) (t := u.mx) (r := r) (g := g) rfl
    obtain ⟨hent, hents⟩ := ent_of_setEnt (m := s.mx) (t := u.mx) (eid := eidOf r i) (f := fetchedEnt s.mx r data i) rfl
    have hkeep : keepsBut [.qe, .ents] s u :=
      keepsBut_trans (keepsBut_setRing s r g) (keepsBut_setEnt { s with mx := setRing s.mx r g } _ _) (by simp) (by simp)
    obtain ⟨hring', hrings', hents', hothers', hkeep'⟩ := ih (s := u) (by rw [hring]; exact h)
    rw [hfirst]
    refine ⟨by rw [hring', hring]; simp [g], fun q hq => (hrings' q hq).trans (hrings q hq), fun j hj => ?_, fun e he => ?_,
      keepsBut_trans hkeep hkeep' (by simp) (by simp)⟩
    · by_cases hjl : j ∈ l
      · exact hents' j hjl
      · obtain rfl : j = i := (List.mem_cons.mp hj).resolve_right hjl
        have hlast : eidOf r j ∉ l.map (eidOf r) := fun hmem => by
          obtain ⟨k, hk, hkj⟩ := List.mem_map.mp hmem
          exact hjl (eidOf_inj hkj ▸ hk)
        exact (hothers' _ hlast).trans hent
    · rw [List.map_cons, List.mem_cons, not_or] at he
      exact (hothers' e he.2).trans (hents e he.1)

/-! ## The answer (R117, R126) -/

theorem stopTurn_other {m : Mx} {r : Nat} (h : (ring m r).state ≠ .stopping) : stopTurn r m = m := by simp [stopTurn, h]

/-- R117: FETCH moves past the entries that a fetch has brought. -/
def fetchMoved (r i : Nat) (m : Mx) : Mx :=
  setRing m r { ring m r with ans := none, reqAt := none, keep := 0, fetch := idxAdd m r i (ring m r).keep }

theorem fetchDone_ok {m : Mx} {r i n : Nat} {data : Mem} (hans : (ring m r).ans = some (none, data))
    (hreq : (ring m r).reqAt = some (i, n)) (hkeep : (ring m r).keep ≠ 0) : fetchDone r m =
      stopTurn r (each ((List.range (ring m r).keep).map (idxAdd m r i)) (fun j m => arrived r j data m) (fetchMoved r i m)) := by
  simp only [fetchDone, hans, hreq, hkeep, if_false, ring_setRing, setRing_setRing]
  rfl

/-- R117: the entries of a fetch are held, and dispatched in their turn. -/
theorem entryFetchDone_ok {s : State} {r i n : Nat} {data : Mem} (hr : r < 264) (hstate : (ring s.mx r).state = .active)
    (hans : (ring s.mx r).ans = some (none, data)) (hreq : (ring s.mx r).reqAt = some (i, n))
    (hkeep : (ring s.mx r).keep = n) (hn : 0 < n) :
    let l := (List.range n).map (idxAdd s.mx r i)
    ∃ t, exec (.entryFetchDone r) s = .next t ∧ (ring t.mx r).fetch = idxAdd s.mx r i n ∧ (ring t.mx r).reqAt = none ∧
      (ring t.mx r).ans = none ∧ (ring t.mx r).live = (ring s.mx r).live ++ l ∧ (ring t.mx r).cache = (ring s.mx r).cache ++ l ∧
      (∀ j ∈ l, ent t.mx (eidOf r j) = some (fetchedEnt s.mx r data j)) ∧
      (∀ q, q ≠ r → ring t.mx q = ring s.mx q) ∧ (∀ e, e ∉ l.map (eidOf r) → ent t.mx e = ent s.mx e) ∧
      keepsBut [.qe, .ents] s t := by
  intro l
  subst hkeep
  let u : State := { s with mx := fetchMoved r i s.mx }
  obtain ⟨hring, hrings⟩ := ring_of_setRing (m := s.mx) (t := u.mx) (r := r) rfl
  obtain ⟨hring', hrings', hents', hothers', hkeep'⟩ := each_arrived l data (s := u) (r := r) (by rw [hring]; exact hstate)
  have hdone : fetchDone r s.mx = each l (fun j m => arrived r j data m) u.mx := by
    rw [fetchDone_ok hans hreq (Nat.ne_of_gt hn)]
    exact stopTurn_other (by rw [hring', hring]; simp [hstate])
  refine ⟨_, exec_entryFetchDone s hr, ?_⟩
  rw [hdone, hring', hring]
  exact ⟨rfl, rfl, rfl, rfl, rfl, hents', fun q hq => (hrings' q hq).trans (hrings q hq), hothers',
    keepsBut_trans (keepsBut_setRing s r _) hkeep' (by simp) (by simp)⟩

/-! ## A ring-level error (R108, R111) -/

/-- QEnnn_ERR with an error in it. -/
def ringErrWord (code cause : Nat) : Word := word (2 ^ 31 + 65536 * cause + code)

/-- R108: QEnnn_ERR: VALID, the cause and the code. -/
theorem ringErrWord_fields {code cause : Nat} (hcode : code < 2 ^ 16) (hcause : cause < 2 ^ 8) :
    bit (ringErrWord code cause) 31 = true ∧ fld (ringErrWord code cause) 15 0 = code ∧
      fld (ringErrWord code cause) 23 16 = cause := by
  have hword : (ringErrWord code cause).toNat = 2 ^ 31 + 65536 * cause + code := by
    simp only [ringErrWord, word, BitVec.toNat_ofNat]
    omega
  have hbit : bit (ringErrWord code cause) 31 = (ringErrWord code cause).toNat.testBit 31 := (BitVec.testBit_toNat _).symm
  simp only [hbit, fld, hword, Nat.testBit_eq_decide_div_mod_eq, Nat.shiftRight_eq_div_pow, decide_eq_true_eq]
  omega

theorem causeCode_lt (c : Cause) : causeCode c < 2 ^ 8 := by cases c <;> decide

/-- The complex once a ring-level error has been taken into QEnnn_ERR. -/
def errorHeld (r code cause idx : Nat) (m : Mx) : Mx :=
  log (setRing m r { ring m r with err := ringErrWord code cause, errIdx := idx }) .ringErr r code idx

/-- R108: the first error since VALID was cleared is held. -/
theorem ringError_first {m : Mx} {r : Nat} (code cause idx : Nat) (h : bit (ring m r).err 31 = false) :
    ringError m r code cause idx = errorHeld r code cause idx m := by
  simp [ringError, h, errorHeld, ringErrWord]

theorem ring_errorHeld (r code cause idx : Nat) (m : Mx) :
    ring (errorHeld r code cause idx m) r = { ring m r with err := ringErrWord code cause, errIdx := idx } :=
  (ring_of_setRing (log_qe _ _ _ _ _)).1

theorem keepsBut_errorHeld (s : State) (r code cause idx : Nat) :
    keepsBut [.qe, .nl] s { s with mx := errorHeld r code cause idx s.mx } :=
  keepsBut_trans (keepsBut_setRing s r _) (keepsBut_log { s with mx := setRing s.mx r _ } _ _ _ _) (by simp) (by simp)

/-- R126: of the ring, giving up a request that has not been issued changes what is in flight. -/
theorem ring_unfetch (r : Nat) (m : Mx) : ∃ x k, ring (unfetch r m) r = { ring m r with reqAt := x, keep := k } := by
  unfold unfetch
  dsimp only
  split
  · exact ⟨none, 0, ring_setRing _ r _⟩
  · exact ⟨_, _, rfl⟩

theorem keepsBut_unfetch (s : State) (r : Nat) : keepsBut [.hp, .qe] s { s with mx := unfetch r s.mx } := by
  unfold unfetch
  dsimp only
  split
  · exact keepsBut_trans (keepsBut_setPort s _ _) (keepsBut_setRing { s with mx := setPort s.mx _ _ } r _) (by simp) (by simp)
  · exact keepsBut_refl s _

/-- R111: a ring that an error has stopped. -/
def ringStopped (r : Nat) (m : Mx) : Mx := unfetch r (setRing m r { ring m r with state := .stoppedErr })

theorem ring_ringStopped (r : Nat) (m : Mx) :
    ∃ x k, ring (ringStopped r m) r = { ring m r with state := .stoppedErr, reqAt := x, keep := k } := by
  obtain ⟨x, k, hring⟩ := ring_unfetch r (setRing m r { ring m r with state := .stoppedErr })
  exact ⟨x, k, by rw [ringStopped, hring, ring_setRing]⟩

theorem keepsBut_ringStopped (s : State) (r : Nat) : keepsBut [.hp, .qe] s { s with mx := ringStopped r s.mx } :=
  keepsBut_trans (keepsBut_setRing s r _) (keepsBut_unfetch { s with mx := setRing s.mx r _ } r) (by simp) (by simp)

section
variable {m : Mx} {r : Nat} (code : Nat) (c : Cause) (idx : Nat) (hstate : (ring m r).state = .active)
  (hclear : bit (ring m r).err 31 = false)
include hstate hclear

/-- R111, R126: a failed request stops an ACTIVE ring. -/
theorem ringFault_stops :
    ringFault m r code c idx = raise (ringStopped r (errorHeld r code (causeCode c) idx m)) 265 := by
  have hactive : (ring (errorHeld r code (causeCode c) idx m) r).state = .active := by rw [ring_errorHeld]; exact hstate
  rw [ringFault, ringError_first code _ idx hclear]
  simp only [hactive, if_true]
  rfl

/-- The ring stopped with its error. -/
theorem ring_ringFault : ∃ x k, ring (ringFault m r code c idx) r =
    { ring m r with state := .stoppedErr, err := ringErrWord code (causeCode c), errIdx := idx, reqAt := x, keep := k } := by
  obtain ⟨x, k, hring⟩ := ring_ringStopped r (errorHeld r code (causeCode c) idx m)
  exact ⟨x, k, by rw [ringFault_stops code c idx hstate hclear, ring, raise_qe, ← ring, hring, ring_errorHeld]⟩

theorem mem_ringFault_pend : 265 ∈ (ringFault m r code c idx).ic.pend := by
  rw [ringFault_stops code c idx hstate hclear]
  exact mem_raise _ _

end

theorem keepsBut_ringFault {s : State} {r : Nat} (code : Nat) (c : Cause) (idx : Nat)
    (hstate : (ring s.mx r).state = .active) (hclear : bit (ring s.mx r).err 31 = false) :
    keepsBut (.qe :: onRaise) s { s with mx := ringFault s.mx r code c idx } := by
  let u : State := { s with mx := errorHeld r code (causeCode c) idx s.mx }
  have hstopped : keepsBut (.qe :: onRaise) s { s with mx := ringStopped r u.mx } :=
    keepsBut_trans (keepsBut_errorHeld s r code _ idx) (keepsBut_ringStopped u r) (by simp [onRaise]) (by simp [onRaise])
  rw [ringFault_stops code c idx hstate hclear]
  exact keepsBut_trans hstopped (keepsBut_raise { s with mx := ringStopped r u.mx } 265) (by simp) (by simp)

/-! ## The clauses of O23 -/

/-- R117: a fetch's answer is taken. -/
def fetchTaken (r : Nat) (m : Mx) : Mx := setRing m r { ring m r with ans := none, reqAt := none, keep := 0 }

theorem fetchDone_failed {m : Mx} {r i n : Nat} {c : Cause} {data : Mem} (hstate : (ring m r).state = .active)
    (hans : (ring m r).ans = some (some c, data)) (hreq : (ring m r).reqAt = some (i, n)) :
    fetchDone r m = stopTurn r (ringFault (fetchTaken r m) r 0x20 c i) := by
  have hdispatch : dispatches (ring m r) = true := by simp [dispatches, hstate]
  simp only [fetchDone, hans, hreq, hdispatch, if_true]
  rfl

/-- R117, R126: a fetch that fails stops the ring, which asks for the same entries once it goes on. -/
theorem entryFetchDone_failed {s : State} {r i n : Nat} {c : Cause} {data : Mem} (hr : r < 264)
    (hstate : (ring s.mx r).state = .active) (hans : (ring s.mx r).ans = some (some c, data))
    (hreq : (ring s.mx r).reqAt = some (i, n)) (hclear : bit (ring s.mx r).err 31 = false) :
    ∃ t, exec (.entryFetchDone r) s = .next t ∧ (ring t.mx r).state = .stoppedErr ∧
      (ring t.mx r).fetch = (ring s.mx r).fetch ∧ (ring t.mx r).errIdx = i ∧ fld (ring t.mx r).err 15 0 = 0x20 ∧
      fld (ring t.mx r).err 23 16 = causeCode c ∧ 265 ∈ t.mx.ic.pend ∧ keepsBut (.qe :: onRaise) s t := by
  let u : State := { s with mx := fetchTaken r s.mx }
  have hring : ring u.mx r = { ring s.mx r with ans := none, reqAt := none, keep := 0 } := ring_setRing _ r _
  have hactive : (ring u.mx r).state = .active := by rw [hring]; exact hstate
  have hfirst : bit (ring u.mx r).err 31 = false := by rw [hring]; exact hclear
  obtain ⟨x, k, hstopped⟩ := ring_ringFault 0x20 c i hactive hfirst
  have hdone : fetchDone r s.mx = ringFault u.mx r 0x20 c i := by
    rw [fetchDone_failed hstate hans hreq]
    exact stopTurn_other (by rw [hstopped]; simp)
  obtain ⟨-, hcode, hcause⟩ := ringErrWord_fields (code := 0x20) (by decide) (causeCode_lt c)
  refine ⟨_, exec_entryFetchDone s hr, ?_⟩
  rw [hdone, hstopped, hring]
  exact ⟨rfl, rfl, rfl, hcode, hcause, mem_ringFault_pend 0x20 c i hactive hfirst,
    keepsBut_trans (keepsBut_setRing s r _) (keepsBut_ringFault (s := u) 0x20 c i hactive hfirst) (by simp) (by simp)⟩

/-- R97: an index is that of the first entry from it on. -/
theorem idxAdd_zero {m : Mx} {r i : Nat} (h : i < idxMod m r) : idxAdd m r i 0 = i := Nat.mod_eq_of_lt h

/-- Settles O23: the fetch of the ring whose turn it is, and its answer by whether every beat was OK; a fetch of one entry is
one of `n`. -/
theorem entryFetch : Obligations.EntryFetch := by
  refine ⟨fun s r hr hnext hparked => entryFetch_asks s hr hnext hparked,
    fun s r i data hr hstate hans hreq hkeep hi => ?one, fun s r hr hnext => entryFetch_waits s hr hnext,
    fun s r i n data hr hstate _ hans hreq hkeep hn _ _ => entryFetchDone_ok hr hstate hans hreq hkeep hn,
    fun s r i n c data hr hstate hans hreq hclear => entryFetchDone_failed hr hstate hans hreq hclear⟩
  case one =>
    have hl : (List.range 1).map (idxAdd s.mx r i) = [i] := by simp [idxAdd_zero hi]
    obtain ⟨t, hexec, hfetch, hreqAt, -, hlive, hcache, hents, hrings, hothers, hkept⟩ :=
      entryFetchDone_ok hr hstate hans hreq hkeep (by decide)
    rw [hl] at hlive hcache hents hothers
    exact ⟨t, hexec, hfetch, hreqAt, hlive, hcache, hents i (List.mem_singleton_self i), hrings,
      fun e he => hothers e (by simpa using he), hkept⟩

end Sys2Proof.Machine
end

section
/-! PROOFS. Statements about rings that fail (03_queues.md R114, R115, R122, R126, R146): each with the state that its clause
leaves out, and what the model makes of it. -/

namespace Sys2Proof.Machine

theorem mx_of_exec {c : Instr} {s t : State} {m : Mx} (h : exec c s = .next t) (hm : exec c s = .next { s with mx := m }) :
    t.mx = m := by
  rw [hm] at h
  cases h
  rfl

/-! ## SHUTDOWN of an entry whose write has been admitted (R122) -/

/-- Ring 0 holds a NOP in its cache; the write that a REBUILD of the same entry number would make for its destination stands as
admitted. -/
def writeAdmitted : State :=
  { mx := { qe := { rings := [(0, { state := .active, live := [0] })] },
            ents := [(eidOf 0 0, some { raw := 0x19 }), (rbEid (eidOf 0 0), some { admitted := true })] } }

theorem exec_shutdown_dome (s : State) : exec (.shutdown .dome 0) s = .next { s with mx := shutdownRing 0 s.mx } := rfl

/-- R122: work of the entry has been admitted, so that it ends with SHUT_LAUNCHED (2), not SHUTDOWN (1). -/
theorem shutdownRing_writeAdmitted :
    (ent (shutdownRing 0 writeAdmitted.mx) (eidOf 0 0)).map (·.detail) = some 2 := by decide +kernel

/-- Refutes O20: its last clause has an entry that is still cached, and itself not admitted, end with detail SHUTDOWN, whatever
else works for the entry. -/
theorem not_ringStates : ¬ Obligations.RingStates := by
  rintro ⟨-, -, -, -, -, -, -, -, -, -, -, -, hcached⟩
  have hent : ent writeAdmitted.mx (eidOf 0 0) = some { raw := 0x19 } := by decide +kernel
  have hopc : eOpc { raw := 0x19 } = 0x19 := by decide +kernel
  obtain ⟨t, f, hexec, -, -, hfinal, -, -, hdetail⟩ := hcached writeAdmitted .dome 0 0 { raw := 0x19 } (by decide)
    (by decide) (.inl rfl) rfl rfl hent rfl rfl hopc rfl rfl rfl rfl rfl rfl rfl rfl rfl
  have hlaunched := shutdownRing_writeAdmitted
  rw [← mx_of_exec hexec (exec_shutdown_dome writeAdmitted), hfinal] at hlaunched
  simp [hdetail] at hlaunched

/-! ## HEAD within CPT (R114, R115) -/

/-- Ring 0, whose indices run to 31: CPT as last brought forward is 31, as far from HEAD as an index can be, and the WRITE_ORD of
slot 31 has been issued, so that CPT reads 0. -/
def cptWraps : State := { mx := { qe := { rings := [(0, { state := .active, cpt := 31, orded := [31] })] } } }

theorem exec_dbHead_dome (v : Word) (s : State) : exec (.dbHead .dome 0 v) s = .next { s with mx := headBell 0 v s.mx } := rfl

/-- R114: a HEAD of 31 lies past CPT: the doorbell is refused. -/
theorem headBell_cptWraps : (ring (headBell 0 31 cptWraps.mx) 0).head = 0 := by decide +kernel

/-- Refutes O22: its second clause measures HEAD against CPT as the ring last brought it forward; R114 and the model measure it
against CPT as it reads, which may have gone on and come round to HEAD. -/
theorem not_doorbellsAndHolds : ¬ Obligations.DoorbellsAndHolds := by
  rintro ⟨-, hhead, -⟩
  have hlt : (31 : Word).toNat < idxMod cptWraps.mx 0 := by decide +kernel
  have hwithin : idxSub cptWraps.mx 0 (31 : Word).toNat (ring cptWraps.mx 0).head ≤
      idxSub cptWraps.mx 0 (ring cptWraps.mx 0).cpt (ring cptWraps.mx 0).head := by decide +kernel
  obtain ⟨t, hexec, hring, -⟩ := hhead cptWraps .dome 0 31 (by decide) (.inl rfl) (.inl rfl) hlt hwithin rfl
  have hrefused := headBell_cptWraps
  rw [← mx_of_exec hexec (exec_dbHead_dome 31 cptWraps), hring] at hrefused
  exact absurd hrefused (by decide)

/-! ## A notice of an entry whose completion's WRITE has failed (R126, R146; 01_architecture.md R35) -/

/-- Ring 0 runs on after a RESUME; the notice of its entry 0 has been written, and the WRITE of the entry's completion failed
meanwhile. -/
def bodyLost : State :=
  { mx := { qe := { rings := [(0, { state := .active, live := [0] })] },
            ents := [(eidOf 0 0, some { stage := .noticed, ntcAns := some none, bodyBad := some .tgtErr })] } }

theorem exec_noticeWriteResponse_zero (s : State) :
    exec (.noticeWriteResponse 0 0) s = .next { s with mx := ntcAnswered 0 0 s.mx } := rfl

/-- R35: the entry signals no vector. -/
theorem ntcAnswered_bodyLost : (ntcAnswered 0 0 bodyLost.mx).ic.pend = [] := by decide +kernel

/-- Refutes O24: its clause about a notice's write that succeeds has the ring's vector follow also where the WRITE of the
completion has failed. -/
theorem not_completionsAndNotices : ¬ Obligations.CompletionsAndNotices := by
  rintro ⟨-, -, -, -, -, -, -, -, hnotice, -⟩
  obtain ⟨t, hexec, -, hpend, -⟩ := hnotice bodyLost 0 0 { stage := .noticed, ntcAns := some none, bodyBad := some .tgtErr }
    (by decide) (by decide) rfl rfl rfl rfl rfl (by decide) (by decide)
  rw [mx_of_exec hexec (exec_noticeWriteResponse_zero bodyLost), ntcAnswered_bodyLost] at hpend
  simp at hpend

end Sys2Proof.Machine
end

section
/-! PROOFS. Bytes of the Seeing table: what a little-endian field of it holds, and what a write of bytes leaves of a memory
(00_scope.md R18; 09_seeing.md R336). -/

namespace Sys2Proof.Machine

/-! ## Little-endian numbers -/

@[simp] theorem length_leBytes (n v : Nat) : (leBytes n v).length = n := by
  induction n generalizing v with
  | zero => rfl
  | succ n ih => rw [leBytes, List.length_cons, ih]

theorem leNat_leBytes (n : Nat) {v : Nat} (h : v < 256 ^ n) : leNat (leBytes n v) = v := by
  induction n generalizing v with
  | zero => simp at h; simp [leBytes, leNat, h]
  | succ n ih =>
    have hv : v / 256 < 256 ^ n := Nat.div_lt_of_lt_mul (by rwa [Nat.pow_succ'] at h)
    rw [leBytes, leNat, ih hv, BitVec.toNat_ofNat]
    exact Nat.mod_add_div v 256

/-! ## Writes of bytes -/

theorem memGet_memWrite_outside (m : Mem) (a i : Nat) (l : List Byte) (h : i < a ∨ a + l.length ≤ i) :
    memGet (memWrite m a l) i = memGet m i := by
  induction l generalizing m a with
  | nil => rfl
  | cons b l ih =>
    rw [List.length_cons] at h
    rw [memWrite, ih _ _ (by omega), memGet_memSet, if_neg (by omega)]

theorem memRead_memWrite_apart (m : Mem) (a n b : Nat) (l : List Byte) (h : a + n ≤ b ∨ b + l.length ≤ a) :
    memRead (memWrite m b l) a n = memRead m a n := by
  refine List.map_congr_left fun i hi => memGet_memWrite_outside _ _ _ _ ?_
  have := List.mem_range.mp hi
  omega

theorem memRead_succ (m : Mem) (a n : Nat) : memRead m a (n + 1) = memGet m a :: memRead m (a + 1) n := by
  simp [memRead, List.range_succ_eq_map, Nat.add_assoc, Nat.add_comm 1]

theorem memRead_memWrite (m : Mem) (a : Nat) (l : List Byte) : memRead (memWrite m a l) a l.length = l := by
  induction l generalizing m a with
  | nil => rfl
  | cons b l ih =>
    rw [List.length_cons, memRead_succ, memWrite, ih, memGet_memWrite_outside _ _ _ _ (by omega), memGet_memSet, if_pos rfl]

theorem memWrite_append (m : Mem) (a : Nat) (k l : List Byte) :
    memWrite m a (k ++ l) = memWrite (memWrite m a k) (a + k.length) l := by
  induction k generalizing m a with
  | nil => rfl
  | cons b k ih => rw [List.cons_append, memWrite, memWrite, ih, List.length_cons, Nat.add_right_comm, Nat.add_assoc]

/-- A run of bytes within a longer write. -/
theorem memRead_memWrite_part (m : Mem) (a : Nat) (k l r : List Byte) :
    memRead (memWrite m a (k ++ l ++ r)) (a + k.length) l.length = l := by
  rw [memWrite_append, memRead_memWrite_apart _ _ _ _ _ (by rw [List.length_append]; omega), memWrite_append, memRead_memWrite]

/-! ## Writes of the table -/

section
variable (m : Mx) (a b n : Nat) (l : List Byte)

theorem memGet_sgPut_outside (h : b < a ∨ a + l.length ≤ b) : memGet (sgPut a l m).sg.table b = memGet m.sg.table b :=
  memGet_memWrite_outside _ _ _ _ h

theorem memGet_sgPut_byte (x : Byte) : memGet (sgPut a [x] m).sg.table b = if b = a then x else memGet m.sg.table b :=
  memGet_memSet _ _ _ _

theorem sgLe_congr {m t : Mx} (h : ∀ i, i < n → memGet t.sg.table (a + i) = memGet m.sg.table (a + i)) :
    sgLe t a n = sgLe m a n :=
  congrArg leNat (List.map_congr_left fun i hi => h i (List.mem_range.mp hi))

variable {n} in
theorem sgLe_sgPut {v : Nat} (h : v < 256 ^ n) : sgLe (sgPut a (leBytes n v) m) a n = v := by
  have hread : memRead (memWrite m.sg.table a (leBytes n v)) a n = leBytes n v := by
    simpa using memRead_memWrite m.sg.table a (leBytes n v)
  rw [sgLe, sgPut, hread, leNat_leBytes n h]

/-- A field within a longer write. -/
theorem sgLe_sgPut_part (k r : List Byte) {v : Nat} (h : v < 256 ^ n) :
    sgLe (sgPut a (k ++ leBytes n v ++ r) m) (a + k.length) n = v := by
  have hread : memRead (memWrite m.sg.table a (k ++ leBytes n v ++ r)) (a + k.length) n = leBytes n v := by
    simpa using memRead_memWrite_part m.sg.table a k (leBytes n v) r
  rw [sgLe, sgPut, hread, leNat_leBytes n h]

theorem sgInt_congr {m t : Mx} {a : Nat} (h : memGet t.sg.table a = memGet m.sg.table a) : sgInt t a = sgInt m a := by
  rw [sgInt, sgInt, sgByte, sgByte, h]

end

/-- A signed byte reads back as the integer it holds. -/
theorem signed_unsigned {i : Int} (hlo : -128 ≤ i) (hhi : i ≤ 127) :
    signed 8 (BitVec.ofNat 8 (unsigned 8 i)).toNat = i := by
  simp only [signed, unsigned, BitVec.toNat_ofNat]
  omega

theorem sgInt_of_byte {m : Mx} {a : Nat} {i : Int} (hlo : -128 ≤ i) (hhi : i ≤ 127)
    (h : memGet m.sg.table a = BitVec.ofNat 8 (unsigned 8 i)) : sgInt m a = i := by
  rw [sgInt, sgByte, h, signed_unsigned hlo hhi]

theorem clampI_bounds {lo hi : Int} (i : Int) (h : lo ≤ hi) : lo ≤ clampI lo hi i ∧ clampI lo hi i ≤ hi := by
  unfold clampI
  split
  · omega
  · split <;> omega

theorem satInc_le {n lim : Nat} : satInc n lim ≤ lim := by
  unfold satInc
  split <;> omega

theorem keepsBut_sg (s : State) (g : Sg) : keepsBut [.sg] s { s with mx := { s.mx with sg := g } } :=
  ⟨rfl, fun p hp => by cases p <;> simp [Area.same] at hp ⊢⟩

end Sys2Proof.Machine
end

section
/-! PROOFS. Learning: the vote of the oldest statistics record (09_seeing.md R346, R347). -/

namespace Sys2Proof.Machine

theorem exec_learningUpdate (s : State) : exec .learningUpdate s = .next { s with mx := learnNext s.mx } := rfl

/-- The oldest record is taken from those that wait. -/
def recTaken (rs : List Stat) (m : Mx) : Mx := { m with sg := { m.sg with recs := rs } }

theorem exec_learn {s : State} {r : Stat} {rs : List Stat} (hrecs : s.mx.sg.recs = r :: rs) :
    exec .learningUpdate s = .next { s with mx := learn r (recTaken rs s.mx) } := by
  rw [exec_learningUpdate, learnNext, hrecs]
  rfl

theorem learn_off {r : Stat} {m : Mx} (h : bit (sgCfg m) 30 = false) : learn r m = m := by
  simp [learn, h]

theorem learn_untaught {r : Stat} {m : Mx} (h : r.result ≠ 0 ∨ served m r.die = false) : learn r m = m := by
  rcases h with h | h <;> simp [learn, h]

/-- The votes of a record's block group, counted. -/
def countVotes (r : Stat) (m : Mx) : Mx :=
  sgPut (bgState r.die r.bg + 8) (leBytes 4 (satInc (sgLe m (bgState r.die r.bg + 8) 4) 0xFFFFFFFF)) m

theorem learn_oneLevel {r : Stat} {m : Mx} {l f g : Nat} (hon : bit (sgCfg m) 30 = true) (hres : r.result = 0)
    (hserved : served m r.die = true) (hlevels : r.levels = [l]) (hfell : r.fell = [f]) (hrose : r.rose = [g]) :
    learn r m = countVotes r (voteLevel r l f g m) := by
  simp [learn, hon, hres, hserved, hlevels, hfell, hrose, each, countVotes, List.range_succ]

/-! ## The vote of one level -/

/-- Where the accumulator of a level stands in the table (R336). -/
def accAt (i l : Nat) : Nat := 0x80000 + 16 * i + (l - 1)

/-- A vote is added to a level's accumulator, which at HYST starts again and moves the level. -/
def castVote (i l : Nat) (v : Int) (m : Mx) : Mx :=
  if sgHyst m ≤ (sgInt m (accAt i l) + v).natAbs then moveLevel i l v (sgPut (accAt i l) [0] m)
  else sgPut (accAt i l) [BitVec.ofNat 8 (unsigned 8 (clampI (-128) 127 (sgInt m (accAt i l) + v)))] m

theorem voteLevel_tooLittle {r : Stat} {l f g : Nat} {m : Mx} (h : ((f : Int) - g).natAbs < sgDmin m) :
    voteLevel r l f g m = m := by
  simp [voteLevel, h]

/-- More cells fell below the level than rose above it: it is too high, unless the read used less than is predicted. -/
theorem voteLevel_fell {r : Stat} {l f g : Nat} {m : Mx} (hlt : g < f) (hmin : sgDmin m ≤ f - g)
    (hused : r.used.getD (l - 1) 0 ≤ predict m r.die r.bg r.bin l) :
    voteLevel r l f g m = castVote (bgIdx r.die r.bg) l (-1) m := by
  have hpos : 0 < (f : Int) - g := by omega
  have henough : ¬((f : Int) - g).natAbs < sgDmin m := by omega
  have hsays : ¬(((-1 : Int) < 0 ∧ predict m r.die r.bg r.bin l < r.used.getD (l - 1) 0) ∨
      ((0 : Int) < -1 ∧ r.used.getD (l - 1) 0 < predict m r.die r.bg r.bin l)) := by omega
  unfold voteLevel
  dsimp only
  rw [if_neg henough, if_pos hpos, if_neg hsays]
  rfl

theorem voteLevel_rose {r : Stat} {l f g : Nat} {m : Mx} (hlt : f < g) (hmin : sgDmin m ≤ g - f)
    (hused : predict m r.die r.bg r.bin l ≤ r.used.getD (l - 1) 0) :
    voteLevel r l f g m = castVote (bgIdx r.die r.bg) l 1 m := by
  have hneg : ¬0 < (f : Int) - g := by omega
  have henough : ¬((f : Int) - g).natAbs < sgDmin m := by omega
  have hsays : ¬(((1 : Int) < 0 ∧ predict m r.die r.bg r.bin l < r.used.getD (l - 1) 0) ∨
      ((0 : Int) < 1 ∧ r.used.getD (l - 1) 0 < predict m r.die r.bg r.bin l)) := by omega
  unfold voteLevel
  dsimp only
  rw [if_neg henough, if_neg hneg, if_neg hsays]
  rfl

/-! ## What a vote leaves of the table -/

/-- The accumulator has reached HYST with this vote. -/
def voteFull (i l : Nat) (v : Int) (m : Mx) : Bool := decide (sgHyst m ≤ (sgInt m (accAt i l) + v).natAbs)

/-- The vote moves the learned offset. -/
def voteMoves (i l : Nat) (v : Int) (m : Mx) : Bool := voteFull i l v m && decide (sgLbound m ≠ 0)

theorem castVote_adds {i l : Nat} {v : Int} {m : Mx} (h : voteFull i l v m = false) : castVote i l v m =
    sgPut (accAt i l) [BitVec.ofNat 8 (unsigned 8 (clampI (-128) 127 (sgInt m (accAt i l) + v)))] m :=
  if_neg (of_decide_eq_false h)

theorem castVote_restarts {i l : Nat} {v : Int} {m : Mx} (hfull : voteFull i l v m = true)
    (hmoves : voteMoves i l v m = false) : castVote i l v m = sgPut (accAt i l) [0] m := by
  have hbound : sgLbound m = 0 := by simpa [voteMoves, hfull] using hmoves
  have hbound' : sgLbound (sgPut (accAt i l) [0] m) = 0 := hbound
  rw [castVote, if_pos (of_decide_eq_true hfull), moveLevel, if_pos hbound']

/-- The byte of a learned offset that a vote has moved. -/
def movedByte (i l : Nat) (v : Int) (m : Mx) : Byte :=
  BitVec.ofNat 8 (unsigned 8 (clampI (-(sgLbound m : Int)) (sgLbound m) (learned m i l + v)))

theorem learnedAt_lt_accAt (i l : Nat) : 16 * i + (l - 1) < accAt i l := by unfold accAt; omega

theorem castVote_moves {i l : Nat} {v : Int} {m : Mx} (hmoves : voteMoves i l v m = true) : castVote i l v m =
    let t := sgPut (16 * i + (l - 1)) [movedByte i l v m] (sgPut (accAt i l) [0] m)
    { t with sg := { t.sg with moves := satInc m.sg.moves 0xFFFFFFFF } } := by
  obtain ⟨hfull, hbound⟩ : voteFull i l v m = true ∧ sgLbound m ≠ 0 := by simpa [voteMoves] using hmoves
  have hbound' : sgLbound (sgPut (accAt i l) [0] m) ≠ 0 := hbound
  have hlearned : learned (sgPut (accAt i l) [0] m) i l = learned m i l :=
    sgInt_congr (memGet_sgPut_outside _ _ _ _ (.inl (learnedAt_lt_accAt i l)))
  rw [castVote, if_pos (of_decide_eq_true hfull), moveLevel, if_neg hbound', hlearned]
  rfl

/-- A vote moves nothing but the table and the count of moves. -/
theorem castVote_eq (i l : Nat) (v : Int) (m : Mx) : castVote i l v m = { m with sg := { m.sg with
    table := (castVote i l v m).sg.table
    moves := if voteMoves i l v m then satInc m.sg.moves 0xFFFFFFFF else m.sg.moves } } := by
  cases hmoves : voteMoves i l v m with
  | true => rw [castVote_moves hmoves]; rfl
  | false =>
    cases hfull : voteFull i l v m with
    | true => rw [castVote_restarts hfull hmoves]; rfl
    | false => rw [castVote_adds hfull]; rfl

theorem castVote_outside {i l a : Nat} (v : Int) (m : Mx) (hl : a ≠ 16 * i + (l - 1)) (hacc : a ≠ accAt i l) :
    memGet (castVote i l v m).sg.table a = memGet m.sg.table a := by
  cases hmoves : voteMoves i l v m with
  | true =>
    rw [castVote_moves hmoves]
    exact ((memGet_sgPut_byte _ _ _ _).trans (if_neg hl)).trans ((memGet_sgPut_byte _ _ _ _).trans (if_neg hacc))
  | false =>
    cases hfull : voteFull i l v m with
    | true => rw [castVote_restarts hfull hmoves, memGet_sgPut_byte, if_neg hacc]
    | false => rw [castVote_adds hfull, memGet_sgPut_byte, if_neg hacc]

theorem castVote_acc (i l : Nat) (v : Int) (m : Mx) : sgInt (castVote i l v m) (accAt i l) =
    if voteFull i l v m then 0 else clampI (-128) 127 (sgInt m (accAt i l) + v) := by
  have hzero (t : Mx) (h : memGet t.sg.table (accAt i l) = 0) : sgInt t (accAt i l) = 0 :=
    sgInt_of_byte (by decide) (by decide) h
  cases hmoves : voteMoves i l v m with
  | true =>
    have hfull : voteFull i l v m = true := (Bool.and_eq_true_iff.mp hmoves).1
    rw [hfull, if_pos rfl, castVote_moves hmoves]
    refine hzero _ (((memGet_sgPut_byte _ _ _ _).trans (if_neg (Nat.ne_of_gt (learnedAt_lt_accAt i l)))).trans ?_)
    rw [memGet_sgPut_byte, if_pos rfl]
  | false =>
    cases hfull : voteFull i l v m with
    | true =>
      rw [if_pos rfl, castVote_restarts hfull hmoves]
      exact hzero _ (by rw [memGet_sgPut_byte, if_pos rfl])
    | false =>
      obtain ⟨hlo, hhi⟩ := clampI_bounds (lo := -128) (hi := 127) (sgInt m (accAt i l) + v) (by decide)
      rw [if_neg Bool.false_ne_true, castVote_adds hfull]
      exact sgInt_of_byte hlo hhi (by rw [memGet_sgPut_byte, if_pos rfl])

theorem castVote_stays {i l : Nat} {v : Int} {m : Mx} (h : voteMoves i l v m = false) :
    sgInt (castVote i l v m) (16 * i + (l - 1)) = learned m i l := by
  have hne : 16 * i + (l - 1) ≠ accAt i l := Nat.ne_of_lt (learnedAt_lt_accAt i l)
  refine sgInt_congr ?_
  cases hfull : voteFull i l v m with
  | true => rw [castVote_restarts hfull h, memGet_sgPut_byte, if_neg hne]
  | false => rw [castVote_adds hfull, memGet_sgPut_byte, if_neg hne]

theorem castVote_learned {i l : Nat} {v : Int} {m : Mx} (h : voteMoves i l v m = true) :
    sgInt (castVote i l v m) (16 * i + (l - 1)) =
      clampI (-(sgLbound m : Int)) (sgLbound m) (learned m i l + v) := by
  have hbound : sgLbound m ≤ 127 := Nat.min_le_left _ _
  obtain ⟨hlo, hhi⟩ := clampI_bounds (lo := -(sgLbound m : Int)) (hi := sgLbound m) (learned m i l + v) (by omega)
  rw [castVote_moves h]
  exact sgInt_of_byte (by omega) (by omega) ((memGet_sgPut_byte _ _ _ _).trans (if_pos rfl))

/-! ## The record applied -/

/-- What a vote `v` of one level of a record leaves: the statement of R346 for either sense. -/
def votedAs (r : Stat) (rs : List Stat) (l : Nat) (v : Int) (s t : State) : Prop :=
  let i := bgIdx r.die r.bg
  t.mx.sg.recs = rs ∧
  sgInt t.mx (accAt i l) = (if voteFull i l v s.mx then 0 else clampI (-128) 127 (sgInt s.mx (accAt i l) + v)) ∧
  (voteMoves i l v s.mx = false → sgInt t.mx (16 * i + (l - 1)) = learned s.mx i l) ∧
  (voteMoves i l v s.mx = true →
    sgInt t.mx (16 * i + (l - 1)) = clampI (-(sgLbound s.mx : Int)) (sgLbound s.mx) (learned s.mx i l + v)) ∧
  t.mx.sg.moves = (if voteMoves i l v s.mx then satInc s.mx.sg.moves 0xFFFFFFFF else s.mx.sg.moves) ∧
  sgLe t.mx (bgState r.die r.bg + 8) 4 = satInc (sgLe s.mx (bgState r.die r.bg + 8) 4) 0xFFFFFFFF ∧
  (∀ a, a ≠ 16 * i + (l - 1) → a ≠ accAt i l →
    (a < bgState r.die r.bg + 8 ∨ bgState r.die r.bg + 12 ≤ a) → memGet t.mx.sg.table a = memGet s.mx.sg.table a) ∧
  keepsBut [.sg] s t

theorem countVotes_outside {r : Stat} {a : Nat} (m : Mx) (h : a < bgState r.die r.bg + 8 ∨ bgState r.die r.bg + 12 ≤ a) :
    memGet (countVotes r m).sg.table a = memGet m.sg.table a :=
  memGet_sgPut_outside _ _ _ _ (by rw [length_leBytes]; omega)

theorem countVotes_votes (r : Stat) (m : Mx) : sgLe (countVotes r m) (bgState r.die r.bg + 8) 4 =
    satInc (sgLe m (bgState r.die r.bg + 8) 4) 0xFFFFFFFF :=
  sgLe_sgPut _ _ (Nat.lt_of_le_of_lt satInc_le (by decide))

/-- The accumulators lie below the block groups' state. -/
theorem accAt_lt_bgState (d b : Nat) {l : Nat} (hl : l ≤ 16) : accAt (bgIdx d b) l < bgState d b := by
  unfold accAt bgState bgIdx
  omega

theorem votedAs_castVote {s : State} {r : Stat} {l : Nat} (rs : List Stat) (v : Int) (hl : l ≤ 16) :
    votedAs r rs l v s { s with mx := countVotes r (castVote (bgIdx r.die r.bg) l v (recTaken rs s.mx)) } := by
  have hacc := accAt_lt_bgState r.die r.bg hl
  unfold votedAs
  generalize bgIdx r.die r.bg = i at hacc ⊢
  let m := recTaken rs s.mx
  have hlearned : 16 * i + (l - 1) < accAt i l := learnedAt_lt_accAt i l
  have hbelow {a : Nat} (ha : a < bgState r.die r.bg) :
      sgInt (countVotes r (castVote i l v m)) a = sgInt (castVote i l v m) a :=
    sgInt_congr (countVotes_outside _ (.inl (by omega)))
  refine ⟨?recs, (hbelow hacc).trans (castVote_acc i l v m), fun h => (hbelow (by omega)).trans (castVote_stays h),
    fun h => (hbelow (by omega)).trans (castVote_learned h), ?moves, ?votes, fun a ha ha' hout => ?rest, ?keeps⟩
  case recs => exact congrArg (·.sg.recs) (castVote_eq i l v m)
  case moves => exact congrArg (·.sg.moves) (castVote_eq i l v m)
  case votes =>
    refine (countVotes_votes r _).trans (congrArg (satInc · _) (sgLe_congr _ _ fun k hk => ?_))
    exact castVote_outside v m (by omega) (by omega)
  case rest => exact (countVotes_outside _ hout).trans (castVote_outside v m ha ha')
  case keeps =>
    rw [castVote_eq]
    exact keepsBut_sg s _

section
variable {s : State} {r : Stat} {rs : List Stat} {l f g : Nat} (hrecs : s.mx.sg.recs = r :: rs)
  (hon : bit (sgCfg s.mx) 30 = true) (hres : r.result = 0) (hserved : served s.mx r.die = true) (hlevels : r.levels = [l])
  (hfell : r.fell = [f]) (hrose : r.rose = [g])
include hrecs hon hres hserved hlevels hfell hrose

theorem exec_learn_oneLevel : exec .learningUpdate s =
    .next { s with mx := countVotes r (voteLevel r l f g (recTaken rs s.mx)) } := by
  rw [exec_learn hrecs, learn_oneLevel (m := recTaken rs s.mx) hon hres hserved hlevels hfell hrose]

theorem learningUpdate_fell (hl : l ≤ 16) (hlt : g < f) (hmin : sgDmin s.mx ≤ f - g)
    (hused : r.used.getD (l - 1) 0 ≤ predict s.mx r.die r.bg r.bin l) :
    ∃ t, exec .learningUpdate s = .next t ∧ votedAs r rs l (-1) s t := by
  refine ⟨_, exec_learn_oneLevel hrecs hon hres hserved hlevels hfell hrose, ?_⟩
  rw [voteLevel_fell (m := recTaken rs s.mx) hlt hmin hused]
  exact votedAs_castVote rs (-1) hl

theorem learningUpdate_rose (hl : l ≤ 16) (hlt : f < g) (hmin : sgDmin s.mx ≤ g - f)
    (hused : predict s.mx r.die r.bg r.bin l ≤ r.used.getD (l - 1) 0) :
    ∃ t, exec .learningUpdate s = .next t ∧ votedAs r rs l 1 s t := by
  refine ⟨_, exec_learn_oneLevel hrecs hon hres hserved hlevels hfell hrose, ?_⟩
  rw [voteLevel_rose (m := recTaken rs s.mx) hlt hmin hused]
  exact votedAs_castVote rs 1 hl

/-- A record that does not vote is counted all the same. -/
theorem learningUpdate_tooLittle (hmin : ((f : Int) - g).natAbs < sgDmin s.mx) :
    ∃ t, exec .learningUpdate s = .next t ∧ t.mx.sg = { s.mx.sg with recs := rs, table := t.mx.sg.table } ∧
      sgLe t.mx (bgState r.die r.bg + 8) 4 = satInc (sgLe s.mx (bgState r.die r.bg + 8) 4) 0xFFFFFFFF ∧
      (∀ a, (a < bgState r.die r.bg + 8 ∨ bgState r.die r.bg + 12 ≤ a) →
        memGet t.mx.sg.table a = memGet s.mx.sg.table a) ∧
      keepsBut [.sg] s t := by
  refine ⟨_, exec_learn_oneLevel hrecs hon hres hserved hlevels hfell hrose, ?_⟩
  rw [voteLevel_tooLittle (m := recTaken rs s.mx) hmin]
  exact ⟨rfl, countVotes_votes r _, fun a ha => countVotes_outside _ ha, keepsBut_sg s _⟩

end

/-- A record that teaches nothing is taken all the same. -/
theorem learningUpdate_off {s : State} {r : Stat} {rs : List Stat} (hrecs : s.mx.sg.recs = r :: rs)
    (hoff : bit (sgCfg s.mx) 30 = false) : exec .learningUpdate s = .next { s with mx := recTaken rs s.mx } := by
  rw [exec_learn hrecs, learn_off (m := recTaken rs s.mx) hoff]

theorem learningUpdate_untaught {s : State} {r : Stat} {rs : List Stat} (hrecs : s.mx.sg.recs = r :: rs)
    (h : r.result ≠ 0 ∨ served s.mx r.die = false) :
    exec .learningUpdate s = .next { s with mx := recTaken rs s.mx } := by
  rw [exec_learn hrecs, learn_untaught (m := recTaken rs s.mx) h]

theorem learningUpdate_none {s : State} (h : s.mx.sg.recs = []) : exec .learningUpdate s = .next s := by
  rw [exec_learningUpdate, learnNext, h]

end Sys2Proof.Machine
end

section
/-! PROOFS. Table access through SG_TADDR and SG_TDATA, and the flags that follow a host's write of a block group's state
(09_seeing.md R341, R354, R357, R361, R367). -/

namespace Sys2Proof.Machine

/-! ## The address steps -/

/-- SG_TADDR after an access of SG_TDATA: with INC set, the next word of the table's 2 MiB. -/
def nextTaddr (m : Mx) : Word :=
  if bit (reg m (sgOff 0x38)) 31 then word (2 ^ 31 + (sgAddr m + 4) % 2 ^ 21) else reg m (sgOff 0x38)

theorem sgAdvance_eq (m : Mx) :
    sgAdvance m = if bit (reg m (sgOff 0x38)) 31 then setReg m (sgOff 0x38) (nextTaddr m) else m := by
  unfold sgAdvance
  dsimp only
  split
  · rename_i hinc
    have hstep : 4 * ((fld (reg m (sgOff 0x38)) 20 2 + 1) % 2 ^ 19) = (sgAddr m + 4) % 2 ^ 21 := by
      unfold sgAddr
      omega
    rw [nextTaddr, if_pos hinc, hstep]
  · rfl

theorem reg_sgAdvance (m : Mx) : reg (sgAdvance m) (sgOff 0x38) = nextTaddr m := by
  rw [sgAdvance_eq]
  split
  · exact reg_setReg _ _ _
  · rename_i hinc
    rw [nextTaddr, if_neg hinc]

theorem reg_sgAdvance_ne (m : Mx) {o : Nat} (h : o ≠ sgOff 0x38) : reg (sgAdvance m) o = reg m o := by
  rw [sgAdvance_eq]
  split
  · exact reg_setReg_ne _ _ _ _ h.symm
  · rfl

theorem keepsBut_sgAdvance (s : State) : keepsBut [.regs] s { s with mx := sgAdvance s.mx } := by
  rw [sgAdvance_eq]
  split
  · exact keepsBut_setReg s _ _
  · exact keepsBut_refl s _

@[simp] theorem sgAdvance_sg (m : Mx) : (sgAdvance m).sg = m.sg := by rw [sgAdvance_eq]; split <;> rfl
@[simp] theorem sgAdvance_cp (m : Mx) : (sgAdvance m).cp = m.cp := by rw [sgAdvance_eq]; split <;> rfl
@[simp] theorem sgAdvance_nl (m : Mx) : (sgAdvance m).nl = m.nl := by rw [sgAdvance_eq]; split <;> rfl
@[simp] theorem sgAdvance_ic (m : Mx) : (sgAdvance m).ic = m.ic := by rw [sgAdvance_eq]; split <;> rfl

/-! ## The commands -/

section
variable {s : State}

theorem exec_sgTdataWrite (v : Word) (h : carried s (sgOff 0x3C)) :
    exec (.sgTdataWrite v) s = .next { s with mx := tableWrite v (cpOk s.mx) } := act_access s _ true _ h

theorem exec_sgTdataRead (h : carried s (sgOff 0x3C)) :
    exec .sgTdataRead s = .next { s with mx := tableRead (cpOk s.mx) } := act_access s _ false _ h

theorem exec_clrSpec (h : carried s (sgOff 4)) : exec .clrSpec s = .next { s with mx := clearSpec (cpOk s.mx) } :=
  act_access s _ true _ h

theorem exec_clrMoves (h : carried s (sgOff 4)) : exec .clrMoves s = .next { s with mx := clearMoves (cpOk s.mx) } :=
  act_access s _ true _ h

theorem keepsBut_cpOk (s : State) : keepsBut [.cp] s { s with mx := cpOk s.mx } := keepsBut_cp s _

/-- The control port clears CP_ERR and Seeing changes. -/
theorem keepsBut_hostSg (s : State) (g : Sg) : keepsBut [.sg, .cp] s { s with mx := { cpOk s.mx with sg := g } } :=
  keepsBut_trans (keepsBut_cpOk s) (keepsBut_sg { s with mx := cpOk s.mx } g) (by simp) (by simp)

theorem clrSpec_clears (h : carried s (sgOff 4)) : ∃ t, exec .clrSpec s = .next t ∧
    t.mx.sg = { s.mx.sg with specrd := 0 } ∧ t.mx.cp = { s.mx.cp with err := false } ∧ keepsBut [.sg, .cp] s t :=
  ⟨_, exec_clrSpec h, rfl, rfl, keepsBut_hostSg s _⟩

theorem clrMoves_clears (h : carried s (sgOff 4)) : ∃ t, exec .clrMoves s = .next t ∧
    t.mx.sg = { s.mx.sg with moves := 0 } ∧ t.mx.cp = { s.mx.cp with err := false } ∧ keepsBut [.sg, .cp] s t :=
  ⟨_, exec_clrMoves h, rfl, rfl, keepsBut_hostSg s _⟩

theorem sgTdataRead_shows (h : carried s (sgOff 0x3C)) : ∃ t, exec .sgTdataRead s = .next t ∧ t.mx.cp.err = false ∧
    t.mx.cp.rdata = (if sgAddr s.mx < 0x190000 then word (sgLe s.mx (sgAddr s.mx) 4) else 0) ∧
    reg t.mx (sgOff 0x38) = nextTaddr s.mx ∧ (∀ o, o ≠ sgOff 0x38 → reg t.mx o = reg s.mx o) ∧
    keepsBut [.regs, .cp] s t := by
  let m := answer (cpOk s.mx) (tableWord (cpOk s.mx))
  have hword : tableWord (cpOk s.mx) = if sgAddr s.mx < 0x190000 then word (sgLe s.mx (sgAddr s.mx) 4) else 0 := by
    simp only [← Nat.not_le, ite_not]
    rfl
  refine ⟨_, exec_sgTdataRead h, congrArg (·.err) (sgAdvance_cp m), ?_, reg_sgAdvance m, fun o ho => reg_sgAdvance_ne m ho,
    keepsBut_trans (keepsBut_cp s m.cp) (keepsBut_sgAdvance { s with mx := m }) (by simp) (by simp)⟩
  exact (congrArg (·.rdata) (sgAdvance_cp m)).trans hword

/-! ## A word written -/

/-- The word at SG_TADDR, set by host firmware. -/
def wordPut (v : Word) (m : Mx) : Mx := sgPut (sgAddr m) (leBytes 4 v.toNat) (cpOk m)

theorem wordPut_word (v : Word) (m : Mx) : sgLe (wordPut v m) (sgAddr m) 4 = v.toNat :=
  sgLe_sgPut _ _ (Nat.lt_of_lt_of_eq v.isLt (by decide))

theorem wordPut_outside {m : Mx} {a : Nat} (v : Word) (h : a < sgAddr m ∨ sgAddr m + 4 ≤ a) :
    memGet (wordPut v m).sg.table a = memGet m.sg.table a :=
  memGet_sgPut_outside _ _ _ _ (by rwa [length_leBytes])

theorem keepsBut_wordPut (v : Word) : keepsBut [.sg, .cp] s { s with mx := wordPut v s.mx } := keepsBut_hostSg s _

theorem tableWrite_word {m : Mx} (v : Word) (h : sgAddr m < 0x100000 ∨ 0x180000 ≤ sgAddr m ∧ sgAddr m < 0x18FC00) :
    tableWrite v (cpOk m) = sgAdvance (wordPut v m) := by
  have hsome : ¬0x18FC00 ≤ sgAddr (cpOk m) := fun hle => by change 0x18FC00 ≤ sgAddr m at hle; omega
  have hplain : ¬(0x100000 ≤ sgAddr (cpOk m) ∧ sgAddr (cpOk m) < 0x180000) := fun hin => by
    change 0x100000 ≤ sgAddr m ∧ sgAddr m < 0x180000 at hin; omega
  unfold tableWrite
  dsimp only
  rw [if_neg hsome, if_neg hplain]
  rfl

theorem tableWrite_state {m : Mx} (v : Word) (hlo : 0x100000 ≤ sgAddr m) (hhi : sgAddr m < 0x180000) :
    tableWrite v (cpOk m) = sgAdvance (stateWritten (sgAddr m) (wordPut v m)) := by
  have hsome : ¬0x18FC00 ≤ sgAddr (cpOk m) := fun hle => by change 0x18FC00 ≤ sgAddr m at hle; omega
  have hstate : 0x100000 ≤ sgAddr (cpOk m) ∧ sgAddr (cpOk m) < 0x180000 := ⟨hlo, hhi⟩
  unfold tableWrite
  dsimp only
  rw [if_neg hsome, if_pos hstate]
  rfl

theorem tableWrite_refused {m : Mx} (v : Word) (h : 0x18FC00 ≤ sgAddr m) :
    tableWrite v (cpOk m) = sgAdvance (log (cpOk m) .tableRefused (sgOff 0x3C)) := if_pos h

theorem sgTdataWrite_sets (v : Word) (h : carried s (sgOff 0x3C))
    (haddr : sgAddr s.mx < 0x100000 ∨ 0x180000 ≤ sgAddr s.mx ∧ sgAddr s.mx < 0x18FC00) :
    ∃ t, exec (.sgTdataWrite v) s = .next t ∧ sgLe t.mx (sgAddr s.mx) 4 = v.toNat ∧
      (∀ a, (a < sgAddr s.mx ∨ sgAddr s.mx + 4 ≤ a) → memGet t.mx.sg.table a = memGet s.mx.sg.table a) ∧
      reg t.mx (sgOff 0x38) = nextTaddr s.mx ∧ (∀ o, o ≠ sgOff 0x38 → reg t.mx o = reg s.mx o) ∧
      keepsBut [.sg, .regs, .cp] s t := by
  refine ⟨_, exec_sgTdataWrite v h, ?_⟩
  rw [tableWrite_word v haddr]
  have hsg : (sgAdvance (wordPut v s.mx)).sg = (wordPut v s.mx).sg := sgAdvance_sg _
  refine ⟨?word, fun a ha => ?rest, reg_sgAdvance _, fun o ho => reg_sgAdvance_ne _ ho,
    keepsBut_trans (keepsBut_wordPut v) (keepsBut_sgAdvance { s with mx := wordPut v s.mx }) (by simp) (by simp)⟩
  case word => exact (sgLe_congr _ _ fun i _ => by rw [hsg]).trans (wordPut_word v s.mx)
  case rest => exact (congrArg (fun g : Sg => memGet g.table a) hsg).trans (wordPut_outside v ha)

/-- R361: the image header and the working storage above it take no write. -/
theorem sgTdataWrite_refused (v : Word) (h : carried s (sgOff 0x3C)) (haddr : 0x18FC00 ≤ sgAddr s.mx) :
    ∃ t, exec (.sgTdataWrite v) s = .next t ∧ t.mx.cp = { s.mx.cp with err := false } ∧
      t.mx.nl = (log s.mx .tableRefused (sgOff 0x3C)).nl ∧ reg t.mx (sgOff 0x38) = nextTaddr s.mx ∧
      (∀ o, o ≠ sgOff 0x38 → reg t.mx o = reg s.mx o) ∧ keepsBut [.regs, .cp, .nl] s t := by
  let m := log (cpOk s.mx) .tableRefused (sgOff 0x3C)
  have hreg (o : Nat) : reg m o = reg s.mx o := reg_log _ _ _ _ _ o
  have hnext : nextTaddr m = nextTaddr s.mx := by rw [nextTaddr, nextTaddr, sgAddr, sgAddr, hreg]
  have hlogged : keepsBut [.cp, .nl] s { s with mx := m } :=
    keepsBut_trans (keepsBut_cpOk s) (keepsBut_log { s with mx := cpOk s.mx } _ _ _ _) (by simp) (by simp)
  refine ⟨_, exec_sgTdataWrite v h, ?_⟩
  rw [tableWrite_refused v haddr]
  exact ⟨(sgAdvance_cp m).trans (log_cp _ _ _ _ _), (sgAdvance_nl m).trans (log_nl_seenBy .host s.mx _ _ _ _),
    (reg_sgAdvance m).trans hnext, fun o ho => (reg_sgAdvance_ne m ho).trans (hreg o),
    keepsBut_trans hlogged (keepsBut_sgAdvance { s with mx := m }) (by simp) (by simp)⟩

end

/-! ## A block group's flags (R339) -/

/-- Where the flags of the block group stand whose state holds an address. -/
def flagsAt (a : Nat) : Nat := a / 16 * 16 + 0xC

/-- A byte of flags with flag `i` cleared or set. -/
def flagByte (f : Byte) (i : Nat) (on : Bool) : Byte :=
  BitVec.ofNat 8 (if f.toNat.testBit i then f.toNat - 2 ^ i + bitAt on i else f.toNat + bitAt on i)

theorem flagByte_clear0 : ∀ f : Byte, flagByte f 0 false = f &&& 0xFE := by decide
theorem flagByte_clear1 : ∀ f : Byte, flagByte f 1 false = f &&& 0xFD := by decide
theorem flagByte_set1 : ∀ f : Byte, flagByte f 1 true = f ||| 2 := by decide
theorem or_two_of_testBit : ∀ f : Byte, f.toNat.testBit 1 = true → f ||| 2 = f := by decide

theorem setFlag_eq (d b i : Nat) (on : Bool) (m : Mx) : setFlag d b i on m =
    sgPut (bgState d b + 0xC) [flagByte (memGet m.sg.table (bgState d b + 0xC)) i on] m := rfl

theorem memGet_setFlag (d b i : Nat) (on : Bool) (m : Mx) (a : Nat) : memGet (setFlag d b i on m).sg.table a =
    if a = bgState d b + 0xC then flagByte (memGet m.sg.table a) i on else memGet m.sg.table a := by
  rw [setFlag_eq, memGet_sgPut_byte]
  split
  · rename_i h
    rw [h]
  · rfl

theorem keepsBut_setFlag (s : State) (d b i : Nat) (on : Bool) : keepsBut [.sg] s { s with mx := setFlag d b i on s.mx } :=
  keepsBut_sg s _

/-! ## DISTURB against its limit (R354) -/

def distLim (m : Mx) : Nat := (reg m (sgOff 0x20)).toNat

theorem disturbLimit_within {d b : Nat} {m : Mx}
    (h : distLim m = 0 ∨ bgDisturb m d b ≤ distLim m ∨ (bgFlags m d b).testBit 1 = true) :
    disturbLimit d b m = m := if_pos h

/-- DISTF set and SG_DISTEV filled. -/
def disturbNoted (d b : Nat) (m : Mx) : Mx :=
  { m with sg := { (setFlag d b 1 true m).sg with
    distev := if bit m.sg.distev 31 then m.sg.distev else word (2 ^ 31 + 2 ^ 11 * b + d) } }

theorem disturbLimit_over {d b : Nat} {m : Mx}
    (h : ¬(distLim m = 0 ∨ bgDisturb m d b ≤ distLim m ∨ (bgFlags m d b).testBit 1 = true)) :
    disturbLimit d b m = raise (log (disturbNoted d b m) .disturb d b) 282 := if_neg h

theorem keepsBut_disturbLimit (s : State) (d b : Nat) :
    keepsBut (.sg :: onRaise) s { s with mx := disturbLimit d b s.mx } := by
  by_cases h : distLim s.mx = 0 ∨ bgDisturb s.mx d b ≤ distLim s.mx ∨ (bgFlags s.mx d b).testBit 1 = true
  · rw [disturbLimit_within h]
    exact keepsBut_refl s _
  · rw [disturbLimit_over h]
    exact keepsBut_trans (keepsBut_sg s _) (keepsBut_alarm { s with mx := disturbNoted d b s.mx } _ _ _ _ _)
      (by simp) (List.subset_cons_self _ _)

theorem disturbLimit_outside (d b : Nat) (m : Mx) {a : Nat} (ha : a ≠ bgState d b + 0xC) :
    memGet (disturbLimit d b m).sg.table a = memGet m.sg.table a := by
  by_cases h : distLim m = 0 ∨ bgDisturb m d b ≤ distLim m ∨ (bgFlags m d b).testBit 1 = true
  · rw [disturbLimit_within h]
  · rw [disturbLimit_over h, raise_sg, log_sg]
    exact (memGet_setFlag d b 1 true m a).trans (if_neg ha)

/-- DISTURB above a limit leaves DISTF set, as it may have been. -/
theorem disturbLimit_flag {d b : Nat} {m : Mx} (hover : distLim m < bgDisturb m d b) :
    memGet (disturbLimit d b m).sg.table (bgState d b + 0xC) = if distLim m = 0 then memGet m.sg.table (bgState d b + 0xC)
      else memGet m.sg.table (bgState d b + 0xC) ||| 2 := by
  by_cases h : distLim m = 0 ∨ bgDisturb m d b ≤ distLim m ∨ (bgFlags m d b).testBit 1 = true
  · rw [disturbLimit_within h]
    split
    · rfl
    · rename_i hlim
      have hset : (bgFlags m d b).testBit 1 = true := (h.resolve_left hlim).resolve_left (by omega)
      exact (or_two_of_testBit _ hset).symm
  · rw [disturbLimit_over h, raise_sg, log_sg, if_neg (fun hlim => h (.inl hlim)), ← flagByte_set1]
    exact (memGet_setFlag d b 1 true m _).trans (if_pos rfl)

theorem mem_disturbLimit_pend {d b : Nat} {m : Mx} (hlim : distLim m ≠ 0) (hover : distLim m < bgDisturb m d b)
    (hclear : (bgFlags m d b).testBit 1 = false) : 282 ∈ (disturbLimit d b m).ic.pend := by
  rw [disturbLimit_over (by rw [hclear]; simp; omega)]
  exact mem_raise _ _

/-! ## A host's write of a block group's state -/

/-- The die and the block group whose state holds an address, by number. -/
def stateDie (a : Nat) : Nat := (a - 0x100000) / 16 / 16
def stateBg (a : Nat) : Nat := (a - 0x100000) / 16 % 16

theorem bgState_of_addr {a : Nat} (h : 0x100000 ≤ a) : bgState (stateDie a) (stateBg a) = a / 16 * 16 := by
  unfold bgState bgIdx stateDie stateBg
  omega

theorem flagsAt_eq {a : Nat} (h : 0x100000 ≤ a) : bgState (stateDie a) (stateBg a) + 0xC = flagsAt a := by
  rw [bgState_of_addr h, flagsAt]

theorem stateWritten_disturb {a : Nat} (m : Mx) (h : a % 16 = 0) : stateWritten a m =
    if bgDisturb m (stateDie a) (stateBg a) ≤ distLim m then setFlag (stateDie a) (stateBg a) 1 false m
    else disturbLimit (stateDie a) (stateBg a) m := if_pos h

theorem stateWritten_pin {a : Nat} (m : Mx) (h : a % 16 = 4) :
    stateWritten a m = setFlag (stateDie a) (stateBg a) 0 false m :=
  (if_neg (by omega)).trans (if_pos h)

theorem stateWritten_other {a : Nat} (m : Mx) (h0 : a % 16 ≠ 0) (h4 : a % 16 ≠ 4) : stateWritten a m = m :=
  (if_neg h0).trans (if_neg h4)

theorem keepsBut_stateWritten (s : State) (a : Nat) : keepsBut (.sg :: onRaise) s { s with mx := stateWritten a s.mx } := by
  by_cases h0 : a % 16 = 0
  · rw [stateWritten_disturb s.mx h0]
    split
    · exact keepsBut_mono (keepsBut_setFlag s _ _ _ _) (by simp)
    · exact keepsBut_disturbLimit s _ _
  · by_cases h4 : a % 16 = 4
    · rw [stateWritten_pin s.mx h4]
      exact keepsBut_mono (keepsBut_setFlag s _ _ _ _) (by simp)
    · rw [stateWritten_other s.mx h0 h4]
      exact keepsBut_refl s _

theorem stateWritten_outside {a b : Nat} (m : Mx) (ha : 0x100000 ≤ a) (hb : b ≠ flagsAt a) :
    memGet (stateWritten a m).sg.table b = memGet m.sg.table b := by
  rw [← flagsAt_eq ha] at hb
  by_cases h0 : a % 16 = 0
  · rw [stateWritten_disturb m h0]
    split
    · rw [memGet_setFlag, if_neg hb]
    · exact disturbLimit_outside _ _ m hb
  · by_cases h4 : a % 16 = 4
    · rw [stateWritten_pin m h4, memGet_setFlag, if_neg hb]
    · rw [stateWritten_other m h0 h4]

theorem stateWritten_pin_flags {a : Nat} (m : Mx) (ha : 0x100000 ≤ a) (h : a % 16 = 4) :
    memGet (stateWritten a m).sg.table (flagsAt a) = memGet m.sg.table (flagsAt a) &&& 0xFE := by
  rw [stateWritten_pin m h, ← flagsAt_eq ha, memGet_setFlag, if_pos rfl, flagByte_clear0]

section
variable {m : Mx} {a v : Nat} (ha : 0x100000 ≤ a) (h : a % 16 = 0) (hword : sgLe m a 4 = v)
include ha h hword

theorem bgDisturb_of_addr : bgDisturb m (stateDie a) (stateBg a) = v := by
  rw [bgDisturb, bgState_of_addr ha, show a / 16 * 16 = a by omega, hword]

theorem stateWritten_disturb_flags : memGet (stateWritten a m).sg.table (flagsAt a) =
    if v ≤ distLim m then memGet m.sg.table (flagsAt a) &&& 0xFD
    else if distLim m = 0 then memGet m.sg.table (flagsAt a) else memGet m.sg.table (flagsAt a) ||| 2 := by
  rw [stateWritten_disturb m h, bgDisturb_of_addr ha h hword, ← flagsAt_eq ha]
  split
  · rw [memGet_setFlag, if_pos rfl, flagByte_clear1]
  · exact disturbLimit_flag (by rw [bgDisturb_of_addr ha h hword]; omega)

theorem mem_stateWritten_pend (hlim : distLim m ≠ 0) (hover : distLim m < v)
    (hclear : (sgByte m (flagsAt a)).testBit 1 = false) : 282 ∈ (stateWritten a m).ic.pend := by
  have hdist := bgDisturb_of_addr ha h hword
  rw [stateWritten_disturb m h, hdist, if_neg (Nat.not_le.mpr hover)]
  rw [← hdist] at hover
  rw [← flagsAt_eq ha] at hclear
  exact mem_disturbLimit_pend hlim hover hclear

end

section
variable {s : State} (v : Word) (h : carried s (sgOff 0x3C)) (hlo : 0x100000 ≤ sgAddr s.mx) (hhi : sgAddr s.mx < 0x180000)
include h hlo hhi

/-- R341, R354, R357: the word is set, the flags follow DISTURB and PIN, and the other words of the group move none. -/
theorem sgTdataWrite_state :
    let a := sgAddr s.mx
    let flags := memGet s.mx.sg.table (flagsAt a)
    ∃ t, exec (.sgTdataWrite v) s = .next t ∧ sgLe t.mx a 4 = v.toNat ∧
      (∀ b, (b < a ∨ a + 4 ≤ b) → b ≠ flagsAt a → memGet t.mx.sg.table b = memGet s.mx.sg.table b) ∧
      (a % 16 = 8 → memGet t.mx.sg.table (flagsAt a) = flags ∧ t.mx.ic = s.mx.ic ∧ t.mx.nl = s.mx.nl) ∧
      (a % 16 = 4 → memGet t.mx.sg.table (flagsAt a) = flags &&& 0xFE ∧ t.mx.ic = s.mx.ic ∧ t.mx.nl = s.mx.nl) ∧
      (a % 16 = 0 → memGet t.mx.sg.table (flagsAt a) =
        (if v.toNat ≤ distLim s.mx then flags &&& 0xFD else if distLim s.mx = 0 then flags else flags ||| 2) ∧
        (distLim s.mx ≠ 0 → distLim s.mx < v.toNat → (sgByte s.mx (flagsAt a)).testBit 1 = false →
          282 ∈ t.mx.ic.pend)) ∧
      (∀ o, o ≠ sgOff 0x38 → reg t.mx o = reg s.mx o) ∧ keepsBut (.sg :: .regs :: .cp :: onRaise) s t := by
  intro a flags
  let m := wordPut v s.mx
  let w := stateWritten a m
  have hexec : exec (.sgTdataWrite v) s = .next { s with mx := sgAdvance w } := by
    rw [exec_sgTdataWrite v h, tableWrite_state v hlo hhi]
  have halign : a % 4 = 0 := Nat.mul_mod_right 4 _
  have hword : sgLe m a 4 = v.toNat := wordPut_word v s.mx
  have htable (b : Nat) : memGet (sgAdvance w).sg.table b = memGet w.sg.table b := by rw [sgAdvance_sg]
  have hflags (hk : a % 16 ≠ 0xC) : memGet m.sg.table (flagsAt a) = flags :=
    wordPut_outside v (.inr (by change a + 4 ≤ flagsAt a; unfold flagsAt; omega))
  have hkeepW : keepsBut (.sg :: onRaise) { s with mx := m } { s with mx := w } := keepsBut_stateWritten { s with mx := m } a
  refine ⟨_, hexec, ?word, fun b hb hne => ?rest, fun hk => ?other, fun hk => ?pin, fun hk => ⟨?disturb, ?raised⟩,
    fun o ho => ?regs, ?keeps⟩
  case word =>
    refine (sgLe_congr _ _ fun i hi => (htable _).trans ?_).trans hword
    by_cases hk : a % 16 = 0xC
    · rw [show w = m from stateWritten_other m (by omega) (by omega)]
    · exact stateWritten_outside m hlo (by unfold flagsAt; omega)
  case rest => exact (htable b).trans ((stateWritten_outside m hlo hne).trans (wordPut_outside v hb))
  case other =>
    have hsame : w = m := stateWritten_other m (by omega) (by omega)
    exact ⟨(htable _).trans (by rw [hsame, hflags (by omega)]), by rw [sgAdvance_ic, hsame]; rfl,
      by rw [sgAdvance_nl, hsame]; rfl⟩
  case pin =>
    have hset : w = setFlag (stateDie a) (stateBg a) 0 false m := stateWritten_pin m hk
    exact ⟨(htable _).trans ((stateWritten_pin_flags m hlo hk).trans (by rw [hflags (by omega)])),
      by rw [sgAdvance_ic, hset]; rfl, by rw [sgAdvance_nl, hset]; rfl⟩
  case disturb =>
    rw [htable, stateWritten_disturb_flags hlo hk hword, hflags (by omega)]
    rfl
  case raised =>
    intro hlim hover hclear
    rw [sgAdvance_ic]
    refine mem_stateWritten_pend hlo hk hword hlim hover ?_
    rwa [sgByte, hflags (by omega)]
  case regs =>
    have hregs : w.regs = m.regs := keepsBut_same hkeepW .regs (by decide)
    rw [reg_sgAdvance_ne w ho, reg, hregs]
    rfl
  case keeps =>
    refine keepsBut_trans (keepsBut_trans (k := .sg :: .cp :: onRaise) (keepsBut_wordPut v) hkeepW (by simp) ?_)
      (keepsBut_sgAdvance { s with mx := w }) (by decide) (by simp)
    decide

end

end Sys2Proof.Machine
end

section
/-! PROOFS. The writes of the complex's own and the work they leave a die (05_channel_engine.md R194; 10_stripes.md R400,
R401). -/

namespace Sys2Proof.Machine

/-! ## The table of writes -/

section
variable (m : Mx) (k : Nat)

/-- The writes in progress are a table like any other. -/
theorem sysW_eq_tabGet : sysW m k = tabGet none (m.wr.map fun x => (x.1, some x.2)) k := by
  unfold sysW
  induction m.wr with
  | nil => rfl
  | cons x t ih =>
    by_cases h : x.1 = k
    · simp [tabGet, h]
    · simpa [tabGet, h] using ih

theorem tabSet_map {α β : Type} (f : α → β) (t : Tab α) (i : Nat) (v : α) :
    (tabSet t i v).map (fun x => (x.1, f x.2)) = tabSet (t.map fun x => (x.1, f x.2)) i (f v) := by
  induction t with
  | nil => rfl
  | cons x t ih =>
    simp only [tabSet, List.map_cons]
    split
    · rfl
    · split
      · rfl
      · rw [List.map_cons, ih]

theorem sysW_setSys (w : SysW) : sysW (setSys m k w) k = some w := by
  rw [sysW_eq_tabGet, setSys, tabSet_map, tabGet_tabSet_same]

theorem sysW_setSys_ne {j : Nat} (w : SysW) (h : j ≠ k) : sysW (setSys m k w) j = sysW m j := by
  rw [sysW_eq_tabGet, setSys, tabSet_map, tabGet_tabSet_ne _ _ _ _ _ h.symm, ← sysW_eq_tabGet]

theorem sysW_dropSys : sysW (dropSys m k) k = none := by simp [sysW, dropSys]

theorem sysW_dropSys_ne {j : Nat} (h : j ≠ k) : sysW (dropSys m k) j = sysW m j := by
  unfold sysW dropSys
  dsimp only
  rw [List.find?_filter]
  refine congrArg (Option.map _) (congrArg (m.wr.find? ·) (funext fun x => ?_))
  by_cases hx : x.1 = j <;> simp [hx, h]

variable {m} in
theorem sysW_congr {t : Mx} (h : t.wr = m.wr) : sysW t k = sysW m k := by rw [sysW, sysW, h]

end

/-! ## Work put ahead of a die's entries -/

/-- What stands of a die's work when an item is put ahead of it: the read-ahead held there is cancelled (R218). -/
theorem addAhead_eq (d : Nat) (i : Item) (m : Mx) :
    ∃ x, x.ahead = (die m d).ahead ++ [i] ∧ addAhead d i m = setDie m d x := by
  let y : Die := { die m d with ahead := (die m d).ahead ++ [i] }
  have hput : addAhead d i m = cancelAhead d (setDie m d y) := rfl
  have hdie : die (setDie m d y) d = y := die_setDie m d y
  rw [hput, cancelAhead, hdie]
  split
  · exact ⟨y, rfl, rfl⟩
  · rename_i a _
    split
    · exact ⟨y, rfl, rfl⟩
    · refine ⟨{ y with cancel := true, spec := some { a with cancelled := true } }, rfl, ?_⟩
      simp only [setDie, tabSet_tabSet]

theorem sysNext_erase {k row : Nat} {w : SysW} {m : Mx} {l : List (Nat × SysOp)} (hw : sysW m k = some w)
    (hops : w.ops = (row, .erase) :: l) : sysNext k m =
      addAhead w.die (.write (sysEid k)) (setEnt m (sysEid k) (sysEnt w.die row 3 .placed)) := by
  simp only [sysNext, hw, hops]

end Sys2Proof.Machine
end

section
/-! PROOFS. Saves of the Seeing table: their header, their copies and their end (09_seeing.md R360 to R362; 00_scope.md
R17). -/

namespace Sys2Proof.Machine

/-! ## A copy begins -/

/-- A copy's write as it begins: its block's erase and the 25 page-sets to follow, or, of a block too small, one that has
failed. -/
def copyWrite (m : Mx) (b later : Bool) : SysW :=
  if ppb m (saveDie m b) < 25 then { die := saveDie m b, copyB := b, later := later, ended := some (0x1500, 0) }
  else { die := saveDie m b, copyB := b, later := later,
         ops := ((reg m (sgOff 0x44)).toNat, .erase) ::
           (List.range 25).map (fun i => ((reg m (sgOff 0x44)).toNat + i, .table i)) }

theorem saveCopy_small {m : Mx} {b : Bool} (later : Bool) (h : ppb m (saveDie m b) < 25) :
    saveCopy b later m = setSys m 9 (copyWrite m b later) := by
  rw [copyWrite, if_pos h]
  exact if_pos h

/-- The erase of a copy's block is put ahead of its die's work. -/
theorem saveCopy_erases {m : Mx} {b : Bool} (later : Bool) (h : 25 ≤ ppb m (saveDie m b)) : saveCopy b later m =
    addAhead (saveDie m b) (.write (sysEid 9)) (setEnt (setSys m 9 (copyWrite m b later)) (sysEid 9)
      (sysEnt (saveDie m b) (reg m (sgOff 0x44)).toNat 3 .placed)) := by
  have hlarge : ¬ppb m (saveDie m b) < 25 := Nat.not_lt.mpr h
  have hstart : saveCopy b later m = sysNext 9 (setSys m 9 (copyWrite m b later)) := by
    rw [copyWrite, if_neg hlarge]
    exact if_neg hlarge
  have hops : (copyWrite m b later).ops = ((reg m (sgOff 0x44)).toNat, .erase) ::
      (List.range 25).map (fun i => ((reg m (sgOff 0x44)).toNat + i, .table i)) := by rw [copyWrite, if_neg hlarge]
  have hdie : (copyWrite m b later).die = saveDie m b := by rw [copyWrite, if_neg hlarge]
  rw [hstart, sysNext_erase (sysW_setSys m 9 _) hops, hdie]

/-- What a copy's beginning leaves: its write, and for a block that is large enough its erase. -/
theorem saveCopy_leaves (s : State) (g : Sg) (b later : Bool) :
    let d := saveDie s.mx b
    let t := saveCopy b later { s.mx with sg := g }
    t.sg = g ∧ t.wr = (setSys s.mx 9 (copyWrite s.mx b later)).wr ∧
    (25 ≤ ppb s.mx d → ent t (sysEid 9) = some (sysEnt d (reg s.mx (sgOff 0x44)).toNat 3 .placed) ∧
      .write (sysEid 9) ∈ (die t d).ahead) ∧
    (∀ x, x ≠ d → die t x = die s.mx x) ∧ keepsBut [.sg, .wr, .ents, .die] s { s with mx := t } := by
  intro d t
  let m : Mx := { s.mx with sg := g }
  by_cases h : ppb s.mx d < 25
  · have ht : t = setSys m 9 (copyWrite m b later) := saveCopy_small later h
    rw [ht]
    exact ⟨rfl, rfl, fun hlarge => absurd h (Nat.not_lt.mpr hlarge), fun _ _ => rfl,
      rfl, fun p hp => by cases p <;> simp [Area.same, m] at hp ⊢⟩
  · have ht : t = _ := saveCopy_erases (m := m) later (Nat.not_lt.mp h)
    obtain ⟨x, hahead, hadd⟩ := addAhead_eq d (.write (sysEid 9)) (setEnt (setSys m 9 (copyWrite m b later)) (sysEid 9)
      (sysEnt d (reg m (sgOff 0x44)).toNat 3 .placed))
    rw [ht.trans hadd]
    refine ⟨rfl, rfl, fun _ => ⟨ent_setEnt _ _ _, ?_⟩, fun y hy => die_setDie_ne _ d y x hy.symm,
      rfl, fun p hp => by cases p <;> simp [Area.same, m] at hp ⊢⟩
    rw [die_setDie, hahead]
    exact List.mem_append_right _ List.mem_cons_self

/-! ## The image header (R361) -/

section
variable (m t : Mx) (q a : Nat)

theorem header_magic : sgLe (sgPut a (saveHeader m q) t) a 4 = 0x4E454553 := by
  have h := sgLe_sgPut_part t a 4 [] (leBytes 2 1 ++ leBytes 2 0 ++ leBytes 8 q ++ leBytes 8 m.md.time ++
    leBytes 8 m.dm.dose ++ List.replicate 988 0) (v := 0x4E454553) (by decide)
  simpa only [saveHeader, List.append_assoc, List.nil_append, List.length_nil, Nat.add_zero] using h

variable {q} in
theorem header_seq (hq : q < 2 ^ 64) : sgLe (sgPut a (saveHeader m q) t) (a + 8) 8 = q := by
  have h := sgLe_sgPut_part t a 8 (leBytes 4 0x4E454553 ++ leBytes 2 1 ++ leBytes 2 0)
    (leBytes 8 m.md.time ++ leBytes 8 m.dm.dose ++ List.replicate 988 0) (v := q) hq
  simpa only [saveHeader, List.append_assoc, List.length_append, length_leBytes] using h

theorem header_time (htime : m.md.time < 2 ^ 64) : sgLe (sgPut a (saveHeader m q) t) (a + 16) 8 = m.md.time := by
  have h := sgLe_sgPut_part t a 8 (leBytes 4 0x4E454553 ++ leBytes 2 1 ++ leBytes 2 0 ++ leBytes 8 q)
    (leBytes 8 m.dm.dose ++ List.replicate 988 0) (v := m.md.time) htime
  simpa only [saveHeader, List.append_assoc, List.length_append, length_leBytes] using h

theorem header_dose (hdose : m.dm.dose < 2 ^ 64) : sgLe (sgPut a (saveHeader m q) t) (a + 24) 8 = m.dm.dose := by
  have h := sgLe_sgPut_part t a 8 (leBytes 4 0x4E454553 ++ leBytes 2 1 ++ leBytes 2 0 ++ leBytes 8 q ++ leBytes 8 m.md.time)
    (List.replicate 988 0) (v := m.dm.dose) hdose
  simpa only [saveHeader, List.append_assoc, List.length_append, length_leBytes] using h

end

/-! ## A save begins (R360 to R362) -/

/-- Seeing with a save of the next SEQ in progress and its header filled. -/
def savingSg (m : Mx) : Sg :=
  { m.sg with saving := some (nextSave m), savedAt := m.md.time,
              table := memWrite m.sg.table 0x18FC00 (saveHeader m (nextSave m)) }

theorem startSave_none {m : Mx} (h : bit (saveLoc m) 31 = false ∨ m.sg.saving ≠ none) : startSave m = m := by
  refine if_pos ?_
  rcases h with h | h
  · simp [h]
  · simp [Option.ne_none_iff_isSome.mp h]

theorem startSave_begins {m : Mx} (hvalid : bit (saveLoc m) 31 = true) (hidle : m.sg.saving = none) :
    startSave m = saveCopy (saveBFirst m) false { m with sg := savingSg m } := by
  unfold startSave
  rw [if_neg (by simp [hvalid, hidle])]
  rfl

theorem seq_lt_nextSave (m : Mx) : (m.sg.copyA.valid = true → m.sg.copyA.seq < nextSave m) ∧
    (m.sg.copyB.valid = true → m.sg.copyB.seq < nextSave m) := by
  unfold nextSave
  constructor
  · intro h
    rw [if_pos h]
    omega
  · intro h
    rw [if_pos h]
    omega

/-- The fields of the header (R361), and the table below it. -/
theorem savingSg_table {m t : Mx} (ht : t.sg = savingSg m) (hseq : nextSave m < 2 ^ 64) (htime : m.md.time < 2 ^ 64)
    (hdose : m.dm.dose < 2 ^ 64) :
    sgLe t 0x18FC00 4 = 0x4E454553 ∧ sgLe t 0x18FC08 8 = nextSave m ∧ sgLe t 0x18FC10 8 = m.md.time ∧
    sgLe t 0x18FC18 8 = m.dm.dose ∧ (∀ a, a < 0x18FC00 → memGet t.sg.table a = memGet m.sg.table a) := by
  have hput : t.sg.table = (sgPut 0x18FC00 (saveHeader m (nextSave m)) m).sg.table := congrArg (·.table) ht
  have hle (a k : Nat) : sgLe t a k = sgLe (sgPut 0x18FC00 (saveHeader m (nextSave m)) m) a k := by rw [sgLe, hput, sgLe]
  rw [hle, hle, hle, hle, hput]
  exact ⟨header_magic m m (nextSave m) 0x18FC00, header_seq m m 0x18FC00 hseq, header_time m m (nextSave m) 0x18FC00 htime,
    header_dose m m (nextSave m) 0x18FC00 hdose, fun a ha => memGet_sgPut_outside m 0x18FC00 a _ (.inl ha)⟩

/-- A save begun: the statement of R360 to R362 but for what asked for it. -/
def saveBegun (s t : State) : Prop :=
  let b := saveBFirst s.mx
  let d := saveDie s.mx b
  t.mx.sg.saving = some (nextSave s.mx) ∧ t.mx.sg.savedAt = s.mx.md.time ∧
  (s.mx.sg.copyA.valid = true → s.mx.sg.copyA.seq < nextSave s.mx) ∧
  (s.mx.sg.copyB.valid = true → s.mx.sg.copyB.seq < nextSave s.mx) ∧
  sgLe t.mx 0x18FC00 4 = 0x4E454553 ∧ sgLe t.mx 0x18FC08 8 = nextSave s.mx ∧
  sgLe t.mx 0x18FC10 8 = s.mx.md.time ∧ sgLe t.mx 0x18FC18 8 = s.mx.dm.dose ∧
  (∀ a, a < 0x18FC00 → memGet t.mx.sg.table a = memGet s.mx.sg.table a) ∧
  sysW t.mx 9 = some (copyWrite s.mx b false) ∧
  (25 ≤ ppb s.mx d → ent t.mx (sysEid 9) = some (sysEnt d (reg s.mx (sgOff 0x44)).toNat 3 .placed) ∧
    .write (sysEid 9) ∈ (die t.mx d).ahead) ∧
  (∀ k, k ≠ 9 → sysW t.mx k = sysW s.mx k) ∧ (∀ x, x ≠ d → die t.mx x = die s.mx x) ∧
  keepsBut [.sg, .cp, .wr, .ents, .die] s t

/-- A save begins alike whether or not an access of the control port asked for it. -/
theorem saveBegun_startSave {s : State} (c : Cp) (hvalid : bit (saveLoc s.mx) 31 = true) (hidle : s.mx.sg.saving = none)
    (hseq : nextSave s.mx < 2 ^ 64) (htime : s.mx.md.time < 2 ^ 64) (hdose : s.mx.dm.dose < 2 ^ 64) :
    saveBegun s { s with mx := startSave { s.mx with cp := c } } := by
  let u : State := { s with mx := { s.mx with cp := c } }
  rw [startSave_begins (m := u.mx) hvalid hidle]
  obtain ⟨hsg, hwr, hlarge, hdies, hkeep⟩ := saveCopy_leaves u (savingSg u.mx) (saveBFirst s.mx) false
  obtain ⟨hmagic, hq, ht, hd, hbelow⟩ := savingSg_table hsg hseq htime hdose
  obtain ⟨hseqA, hseqB⟩ := seq_lt_nextSave s.mx
  exact ⟨congrArg (·.saving) hsg, congrArg (·.savedAt) hsg, hseqA, hseqB, hmagic, hq, ht, hd, hbelow,
    (sysW_congr 9 hwr).trans (sysW_setSys u.mx 9 _), hlarge,
    fun k hk => (sysW_congr k hwr).trans (sysW_setSys_ne u.mx 9 _ hk), hdies,
    keepsBut_trans (keepsBut_cp s c) hkeep (by simp) (by simp)⟩

/-! ## What asks for a save -/

theorem exec_save {s : State} (h : carried s (sgOff 4)) : exec .save s = .next { s with mx := startSave (cpOk s.mx) } :=
  act_access s _ true _ h

/-- The period has passed since the last save. -/
def saveDue (m : Mx) : Bool := (savePer m != 0) && decide (m.sg.savedAt + 3600000000000 * savePer m ≤ m.md.time)

theorem exec_savePeriod (s : State) :
    exec .savePeriod s = .next { s with mx := onlyIf (saveDue s.mx) startSave s.mx } := rfl

theorem saveDue_iff (m : Mx) : saveDue m = true ↔
    savePer m ≠ 0 ∧ m.sg.savedAt + 3600000000000 * savePer m ≤ m.md.time := by
  simp [saveDue]

theorem exec_savePeriod_due {s : State} (h : saveDue s.mx = true) :
    exec .savePeriod s = .next { s with mx := startSave s.mx } := by
  rw [exec_savePeriod, h]
  rfl

/-- A save asked for and one that is due begin alike. -/
theorem save_begins {s : State} {c : Instr} (hvalid : bit (saveLoc s.mx) 31 = true) (hidle : s.mx.sg.saving = none)
    (hseq : nextSave s.mx < 2 ^ 64) (htime : s.mx.md.time < 2 ^ 64) (hdose : s.mx.dm.dose < 2 ^ 64)
    (hc : c = .save ∧ carried s (sgOff 4) ∨
      c = .savePeriod ∧ savePer s.mx ≠ 0 ∧ s.mx.sg.savedAt + 3600000000000 * savePer s.mx ≤ s.mx.md.time) :
    ∃ t, exec c s = .next t ∧ saveBegun s t := by
  rcases hc with ⟨rfl, hcar⟩ | ⟨rfl, hper, hdue⟩
  · exact ⟨_, exec_save hcar, saveBegun_startSave _ hvalid hidle hseq htime hdose⟩
  · exact ⟨_, exec_savePeriod_due ((saveDue_iff s.mx).mpr ⟨hper, hdue⟩),
      saveBegun_startSave s.mx.cp hvalid hidle hseq htime hdose⟩

theorem save_ignored {s : State} (hcar : carried s (sgOff 4)) (h : bit (saveLoc s.mx) 31 = false ∨ s.mx.sg.saving ≠ none) :
    ∃ t, exec .save s = .next t ∧ t.mx.cp = { s.mx.cp with err := false } ∧ keepsBut [.cp] s t := by
  refine ⟨_, exec_save hcar, ?_⟩
  rw [startSave_none (m := cpOk s.mx) h]
  exact ⟨rfl, keepsBut_cpOk s⟩

theorem savePeriod_notDue {s : State} (h : bit (saveLoc s.mx) 31 = false ∨ s.mx.sg.saving ≠ none ∨ savePer s.mx = 0 ∨
    s.mx.md.time < s.mx.sg.savedAt + 3600000000000 * savePer s.mx) : exec .savePeriod s = .next s := by
  by_cases hdue : saveDue s.mx = true
  · obtain ⟨hper, htime⟩ := (saveDue_iff s.mx).mp hdue
    have hidle : bit (saveLoc s.mx) 31 = false ∨ s.mx.sg.saving ≠ none := by
      rcases h with h | h | h | h
      · exact .inl h
      · exact .inr h
      · exact absurd h hper
      · exact absurd htime (Nat.not_le.mpr h)
    rw [exec_savePeriod_due hdue, startSave_none hidle]
  · rw [exec_savePeriod, eq_false_of_ne_true hdue]
    rfl

/-! ## The last page-set (R361) -/

theorem crc32cBit_lt {c : Nat} (h : c < 2 ^ 32) : crc32cBit c < 2 ^ 32 := by
  unfold crc32cBit
  split
  · exact Nat.xor_lt_two_pow (by omega) (by decide)
  · omega

theorem crc32cByte_lt {c : Nat} (b : Byte) (h : c < 2 ^ 32) : crc32cByte c b < 2 ^ 32 := by
  have hb : b.toNat < 2 ^ 32 := Nat.lt_trans b.isLt (by decide)
  unfold crc32cByte
  iterate 8 apply crc32cBit_lt
  exact Nat.xor_lt_two_pow h hb

theorem crc32c_lt (l : List Byte) : crc32c l < 2 ^ 32 := by
  have hfold (c : Nat) (h : c < 2 ^ 32) : l.foldl crc32cByte c < 2 ^ 32 := by
    induction l generalizing c with
    | nil => exact h
    | cons b l ih => exact ih _ (crc32cByte_lt b h)
  exact Nat.xor_lt_two_pow (hfold _ (by decide)) (by decide)

/-- ICRC: over the 24 page-sets copied, and the last but for its four bytes. -/
def saveCheck (m : Mx) : Nat :=
  crc32c (m.sg.image.take 0x180000 ++ (memRead (savedTable m) 0x180000 65536).take 65532)

theorem tablePage_last_bytes (m : Mx) :
    (tablePage 24 m).1 = (memRead (savedTable m) 0x180000 65536).take 65532 ++ leBytes 4 (saveCheck m) := rfl

theorem tablePage_last_table (m : Mx) :
    (tablePage 24 m).2.sg.table = (sgPut 0x18FFFC (leBytes 4 (saveCheck m)) m).sg.table := rfl

theorem tablePage_last_check (m : Mx) : sgLe (tablePage 24 m).2 0x18FFFC 4 = saveCheck m := by
  rw [sgLe, tablePage_last_table]
  exact sgLe_sgPut m 0x18FFFC (crc32c_lt _)

theorem length_memRead (t : Mem) (a n : Nat) : (memRead t a n).length = n := by simp [memRead]

theorem tablePage_last (m : Mx) : sgLe (tablePage 24 m).2 0x18FFFC 4 = saveCheck m ∧
    (tablePage 24 m).1.drop 65532 = leBytes 4 (sgLe (tablePage 24 m).2 0x18FFFC 4) ∧
    (∀ a, a < 0x18FFFC → memGet (tablePage 24 m).2.sg.table a = memGet m.sg.table a) := by
  refine ⟨tablePage_last_check m, ?_, fun a ha => ?_⟩
  · have hlen : ((memRead (savedTable m) 0x180000 65536).take 65532).length = 65532 := by
      rw [List.length_take, length_memRead]
      decide
    rw [tablePage_last_check, tablePage_last_bytes, List.drop_left' hlen]
  · rw [tablePage_last_table]
    exact memGet_sgPut_outside m 0x18FFFC a _ (.inl ha)

/-! ## A copy written through (R362) -/

section
variable {m : Mx} {w : SysW} {q x : Nat} (hw : sysW m 9 = some w) (hsaving : m.sg.saving = some q)
  (hended : w.ended = some (0, x))
include hw hsaving hended

theorem saveTurn_later (hlater : w.later = true) : saveTurn m = setSaveCopy w.copyB { valid := true, seq := q } m := by
  simp [saveTurn, hw, hsaving, hended, hlater]

theorem saveTurn_first (hlater : w.later = false) :
    saveTurn m = saveCopy (!w.copyB) true (dropSys (setSaveCopy w.copyB { valid := true, seq := q } m) 9) := by
  simp [saveTurn, hw, hsaving, hended, hlater]

theorem saveTurn_follows (hlater : w.later = false) :
    let t := saveTurn m
    (if w.copyB then t.sg.copyB = { valid := true, seq := q } ∧ t.sg.copyA = m.sg.copyA
     else t.sg.copyA = { valid := true, seq := q } ∧ t.sg.copyB = m.sg.copyB) ∧ t.sg.saving = some q ∧
      (sysW t 9).map (fun y => (y.die, y.copyB, y.later)) = some (saveDie m (!w.copyB), !w.copyB, true) := by
  let m' := setSaveCopy w.copyB { valid := true, seq := q } m
  let n := dropSys m 9
  have hn : dropSys m' 9 = { n with sg := m'.sg } := by cases hb : w.copyB <;> simp [m', n, hb, setSaveCopy, dropSys]
  obtain ⟨hsg, hwr, -, -, -⟩ := saveCopy_leaves { mx := n } m'.sg (!w.copyB) true
  have hwrite : (copyWrite n (!w.copyB) true).die = saveDie m (!w.copyB) ∧ (copyWrite n (!w.copyB) true).copyB = !w.copyB ∧
      (copyWrite n (!w.copyB) true).later = true := by
    unfold copyWrite
    split <;> exact ⟨rfl, rfl, rfl⟩
  obtain ⟨hwdie, hwb, hwlater⟩ := hwrite
  dsimp only
  rw [saveTurn_first hw hsaving hended hlater, hn]
  refine ⟨?_, ?_, ?_⟩
  · rw [hsg]
    cases hb : w.copyB <;> simp [m', hb, setSaveCopy]
  · rw [hsg]
    cases hb : w.copyB <;> simpa [m', hb, setSaveCopy] using hsaving
  · rw [sysW_congr 9 hwr, sysW_setSys, Option.map_some, hwdie, hwb, hwlater]

end

/-! ## A save ends (R362) -/

theorem exec_saveEnd (a b : Told) (s : State) : exec (.saveEnd a b) s = .next { s with mx := endSave s.mx } := rfl

theorem endSave_none {m : Mx} (h : (sysW m 9).bind (·.ended) = none) : endSave m = m := by
  rw [endSave, h]
  cases sysW m 9 <;> rfl

theorem endSave_done {m : Mx} {w : SysW} {x : Nat} (hw : sysW m 9 = some w) (hended : w.ended = some (0, x)) :
    endSave m = { dropSys m 9 with sg := { m.sg with saving := none, savefail := false, image := [] } } := by
  simp [endSave, hw, hended]

/-- Seeing after a copy has failed: it is invalid, and the other stands. -/
def failedSg (g : Sg) (b : Bool) : Sg :=
  { g with saving := none, savefail := true, image := [],
           copyA := if b then g.copyA else {}, copyB := if b then {} else g.copyB }

theorem endSave_failed {m : Mx} {w : SysW} {st x : Nat} (hw : sysW m 9 = some w) (hended : w.ended = some (st, x))
    (hst : st ≠ 0) : ∃ d i, endSave m =
      raise (log { dropSys m 9 with sg := failedSg m.sg w.copyB } .saveFailed d i) 284 := by
  cases hb : w.copyB <;> simp only [endSave, hw, hended, Option.bind_some, if_neg hst, hb] <;> exact ⟨_, _, rfl⟩

section
variable {s : State} {w : SysW} (hw : sysW s.mx 9 = some w)

theorem keepsBut_saveOver (s : State) (g : Sg) : keepsBut [.sg, .wr] s { s with mx := { dropSys s.mx 9 with sg := g } } :=
  ⟨rfl, fun p hp => by cases p <;> simp [Area.same] at hp ⊢⟩

include hw

theorem saveEnd_done {x : Nat} (hended : w.ended = some (0, x)) :
    ∃ t, exec (.saveEnd .held .held) s = .next t ∧
      t.mx.sg = { s.mx.sg with saving := none, savefail := false, image := [] } ∧ sysW t.mx 9 = none ∧
      (∀ k, k ≠ 9 → sysW t.mx k = sysW s.mx k) ∧ keepsBut [.sg, .wr] s t := by
  refine ⟨_, exec_saveEnd _ _ s, ?_⟩
  rw [endSave_done hw hended]
  exact ⟨rfl, sysW_dropSys s.mx 9, fun k hk => sysW_dropSys_ne s.mx 9 hk, keepsBut_saveOver s _⟩

theorem saveEnd_failed {st x : Nat} (hended : w.ended = some (st, x)) (hst : st ≠ 0) :
    ∃ t, exec (.saveEnd .held .held) s = .next t ∧ t.mx.sg = failedSg s.mx.sg w.copyB ∧ 284 ∈ t.mx.ic.pend ∧
      sysW t.mx 9 = none ∧ (∀ k, k ≠ 9 → sysW t.mx k = sysW s.mx k) ∧ keepsBut (.sg :: .wr :: onRaise) s t := by
  obtain ⟨d, i, hend⟩ := endSave_failed hw hended hst
  let m := { dropSys s.mx 9 with sg := failedSg s.mx.sg w.copyB }
  have hwr : (raise (log m .saveFailed d i) 284).wr = (dropSys s.mx 9).wr := by simp [m]
  refine ⟨_, exec_saveEnd _ _ s, ?_⟩
  rw [hend]
  refine ⟨?sg, mem_raise _ _, (sysW_congr 9 hwr).trans (sysW_dropSys s.mx 9),
    fun k hk => (sysW_congr k hwr).trans (sysW_dropSys_ne s.mx 9 hk),
    keepsBut_trans (keepsBut_saveOver s _) (keepsBut_alarm { s with mx := m } _ _ _ _ _) (by simp) ?_⟩
  case sg => rw [raise_sg, log_sg]
  exact fun p hp => List.mem_cons_of_mem _ (List.mem_cons_of_mem _ hp)

end

theorem saveEnd_none {s : State} (a b : Told) (h : (sysW s.mx 9).bind (·.ended) = none) :
    exec (.saveEnd a b) s = .next s := by
  rw [exec_saveEnd, endSave_none h]

/-- Settles O46: a record by how it votes, an access of SG_TDATA by where SG_TADDR points, and a save by how far it has come. -/
theorem seeingLearnsAndSaves : Obligations.SeeingLearnsAndSaves := by
  refine ⟨fun s r rs l f g hrecs hon hres hserved hlevels hfell hrose _ hl _ _ hlt hmin hused => ?fell,
    fun s r rs hrecs hoff => learningUpdate_off hrecs hoff, fun s r rs hrecs h => learningUpdate_untaught hrecs h,
    fun s h => learningUpdate_none h,
    fun s r rs l f g hrecs hon hres hserved hlevels hfell hrose _ hl _ _ hlt hmin hused =>
      learningUpdate_rose hrecs hon hres hserved hlevels hfell hrose hl hlt hmin hused,
    fun s r rs l f g hrecs hon hres hserved hlevels hfell hrose _ _ hmin =>
      learningUpdate_tooLittle hrecs hon hres hserved hlevels hfell hrose hmin,
    fun s v h haddr => sgTdataWrite_sets v h haddr, fun s v h haddr => sgTdataWrite_refused v h haddr,
    fun s h => sgTdataRead_shows h, fun s v h hlo hhi => sgTdataWrite_state v h hlo hhi,
    fun s h => clrSpec_clears h, fun s h => clrMoves_clears h,
    fun s c hvalid hidle hseq htime hdose hc => save_begins hvalid hidle hseq htime hdose hc,
    fun m w q x hw hsaving hended hlater => saveTurn_later hw hsaving hended hlater,
    fun m w q x hw hsaving hended hlater => saveTurn_follows hw hsaving hended hlater, tablePage_last,
    fun s w x hw hended => saveEnd_done hw hended, fun s w st x hw hended hst => saveEnd_failed hw hended hst,
    fun s a b h => saveEnd_none a b h, fun s hcar h => save_ignored hcar h, fun s h => savePeriod_notDue h⟩
  case fell =>
    simp only [Int.sub_eq_add_neg]
    exact learningUpdate_fell hrecs hon hres hserved hlevels hfell hrose hl hlt hmin hused

end Sys2Proof.Machine
end
